-- ==== Sys2Proof/Word.lean ====
section
/-! DEFINITION. The types of the values the manual treats as bits (R15, 00_scope.md; R480, 30_encoding.md). -/

namespace Sys2Proof

/-- A quadword: the width of every register and of every data path (R31, R34, R100). -/
abbrev Word := BitVec 64

/-- A longword: the width of an instruction (R480) and of the short memory access (R307). -/
abbrev Longword := BitVec 32

/-- The smallest addressable unit of memory (R390). -/
abbrev Byte := BitVec 8

/-- A register number of an instruction (R482). -/
abbrev RegNum := BitVec 5

/-- A physical address, PA<39:0> (R302). -/
abbrev PAddr := BitVec 40

end Sys2Proof
end

