-- ==== Sys2Proof/Config.lean ====
section
/-! DEFINITION. What the spec leaves to the implementation or to chance. Every constant without a body is a FREE
VALUE (notes/assumptions/4.md): nothing can be proved of it, so a statement about it holds for every value. A draw
number `n` is State's `freeCount` at the moment of use, so that two uses are two unrelated values. -/

namespace Sys2Proof.Config

/-- The n-th UNPREDICTABLE or undefined value (R17, 00_scope.md; D4, D17 of 92_eei_decisions.md). -/
opaque freeWord (n : Nat) : Word

/-- How many CPU cycles the n-th step takes: the spec gives no cycle counts to a functional model (R667, D11). -/
opaque cycles (n : Nat) : Nat

/-- How many micro-architectural events performance counter `k` sees during the n-th step (R128, D11). -/
opaque eventCount (k n : Nat) : Nat

/-- Where the ITB not-last-used pointer stands after entry `hit` has matched while it stood at `ptr`
(the open parameter TB_NLU_ON_HIT of D5). -/
opaque itbPointerAfterHit (ptr hit : Fin 48) : Fin 48

/-- The same for the DTB pointer (D5). -/
opaque dtbPointerAfterHit (ptr hit : Fin 64) : Fin 64

/-- The Scache set that the n-th fill replaces, when nothing else decides it (R57; the replacement choice is nowhere
stated). -/
opaque scacheVictim (n : Nat) : Fin 3

/-- What part `part` of entry `index` of a RAM array holds before anything has been written there: array 0 is the Scache,
array 1 the Bcache (R58, R970). -/
opaque arrayWord (array index part : Nat) : BitVec 256

/-- Whether entry `k` of a buffer outlives the n-th draw: a write-buffer entry a timeout reset (R975), a block of the refill
buffer a write of IC_FLUSH_CTL (R53, R980). -/
opaque survives (n k : Nat) : Bool

/-- TIMEOUT_LONG (R975, D22). -/
def timeoutLong : Nat := 2 ^ 30

/-- TIMEOUT_SHORT (R975, D22). -/
def timeoutShort : Nat := 5120

/-- NT_ONLY_PART (R12): this is the part that has both superpage formats (notes/assumptions/23.md). -/
def ntOnlyPart : Bool := false

/-- What a byte of the memory-like region that nothing has written reads as: the spec gives no power-on contents
(notes/assumptions/3.md, DESIGN CHOICE). -/
def unlistedByte : Byte := 0#8

end Sys2Proof.Config
end

