-- ==== Sys2Proof/Machine/State.lean ====
section
/-! DEFINITION. The state of the 21164 as plain data: every piece of state of 10_state.md (R30 to R65), 11_ipr_ibox.md,
12_ipr_mbox.md and 13_ipr_cbox.md, the buffers and the caches (R52 to R58), the pins that are state (R64), and the fields of
the model's own, marked as such.
INVENTORY.md gives each with its rule and reset value. -/

namespace Sys2Proof.Machine

/-- The model stops because an access names an address that the spec says holds nothing. -/
inductive Fault where
  /-- A load or store of the register region FF FFF0 0000 to FF FFFF FFFF at none of the nine register addresses
  (R240, R328: UNDEFINED). Raised by the load and store operations; safe. -/
  | cboxNoSuchRegister
  /-- An instruction fetch whose physical address lies in the register region (R329: UNDEFINED). Raised by the fetch;
  safe. -/
  | fetchFromRegisterRegion
  deriving DecidableEq, Repr

/-- The model gives no next state: the spec calls the operation UNDEFINED or UNPREDICTABLE and gives it no effect,
and 93_implementation_defined.md treats it as `refuse`. Every refusal is safe: it makes claims harder, never false. -/
inductive Refusal where
  /-- An instruction without a meaning in this model. Raised by `exec` only; safe. -/
  | notModelled (mnemonic : String)
  /-- HW_MTPR of an index that names no register (R45, Table 5-38 "Illegal in any cycle"). Raised by HW_MTPR; safe. -/
  | undefinedIprIndex
  /-- A must-be-zero bit of a register written as one (R21).
  Raised by HW_MTPR and by stores to Cbox registers; safe. -/
  | mustBeZeroBit
  /-- Two matching TB entries that differ (R314). Raised by translation; safe. -/
  | tbMultipleMatch
  /-- HW_REI with TYP 00 or 01 (R490, D17). Raised by HW_REI; safe. -/
  | hwReiType
  /-- HW_ST with bit <13> or <11> set (R489, D17). Raised by HW_ST; safe. -/
  | hwStMustBeZero
  /-- LDx_L, STx_C, or their HW_LD and HW_ST forms, at a Cbox register (R241 (e)). Raised by them; safe. -/
  | lockAtCboxRegister
  /-- SC_CTL<SC_SET_EN> selecting none or two sets, or more than one set in force-hit mode (R242). Raised by stores to
  SC_CTL; safe. -/
  | scacheSetEnable
  /-- A Bcache size or speed outside the ranges of Table 5-32 (R251). Raised by stores to SC_CTL, BC_CONTROL and BC_CONFIG;
  safe. -/
  | bcacheConfig
  /-- A load or store that breaks the order R241 prescribes around stores to SC_CTL, BC_CONTROL and BC_CONFIG (Table 5-37).
  Raised by loads and stores; safe. -/
  | cboxOrder
  /-- A third system command while two are outstanding (R441: the system must not send it). Raised by that event; safe. -/
  | commandOverflow
  /-- BC_CONTROL<BC_TAG_STAT> nonzero outside force-hit mode (R248). Raised by stores to BC_CONTROL; safe. -/
  | bcacheTagStat
  /-- A part that must have superpage NT mode set had it cleared (R12, R166). Raised by HW_MTPR; safe. -/
  | ntModeRequired
  /-- A store-conditional to cacheable space in a force-hit mode (R241 (g)). Raised by STx_C; safe. -/
  | conditionalInForceHit
  /-- A Cbox register read while BC_CONTROL<ALLOC_CYC> is set (R241 (j)). Raised by loads; safe. -/
  | cboxReadWithAllocCyc
  /-- A serial ROM image with a wrong parity or predecode bit (R965), or of the wrong length. Raised by reset; safe. -/
  | sromImage
  /-- A reset with a system clock ratio outside 3 to 15, or a sys_clk_out2 delay beyond the ratio (R409). Raised by reset;
  safe. -/
  | sysclkRatio
  /-- A system command at an address of the register region (R328). Raised by that event; safe. -/
  | commandAtRegisterRegion
  /-- A code on cmd_h<3:0> that is no system command (R440: "their effect is not stated and a system must not drive them").
  Raised by that event; safe. -/
  | undefinedSystemCommand
  deriving DecidableEq, Repr

/-- The outcome of a step or of a meaning. -/
abbrev Res (σ : Type) := Host.Outcome σ Fault Refusal

/-- The memory-like region: addresses strictly rising, no entry equal to what an unlisted address reads as (R320). -/
abbrev Memory := List Host.Cell

/-! ## Translation buffers (R49, R50) -/

structure ItbEntry where
  valid : Bool
  tag : BitVec 30
  asn : BitVec 7
  asm : Bool
  gh : BitVec 2
  /-- Read enables: bit m for mode m (kernel, executive, supervisor, user). -/
  re : BitVec 4
  pfn : BitVec 27
  deriving DecidableEq, Repr

structure Itb where
  entries : Vector ItbEntry 48
  /-- The not-last-used pointer (R51). -/
  next : Fin 48
  deriving DecidableEq, Repr

structure DtbEntry where
  valid : Bool
  tag : BitVec 30
  asn : BitVec 7
  asm : Bool
  gh : BitVec 2
  /-- Fault on read. -/
  faultRd : Bool
  /-- Fault on write. -/
  faultWr : Bool
  re : BitVec 4
  /-- Write enables: bit m for mode m. -/
  we : BitVec 4
  pfn : BitVec 27
  deriving DecidableEq, Repr

structure Dtb where
  entries : Vector DtbEntry 64
  next : Fin 64
  deriving DecidableEq, Repr

/-! ## Internal processor registers -/

/-- The Ibox registers (11_ipr_ibox.md), each at the width its rule stores. -/
structure Ibox where
  itbTag : BitVec 30
  itbPteTemp : Word
  itbAsn : BitVec 7
  ifaultVaForm : Word
  ivptbr : BitVec 34
  icperrStat : BitVec 3
  excAddr : Word
  /-- EXC_SUM<16:10>: bit 0 is SWC, then INV, DZE, FOV, UNF, INE, IOV (R113). -/
  excSum : BitVec 7
  swcBlocked : Bool
  excMask : Word
  palBase : BitVec 50
  icm : BitVec 2
  icsr : Word
  iplr : BitVec 5
  astrr : BitVec 4
  aster : BitVec 4
  /-- SIRR<18:4>: bit L-1 requests level L (R122). -/
  sirr : BitVec 15
  /-- The performance-counter overflow latches, ISR<29:27> (R44 (d)). -/
  pcReq : BitVec 3
  crdReq : Bool
  sliReq : Bool
  slXmit : Bool
  pmctr : Word
  deriving DecidableEq, Repr

/-- The Mbox and Dcache registers (12_ipr_mbox.md). -/
structure Mbox where
  dtbAsn : BitVec 7
  dtbCm : BitVec 2
  dtbPteHold : Word
  dtbPteTemp : Word
  mmStat : BitVec 17
  va : Word
  /-- The lock on VA, VA_FORM and MM_STAT (R63, R206). -/
  mmLock : Bool
  mvptbr : BitVec 34
  altMode : BitVec 2
  ccHi : BitVec 32
  ccLo : BitVec 32
  ccEna : Bool
  mcsr : BitVec 6
  dcMode : BitVec 4
  mafMode : BitVec 6
  dcPerrStat : BitVec 6
  dcTestCtl : BitVec 13
  dcTestTagTemp : Word
  deriving DecidableEq, Repr

/-- The Cbox registers (13_ipr_cbox.md). -/
structure Cbox where
  scCtl : BitVec 16
  scStat : BitVec 17
  scLock : Bool
  scAddr : Word
  bcControl : BitVec 29
  bcConfig : BitVec 29
  bcTagAddr : Word
  bcTagLock : Bool
  /-- EI_STAT<35:28> (R246). -/
  eiStat : BitVec 8
  eiLock : Bool
  eiAddr : BitVec 36
  fillSyn : BitVec 16
  deriving DecidableEq, Repr

/-! ## Instruction and data caches -/

/-- 32 bytes, the least significant byte at the lowest address: a Dcache block, an Scache subblock, a write-buffer entry
(R54, R55, R57). -/
abbrev Hexword := BitVec 256

/-- The number of a 32-byte block: PA<39:5>. -/
abbrev Block := BitVec 35

/-- One 32-byte Icache block (R52): index, tag VA<42:13>, ASN, ASM, physical indicator, the two subblock valid bits, the
eight instructions, and whether its tag or data parity is bad (R166 FBT and FBF, R902). -/
structure IcLine where
  idx : Nat
  tag : BitVec 30
  asn : BitVec 7
  asm : Bool
  phys : Bool
  valid0 : Bool
  valid1 : Bool
  insns : Vector Longword 8
  tagBad : Bool
  dataBad : Bool
  deriving DecidableEq, Repr

/-- One block of the refill buffer (R53): its number, its instructions, how many Icache fills have been made since it came, and
whether it came before the last write of IC_FLUSH_CTL. -/
structure RefillLine where
  block : Block
  insns : Vector Longword 8
  age : Nat
  old : Bool
  deriving DecidableEq, Repr

/-- The Icache and the refill buffer; `drain` counts the instructions still to run after IC_FLUSH_CTL before the refill
buffer holds nothing older than the flush (R111, R371). -/
structure Icache where
  lines : List IcLine
  refill : List RefillLine
  drain : Nat
  deriving DecidableEq, Repr

/-- One Dcache entry (R54, R221): index, tag<38:13>, tag parity, the two octaword valid bits, the data, and which of its
eight longwords hold bad data parity (R215 DC_BAD_PARITY). -/
structure DcLine where
  idx : Nat
  tag : BitVec 26
  parity : Bool
  valid0 : Bool
  valid1 : Bool
  badData : BitVec 8
  data : Hexword
  deriving DecidableEq, Repr

/-- The two banks of the Dcache; an index that is not listed is invalid with a zero tag. -/
structure Dcache where
  bank0 : List DcLine
  bank1 : List DcLine
  deriving DecidableEq, Repr

/-! ## The second-level and the external cache -/

/-- One 32-byte Scache subblock (R57): valid, shared and dirty, the modified bit of each octaword, the data, and which of
its eight longwords hold bad data parity (R242 SC_FB_DP). -/
structure ScSub where
  valid : Bool
  shared : Bool
  dirty : Bool
  modified : BitVec 2
  data : Hexword
  bad : BitVec 8
  deriving DecidableEq, Repr

/-- One 64-byte Scache block (R57): its set, its index PA<14:6>, its tag PA<38:15>, its tag parity bit, and the subblocks of
PA<5> = 0 and 1. A block of the victim buffer has the same parts. -/
structure ScLine where
  way : Fin 3
  idx : Nat
  tag : BitVec 24
  parity : Bool
  sub0 : ScSub
  sub1 : ScSub
  deriving DecidableEq, Repr

/-- One entry of the Bcache tag RAM, of a whole cache block (R58, R413): its index, tag_data_h<38:20>, tag_data_par_h,
tag_valid_h, tag_shared_h, tag_dirty_h, tag_ctl_par_h. -/
structure BcTag where
  idx : Nat
  tag : BitVec 19
  tagPar : Bool
  valid : Bool
  shared : Bool
  dirty : Bool
  ctlPar : Bool
  deriving DecidableEq, Repr

/-- 32 bytes of the Bcache data RAMs (R58, R413): their index, the data, and data_check_h of the two octawords. -/
structure BcData where
  idx : Nat
  data : Hexword
  check : BitVec 32
  deriving DecidableEq, Repr

/-! ## The buffers between the pipeline and the caches -/

/-- Where an integer register number leads: a shadow register, one of R0 to R30, or the zero register (R33). -/
inductive IntSlot where
  | shadow (k : Fin 8)
  | plain (k : Fin 31)
  | zero
  deriving DecidableEq, Repr

/-- The floating-point data types in memory (R533 to R536). -/
inductive FpForm where
  | f | g | s | t
  deriving DecidableEq, Repr

/-- The destination of a load and its formatting (R56): an integer register, sign-extended from a longword or not; or a
floating-point register. -/
inductive LoadTarget where
  | int (slot : IntSlot) (long : Bool)
  | fp (n : RegNum) (form : FpForm)
  deriving DecidableEq, Repr

/-- What a write-buffer entry holds (R341): stores, the store of an STx_C with the register of its success, or the command of
FETCH or FETCH_M. -/
inductive WbKind where
  | store
  | cond (dest : IntSlot)
  | fetch
  | fetchM
  deriving DecidableEq, Repr

/-- One write-buffer entry (R55, R341): the 32-byte block, the longwords that hold data, the data (zero elsewhere), the WMB
flag and the no-merge bit. -/
structure WbEntry where
  block : Block
  kind : WbKind
  mask : BitVec 8
  data : Hexword
  wmb : Bool
  closed : Bool
  deriving DecidableEq, Repr

/-- One load waiting in a MAF entry: its address, size and destination. -/
structure MafLoad where
  pa : PAddr
  quad : Bool
  target : LoadTarget
  deriving DecidableEq, Repr

/-- One MAF entry of a load miss (R56, R1039): the loads merged in it, the first issued first; whether it is that of an LDx_L; and
its conflict bit: the write buffer had an entry of its block when a load entered (R343, R1047). -/
structure MafEntry where
  block : Block
  loads : List MafLoad
  locked : Bool
  conflict : Bool
  deriving DecidableEq, Repr

/-- Whose READ MISS a miss register holds (R401): that of a prefetch, of the loads of a MAF entry, or of the oldest store of the
write buffer. -/
inductive MissKind where
  | prefetch
  | load (e : MafEntry)
  | store
  deriving DecidableEq, Repr

/-- A miss register (R401, R404): the address of the READ MISS, whose it is, and the Scache set that the fill goes to. -/
structure Miss where
  pa : PAddr
  kind : MissKind
  way : Fin 3
  deriving DecidableEq, Repr

/-- How the instruction just run ended. -/
inductive Ended where
  /-- It has completed. -/
  | retired
  /-- A precise fault: it has had no effect and is not counted as retired. -/
  | fault
  /-- It has completed and entered PALcode by ARITH; or an interrupt or a machine check has been entered. -/
  | trap
  deriving DecidableEq, Repr

/-- The events of the Cbox that the performance counters can count (R249). -/
inductive CboxEvent where
  /-- An Scache access by a read or a write, and whether it hit. -/
  | scache (write hit : Bool)
  /-- A write to a shared Scache block. -/
  | sharedWrite
  | scVictim
  | bcache (hit : Bool)
  | bcVictim
  /-- A system command: it removes the block, or it reads it, or neither. -/
  | system (invalidates reads : Bool)
  deriving DecidableEq, Repr

/-- What software still owes after a store to SC_CTL, BC_CONTROL or BC_CONFIG (R241 (a), (b), (h), (i)). -/
inductive Owed where
  | nothing
  /-- An MB before the next load or store. -/
  | mb
  /-- An MB before the next load or store, then a load of SC_STAT (or of EI_STAT) and an MB before a store. -/
  | mbThenRead (ei : Bool)
  /-- A load of SC_STAT (or of EI_STAT), then an MB before a store. -/
  | read (ei : Bool)
  /-- An MB before a store. -/
  | mbBeforeStore
  deriving DecidableEq, Repr

/-! ## Pins and the environment -/

/-- The input pins that are state (R64, R44 (e)) and the clock parameters sampled from them during reset (R953). -/
structure Pins where
  irq : BitVec 4
  mchHlt : Bool
  pwrFail : Bool
  sysMchChk : Bool
  sromData : Bool
  perfMon : Bool
  systemLockFlag : Bool
  idleBc : Bool
  sysclkRatio : BitVec 4
  sysclk2Delay : BitVec 3
  /-- BCACHE_PRESENT and BCACHE_SIZE (R10): zero without a Bcache, else the size as BC_SIZE codes it (R251). -/
  bcacheSize : BitVec 3
  deriving DecidableEq, Repr

/-- One octaword of a fill as the pins carry it: data_h, data_check_h, fill_nocheck_h (R427, R470). -/
structure Beat where
  data : BitVec 128
  check : BitVec 16
  noCheck : Bool
  deriving DecidableEq, Repr

/-- The commands the system sends (R351, R440). -/
inductive SysCommand where
  | flush | invalidate | setShared | read | readDirty | readDirtyInv
  deriving DecidableEq, Repr

/-- A system command in the command buffer, or one of bad parity, which is answered NOACK in its turn (R441, R912). -/
inductive Waiting where
  | command (c : SysCommand) (pa : PAddr)
  | bad
  deriving DecidableEq, Repr

/-- The system's answer to one READ MISS, WRITE BLOCK, WRITE BLOCK LOCK or SET DIRTY (R350, R427, R429, R430): tag_shared_h or
shared_h, tag_dirty_h, cfail_h with cack_h, fill_error_h, and the octawords of a fill in the order in which they come. Where the
list of octawords ends early, the rest are main memory's. The system may send commands of its own before its cack_h (R356, R467),
and may acknowledge a READ MISS and give the fill later (R427). -/
structure SysAnswer where
  shared : Bool
  dirty : Bool
  cfail : Bool
  fillError : Bool
  beats : List Beat
  before : List (SysCommand × PAddr)
  later : Bool
  deriving DecidableEq, Repr

/-- The answers of addr_res_h<1:0> other than NOP (R446, R451). -/
inductive Answer where
  | noack | ackScache | ackBcache
  deriving DecidableEq, Repr

/-- One event of the environment, consumed by one step (notes/assumptions/18.md and 19.md). -/
inductive EnvEvent where
  /-- Nothing happens outside: the step runs an instruction. -/
  | quiet
  /-- The input pins take new levels (R44 (e), R126, R362). -/
  | pins (irq : BitVec 4) (mchHlt pwrFail sysMchChk sromData perfMon systemLockFlag : Bool)
  /-- idle_bc_h takes a new level (R458, R467). -/
  | idleBc (level : Bool)
  /-- A system-driven cycle: cmd_h<3:0>, the address on addr_h<39:4>, addr_cmd_par_h (R351, R440, R456, R475). -/
  | command (cmd : BitVec 4) (pa : PAddr) (par : Bool)
  /-- Another agent writes bytes of main memory from an address up (R355). -/
  | memWrite (pa : PAddr) (bytes : List Byte)
  /-- The system has its answer to a later command ready; the commands take their answers in order. -/
  | answer (a : SysAnswer)
  /-- The Ibox prefetches the 32-byte block of a physical address into the refill buffer (R372). -/
  | prefetch (pa : PAddr)
  /-- fill_h with fill_id_h: the fill of miss register 0 or 1 (R427). -/
  | fill (register : Bool) (a : SysAnswer)
  /-- The 64-cycle timer of the write buffer expires, or the 256-cycle count since an entry became valid (R342). -/
  | writeTimer (long : Bool)
  /-- So many CPU cycles pass in which no instruction completes (R61, R975). -/
  | wait (cycles : Nat)
  /-- fill_error_h outside an answer (R915). -/
  | fillError
  /-- cfail_h without cack_h (R918, R976). -/
  | cfail
  /-- An Icache tag or data parity error on the next fetch (R902). -/
  | icacheParity (tagError dataError : Bool)
  /-- Bits of the Dcache change by themselves: the tag parity bit, or the data parity of longwords, of a block of a bank. -/
  | dcacheUpset (bank1 : Bool) (idx : BitVec 8) (tagPar : Bool) (longs : BitVec 8)
  /-- Bits of the Scache change by themselves: the tag parity bit, or the data parity of longwords, of the block of an
  address. -/
  | scacheUpset (pa : PAddr) (tagPar : Bool) (longs : BitVec 8)
  /-- Bits of the Bcache RAMs change by themselves where the block of an address stands. -/
  | bcacheUpset (pa : PAddr) (tagPar ctlPar : Bool) (data : Hexword) (check : BitVec 32)
  /-- Chip reset with the clock parameters on the interrupt pins, the self-test result, and the serial ROM image: its 512
  vectors of 200 bits, vector bit 0 (first in) least significant (R950 to R965). -/
  | chipReset (ratio : BitVec 4) (delay : BitVec 3) (bistPassed : Bool) (srom : Option (List (BitVec 200)))
  deriving DecidableEq, Repr

/-- One transaction the processor drives on the external interface (R423 to R432). -/
inductive BusEvent where
  /-- NOP with the address of the victim that follows (R428 (a)). -/
  | nop (pa : PAddr)
  /-- READ MISS0 or READ MISS1, with scache_set_h, if a set is to be filled, victim_pending_h, and int4_valid_h: zero for the
  Istream (R404, R425, R426, R434). -/
  | readMiss (register : Bool) (set : Option (Fin 3)) (victim : Bool) (pa : PAddr) (int4 : BitVec 4)
  /-- READ MISS MOD0 or READ MISS MOD1, with scache_set_h and victim_pending_h. -/
  | readMissMod (register : Bool) (set : Fin 3) (victim : Bool) (pa : PAddr)
  /-- READ MISS MOD STC0 or READ MISS MOD STC1 (R363), with scache_set_h and victim_pending_h. -/
  | readMissModStc (register : Bool) (set : Fin 3) (victim : Bool) (pa : PAddr)
  /-- WRITE BLOCK: the block, and int4_valid_h and data_h of each data cycle (R429). -/
  | writeBlock (pa : PAddr) (cycles : List (BitVec 4 × BitVec 128))
  /-- WRITE BLOCK LOCK: the noncached store of an STx_C (R364). -/
  | writeBlockLock (pa : PAddr) (cycles : List (BitVec 4 × BitVec 128))
  /-- BCACHE VICTIM: the block and its data (R428). -/
  | bcacheVictim (pa : PAddr) (data : List (BitVec 128))
  /-- SET DIRTY (R430). -/
  | setDirty (pa : PAddr)
  /-- LOCK (R360, R367). -/
  | lock (pa : PAddr)
  /-- FETCH and FETCH_M (R329a, R432). -/
  | fetch (pa : PAddr)
  | fetchM (pa : PAddr)
  /-- MB, driven when BC_CONTROL<EI_CMD_GRP3> is set (R352, R431). -/
  | memoryBarrier
  /-- The answer to a system command: addr_res_h<1:0>, addr_res_h<2> where it is driven, the data (R442 to R451). -/
  | response (a : Answer) (present : Option Bool) (data : List (BitVec 128))
  deriving DecidableEq, Repr

/-! ## The whole state -/

@[ext]
structure State where
  /-- R0 to R30 (R31). -/
  ints : Vector Word 31
  /-- PS8 to PS14 and PS25, in this order (R32). -/
  shadow : Vector Word 8
  /-- F0 to F30 (R34). -/
  fregs : Vector Word 31
  /-- PALtemp0 to PALtemp23 (R42). -/
  palTemps : Vector Word 24
  /-- The address part of the PC; PC<0> is `palmode` and PC<1:0> are kept zero here (R35, R36). -/
  pc : Word
  palmode : Bool
  /-- FPCR<62:52>: INED, UNFD, UNDZ, DYN, IOV, INE, UNF, OVF, DZE, INV (R38). -/
  fpcr : BitVec 11
  lockFlag : Bool
  lockAddr : PAddr
  /-- The flag of RS and RC (R670). -/
  intrFlag : Bool
  ibox : Ibox
  mbox : Mbox
  cbox : Cbox
  itb : Itb
  dtb : Dtb
  icache : Icache
  dcache : Dcache
  /-- The write buffer, the newest entry first (R55). -/
  wb : List WbEntry
  /-- The next entry to be allocated gets the WMB flag (R353). -/
  wbFence : Bool
  /-- The miss address file: load misses, the oldest first (R56). -/
  maf : List MafEntry
  /-- The miss address file: Istream prefetches not yet sent, the oldest first (R56, R372). -/
  imaf : List PAddr
  /-- An MB waits for the buffers to drain (R352). -/
  mbWaits : Bool
  /-- The Scache: the blocks ever written (R57). -/
  scache : List ScLine
  /-- The Scache victim buffer, the oldest first (R57, R401). -/
  victims : List ScLine
  /-- The Bcache tag and data RAMs: what has been written into them (R58). -/
  bcTags : List BcTag
  bcDatas : List BcData
  /-- Miss registers 0 and 1: the misses whose fill is outstanding (R401, R427). -/
  miss0 : Option Miss
  miss1 : Option Miss
  /-- The system commands not yet answered, the oldest first (R401, R441). -/
  cmds : List Waiting
  /-- An address or command parity error on a NOP at ratio 3: a command right after it may go unanswered (R912). -/
  nopParity : Bool
  /-- A machine check waits for the end of the instruction (R704, R718). -/
  mchkPending : Bool
  /-- An MB has been executed and no load or store since (R241). -/
  afterMb : Bool
  /-- What software owes after a store to a Cbox control register (R241). -/
  owed : Owed
  /-- An ITB write has not yet been followed by HW_REI_STALL (R683). -/
  itbPending : Bool
  /-- Istream translation is UNPREDICTABLE until the next HW_REI_STALL (R683). -/
  istreamLost : Bool
  /-- The Ibox timeout counter: the CPU cycles since an instruction completed (R61). -/
  stalled : Nat
  /-- How many CPU cycles the timeout pulse on test_status_h<1> still lasts (R975). -/
  pulse : Nat
  /-- The memory-like region as main memory holds it, below the caches (R320, R390). -/
  mem : Memory
  pins : Pins
  /-- The model's own: the environment events still to come. -/
  inputs : List EnvEvent
  /-- The model's own: the system's answers to the commands still to come, in order. -/
  answers : List SysAnswer
  /-- The model's own: the transactions driven on the external interface and the answers to system commands, newest
  first. -/
  busOut : List BusEvent
  /-- The model's own: how many free values have been drawn. -/
  freeCount : Nat
  /-- The model's own: the events of the Cbox since the performance counters last counted (R249). -/
  tally : List CboxEvent
  /-- The model's own: how the instruction just run ended. -/
  ended : Ended
  deriving DecidableEq, Repr

/-! ## The machine right after reset (R65, R972, R973) -/

def ItbEntry.reset : ItbEntry := ⟨false, 0#30, 0#7, false, 0#2, 0#4, 0#27⟩
def DtbEntry.reset : DtbEntry := ⟨false, 0#30, 0#7, false, 0#2, false, false, 0#4, 0#4, 0#27⟩

/-- R972: ICSR is zero but for bit 37, and bit 38 is the self-test result; PAL_BASE, SL_XMIT and PMCTR<15:10> are zero.
Every other field is UNDEFINED in Table 7-2 and zero by notes/assumptions/2.md. -/
def Ibox.reset : Ibox where
  itbTag := 0#30
  itbPteTemp := 0#64
  itbAsn := 0#7
  ifaultVaForm := 0#64
  ivptbr := 0#34
  icperrStat := 0#3
  excAddr := 0#64
  excSum := 0#7
  swcBlocked := false
  excMask := 0#64
  palBase := 0#50
  icm := 0#2
  icsr := 0x6000000000#64
  iplr := 0#5
  astrr := 0#4
  aster := 0#4
  sirr := 0#15
  pcReq := 0#3
  crdReq := false
  sliReq := false
  slXmit := false
  pmctr := 0#64

/-- R972: MCSR, DC_MODE and MAF_MODE are zero and the cycle counter is disabled; the rest is UNDEFINED
(notes/assumptions/2.md). -/
def Mbox.reset : Mbox where
  dtbAsn := 0#7
  dtbCm := 0#2
  dtbPteHold := 0#64
  dtbPteTemp := 0#64
  mmStat := 0#17
  va := 0#64
  mmLock := false
  mvptbr := 0#34
  altMode := 0#2
  ccHi := 0#32
  ccLo := 0#32
  ccEna := false
  mcsr := 0#6
  dcMode := 0#4
  mafMode := 0#6
  dcPerrStat := 0#6
  dcTestCtl := 0#13
  dcTestTagTemp := 0#64

/-- R972: SC_CTL is F000 hex, BC_CONTROL has <6:4> and <15> set, BC_CONFIG is 17441 hex; the rest is UNDEFINED
(notes/assumptions/2.md). -/
def Cbox.reset : Cbox where
  scCtl := 0xF000#16
  scStat := 0#17
  scLock := false
  scAddr := 0#64
  bcControl := 0x8070#29
  bcConfig := 0x17441#29
  bcTagAddr := 0#64
  bcTagLock := false
  eiStat := 0#8
  eiLock := false
  eiAddr := 0#36
  fillSyn := 0#16

/-- The pins as the model takes them after reset (notes/assumptions/18.md). -/
def Pins.reset : Pins where
  irq := 0#4
  mchHlt := false
  pwrFail := false
  sysMchChk := false
  sromData := false
  perfMon := false
  systemLockFlag := true
  idleBc := false
  sysclkRatio := 3#4
  sysclk2Delay := 0#3
  bcacheSize := 0#3

/-- The machine right after chip reset without a serial ROM: PALmode at physical address 0 (R37, R956), caches empty
(R970), DTB invalid, everything the spec leaves UNDEFINED at the value of notes/assumptions/1.md and 2.md. -/
def State.reset : State where
  ints := Vector.replicate 31 0#64
  shadow := Vector.replicate 8 0#64
  fregs := Vector.replicate 31 0#64
  palTemps := Vector.replicate 24 0#64
  pc := 0#64
  palmode := true
  fpcr := 0#11
  lockFlag := false
  lockAddr := 0#40
  intrFlag := false
  ibox := Ibox.reset
  mbox := Mbox.reset
  cbox := Cbox.reset
  itb := ⟨Vector.replicate 48 ItbEntry.reset, 0⟩
  dtb := ⟨Vector.replicate 64 DtbEntry.reset, 0⟩
  icache := ⟨[], [], 0⟩
  dcache := ⟨[], []⟩
  wb := []
  wbFence := false
  maf := []
  imaf := []
  mbWaits := false
  scache := []
  victims := []
  bcTags := []
  bcDatas := []
  miss0 := none
  miss1 := none
  cmds := []
  nopParity := false
  mchkPending := false
  afterMb := false
  owed := .nothing
  itbPending := false
  istreamLost := false
  stalled := 0
  pulse := 0
  mem := []
  pins := Pins.reset
  inputs := []
  answers := []
  busOut := []
  freeCount := 0
  tally := []
  ended := .retired

end Sys2Proof.Machine
end

