-- ==== Sys2Proof/Machine/Bits.lean ====
section
/-! DEFINITION. Bit-field helpers: fields of registers, sign extension, byte order (R15, R22, 00_scope.md; R304). -/

namespace Sys2Proof.Machine

/-- The field of `n` bits from bit `lo` up. -/
def field (v : Word) (lo n : Nat) : BitVec n := v.extractLsb' lo n

/-- A field placed at bit `lo` of an otherwise zero quadword. -/
def place {n : Nat} (f : BitVec n) (lo : Nat) : Word := f.setWidth 64 <<< lo

/-- A truth value as a quadword, 1 or 0 (R22 `zext`). -/
def ofBool64 (b : Bool) : Word := if b then 1#64 else 0#64

/-- A truth value placed at one bit of a quadword. -/
def placeBit (b : Bool) (lo : Nat) : Word := if b then 1#64 <<< lo else 0#64

/-- `known` where `mask` has ones, `free` elsewhere: the value read from a register only some of whose bits are stated
(R21, R45). -/
def mergeBits (known mask free : Word) : Word :=
  if mask = ~~~0#64 then known else (known &&& mask) ||| (free &&& ~~~mask)

/-- The low longword, sign-extended (R523). -/
def sextLong (v : Word) : Word := (v.setWidth 32).signExtend 64

/-- The quadword of two longwords (R304). -/
def joinLongs (hi lo : Longword) : Word := hi ++ lo

/-- One longword of a quadword: the upper one if `hi`. -/
def longOf (v : Word) (hi : Bool) : Longword := if hi then v.extractLsb' 32 32 else v.extractLsb' 0 32

/-- Byte `i` of a quadword (R304: byte i is bits <8i+7:8i>). -/
def byteOf (v : Word) (i : Nat) : Byte := v.extractLsb' (8 * i) 8

/-- The exclusive OR of all bits: zero for even parity (R964, R221). -/
def parityOf {n : Nat} (v : BitVec n) : Bool := (List.range n).foldl (fun p i => p != v.getLsbD i) false

end Sys2Proof.Machine
end

