-- ==== Sys2Proof/Machine/Memory.lean ====
section
/-! DEFINITION. The memory-like region as a sparse list in canonical form (R320, R390), and the 32 bytes the caches and the
write buffer move at a time (R54, R55, R57). -/

namespace Sys2Proof.Machine

/-! ## Bytes of main memory -/

/-- The byte listed at an address, if one is. -/
def Memory.find (a : Nat) : Memory → Option Byte
  | [] => none
  | c :: m => if a = c.1 then some c.2 else Memory.find a m

/-- The byte at an address; an unlisted address reads as `Config.unlistedByte`. -/
def Memory.read (m : Memory) (a : Nat) : Byte := (Memory.find a m).getD Config.unlistedByte

/-- List a byte at an address, keeping the addresses rising. -/
def Memory.insert (a : Nat) (b : Byte) : Memory → Memory
  | [] => [(a, b)]
  | c :: m => if a < c.1 then (a, b) :: c :: m else if a = c.1 then (a, b) :: m else c :: Memory.insert a b m

/-- Take an address out of the list. -/
def Memory.erase (a : Nat) : Memory → Memory
  | [] => []
  | c :: m => if a = c.1 then m else c :: Memory.erase a m

/-- Write one byte, keeping the canonical form: a byte equal to the unlisted one is not listed. -/
def Memory.write (m : Memory) (a : Nat) (b : Byte) : Memory :=
  if b = Config.unlistedByte then Memory.erase a m else Memory.insert a b m

/-- The longword at an address, little-endian (R304). -/
def Memory.readLong (m : Memory) (a : Nat) : Longword :=
  m.read (a + 3) ++ (m.read (a + 2) ++ (m.read (a + 1) ++ m.read a))

/-- The quadword at an address, little-endian (R304). -/
def Memory.readQuad (m : Memory) (a : Nat) : Word := joinLongs (m.readLong (a + 4)) (m.readLong a)

/-- The octaword at an address (R304). -/
def Memory.readOct (m : Memory) (a : Nat) : BitVec 128 := m.readQuad (a + 8) ++ m.readQuad a

/-- The 32 bytes at an address (R304). -/
def Memory.readHex (m : Memory) (a : Nat) : Hexword := m.readOct (a + 16) ++ m.readOct a

/-- Write the bytes `f 0`, `f 1`, … from an address up, those that `p` picks. -/
def Memory.put (m : Memory) (a : Nat) (p : Nat → Bool) (f : Nat → Byte) : Nat → Memory
  | 0 => m
  | n + 1 => if p n then (Memory.put m a p f n).write (a + n) (f n) else Memory.put m a p f n

/-- Write `n` bytes of a value, the least significant at the lowest address (R304). -/
def Memory.writeBytes (m : Memory) (a : Nat) (v : Word) (n : Nat) : Memory := m.put a (fun _ => true) (byteOf v) n

/-- Addresses strictly rising. -/
def Memory.rising : Memory → Bool
  | [] => true
  | [_] => true
  | c :: d :: m => decide (c.1 < d.1) && Memory.rising (d :: m)

/-- The canonical form: addresses strictly rising, and no entry equal to what an unlisted address reads as. -/
def Memory.wf (m : Memory) : Bool := Memory.rising m && m.all (fun c => c.2 != Config.unlistedByte)

/-! ## Blocks of 32 bytes -/

/-- The 32-byte block of a physical address: PA<39:5>. -/
def granule (pa : PAddr) : Block := pa.extractLsb' 5 35

/-- The first byte of a block. -/
def granuleAddr (b : Block) : PAddr := b ++ 0#5

/-- Byte `k` of 32 bytes. -/
def hexByte (h : Hexword) (k : Nat) : Byte := h.extractLsb' (8 * k) 8

/-- Longword `k` of 32 bytes. -/
def hexLong (h : Hexword) (k : Nat) : Longword := h.extractLsb' (32 * k) 32

/-- Octaword `k` of 32 bytes. -/
def hexOct (h : Hexword) (k : Nat) : BitVec 128 := h.extractLsb' (128 * k) 128

/-- A longword of ones or of zeros. -/
def longOnes (b : Bool) : Longword := if b then 0xFFFFFFFF#32 else 0#32

/-- The bits of the longwords a mask picks. -/
def longMask (m : BitVec 8) : Hexword :=
  longOnes (m.getLsbD 7) ++ (longOnes (m.getLsbD 6) ++ (longOnes (m.getLsbD 5) ++ (longOnes (m.getLsbD 4) ++
    (longOnes (m.getLsbD 3) ++ (longOnes (m.getLsbD 2) ++ (longOnes (m.getLsbD 1) ++ longOnes (m.getLsbD 0)))))))

/-- 32 bytes with the longwords a mask picks replaced. -/
def mergeHex (old new : Hexword) (mask : BitVec 8) : Hexword := (old &&& ~~~longMask mask) ||| (new &&& longMask mask)

/-- The longwords of a block that an access touches. -/
def longsOf (quad : Bool) (pa : PAddr) : BitVec 8 := (if quad then 3#8 else 1#8) <<< (pa.extractLsb' 2 3).toNat

/-- The data of a store in its block, zero elsewhere (R327). -/
def blockData (quad : Bool) (pa : PAddr) (v : Word) : Hexword :=
  (if quad then v.setWidth 256 else (v.setWidth 32).setWidth 256) <<< (8 * (pa.setWidth 5).toNat)

/-- The datum of a load in its block, zero-extended (R304). -/
def hexDatum (quad : Bool) (pa : PAddr) (h : Hexword) : Word :=
  let q := h >>> (8 * (pa.setWidth 5).toNat)
  if quad then q.setWidth 64 else (q.setWidth 32).setWidth 64

/-- Where a block of the memory-like region stands in main memory; PA<39> is clear there (R320). -/
def blockBase (b : Block) : Nat := 32 * (b.setWidth 34).toNat

/-- The 32 bytes of a block in main memory. -/
def Memory.readBlock (m : Memory) (b : Block) : Hexword := m.readHex (blockBase b)

/-- Write the longwords of a block that a mask picks into main memory. -/
def Memory.writeBlock (m : Memory) (b : Block) (mask : BitVec 8) (h : Hexword) : Memory :=
  m.put (blockBase b) (fun k => mask.getLsbD (k / 4)) (hexByte h) 32

end Sys2Proof.Machine
end

