-- ==== Sys2Proof/Machine/Ops.lean ====
section
/-! DEFINITION. The named operations over registers, the PC, free values, and the one operation that takes an exception
(R700), with the return from one beside it (R683, R740). -/

namespace Sys2Proof.Machine

/-! ## Outcomes -/

/-- Go on with a further change of the next state. -/
def mapRes (f : State → State) : Res State → Res State
  | .next s => .next (f s)
  | .fault e => .fault e
  | .refused r => .refused r

/-! ## Free values -/

/-- The next free value (notes/assumptions/4.md). -/
def State.freeNow (s : State) : Word := Config.freeWord s.freeCount

/-- The state after a free value has been used. -/
def State.drawn (s : State) : State := { s with freeCount := s.freeCount + 1 }

/-! ## Control bits -/

/-- One bit of ICSR (R166). -/
def State.icsrBit (s : State) (n : Nat) : Bool := s.ibox.icsr.getLsbD n

/-- ICSR<FPE>: floating-point instructions may be issued (R166). -/
def State.fpe (s : State) : Bool := s.icsrBit 26

/-- Kernel mode in the Ibox: ICM<04:03> = 00 (R116). -/
def State.kernel (s : State) : Bool := s.ibox.icm == 0#2

/-- The PALcode-reserved opcodes may be executed (R680). -/
def State.palAllowed (s : State) : Bool := s.palmode || (s.icsrBit 27 && s.kernel)

/-! ## Integer and floating-point registers -/

/-- Whether register numbers 8 to 14 and 25 name the PAL shadow registers (R33). -/
def State.shadowOn (s : State) : Bool := s.palmode && s.icsrBit 30

/-- The shadow register that overlays a register number, if one does (R32, R33). -/
def shadowSlot (n : RegNum) : Option (Fin 8) :=
  if h : 8 ≤ n.toNat ∧ n.toNat ≤ 14 then some ⟨n.toNat - 8, by omega⟩
  else if n = 25#5 then some 7 else none

/-- The mapping of R33: evaluated with the PALmode flag of the executing instruction. -/
def State.intSlot (s : State) (n : RegNum) : IntSlot :=
  match (if s.shadowOn then shadowSlot n else none) with
  | some k => .shadow k
  | none => if h : n.toNat < 31 then .plain ⟨n.toNat, h⟩ else .zero

/-- `R[n]` (R22, R31, R33): register 31 reads as zero. -/
def State.readInt (s : State) (n : RegNum) : Word :=
  match s.intSlot n with
  | .shadow k => s.shadow[k]
  | .plain k => s.ints[k]
  | .zero => 0#64

/-- Write a value where a register number has led. -/
def State.writeSlot (s : State) (slot : IntSlot) (v : Word) : State :=
  match slot with
  | .shadow k => { s with shadow := s.shadow.set k v }
  | .plain k => { s with ints := s.ints.set k v }
  | .zero => s

/-- `R[n] <- v` (R22, R31, R33): a write to register 31 is discarded. -/
def State.writeInt (s : State) (n : RegNum) (v : Word) : State := s.writeSlot (s.intSlot n) v

/-- `F[n]` (R34): register 31 reads as zero. -/
def State.readFp (s : State) (n : RegNum) : Word :=
  if h : n.toNat < 31 then s.fregs[n.toNat] else 0#64

/-- `F[n] <- v` (R34): a write to register 31 is discarded. -/
def State.writeFp (s : State) (n : RegNum) (v : Word) : State :=
  if h : n.toNat < 31 then { s with fregs := s.fregs.set n.toNat v } else s

/-! ## The program counter -/

/-- The address of the next sequential instruction (R35). -/
def State.nextPc (s : State) : Word := s.pc + 4#64

/-- Go on with the next sequential instruction. -/
def State.advance (s : State) : State := { s with pc := s.nextPc }

/-- Continue at an address whose low two bits are ignored; the PALmode flag stays (R567). -/
def State.jumpTo (s : State) (target : Word) : State := { s with pc := target &&& ~~~3#64 }

/-- The PC as software sees it: bit 0 is the PALmode flag (R36, R112). -/
def State.pcView (s : State) (a : Word) : Word := (a &&& ~~~3#64) ||| ofBool64 s.palmode

/-! ## PALcode entry and return -/

/-- The twelve trap entry points of Table 6-1 (R701). -/
inductive Entry where
  | reset | iaccvio | interrupt | itbMiss | dtbMissSingle | dtbMissDouble | unalign | dfault | mchk | opcdec | arith | fen
  deriving DecidableEq, Repr

/-- The offset of an entry point from PAL_BASE (R701). -/
def Entry.offset : Entry → BitVec 14
  | .reset => 0x0000#14
  | .iaccvio => 0x0080#14
  | .interrupt => 0x0100#14
  | .itbMiss => 0x0180#14
  | .dtbMissSingle => 0x0200#14
  | .dtbMissDouble => 0x0280#14
  | .unalign => 0x0300#14
  | .dfault => 0x0380#14
  | .mchk => 0x0400#14
  | .opcdec => 0x0480#14
  | .arith => 0x0500#14
  | .fen => 0x0580#14

/-- An address in the PALcode image: PAL_BASE<63:14> and an offset (R700, R660). -/
def State.palAddress (s : State) (offset : BitVec 14) : Word := s.ibox.palBase ++ offset

/-- Write EXC_ADDR: bit 1 is not stored (R112, D7). -/
def State.setExcAddr (s : State) (v : Word) : State := { s with ibox := { s.ibox with excAddr := v &&& ~~~2#64 } }

/-- Enter PALcode at an offset: EXC_ADDR takes the return address with the PALmode flag of the interrupted context in
bit 0, the PC the address in the PALcode image, and PALmode is set (R36, R112, R700). Nothing else changes. -/
def State.enterPal (s : State) (offset : BitVec 14) (returnPc : Word) : State :=
  { s.setExcAddr (s.pcView returnPc) with pc := s.palAddress offset, palmode := true }

/-- TAKING AN EXCEPTION (R700): `returnPc` is the address R704 gives for its kind. The interrupt flag of RS and RC is
cleared (D18). Mode, IPL, lock flag, translation buffers and general registers stay as they are. -/
def State.trap (s : State) (e : Entry) (returnPc : Word) : State :=
  { s.enterPal e.offset returnPc with intrFlag := false, ended := .trap }

/-- A precise fault: EXC_ADDR is the address of the faulting instruction, which has no other effect (R703, R704). -/
def State.precise (s : State) (e : Entry) : State := { s.trap e s.pc with ended := .fault }

/-- MCHK before the instruction at the PC (R704, R718). -/
def State.mchkHere (s : State) : State := s.trap .mchk s.pc

/-- RETURNING FROM AN EXCEPTION (R683, R740): the PC and the PALmode flag come from EXC_ADDR; nothing else changes. -/
def State.returnFromPal (s : State) : State :=
  { s with pc := s.ibox.excAddr &&& ~~~3#64, palmode := s.ibox.excAddr.getLsbD 0 }

end Sys2Proof.Machine
end

