-- ==== Sys2Proof/Syntax.lean ====
section
/-! DEFINITION. The instruction set as data: one constructor for each row of spec/opcode_table.json
(30_encoding.md R482 to R501). A field an instruction ignores (the register fields of MB, the hint of a jump)
is kept, so that no bit of the encoding is dropped; the should-be-zero bits <15:13> of a register-form Operate
instruction are ignored by the hardware (R486) and are the only exception. -/

namespace Sys2Proof

/-- The second operand of an Operate instruction: Rb, or a literal 0 to 255 when bit 12 is set (R486). -/
inductive RegOrLit where
  | reg (rb : RegNum)
  | lit (n : BitVec 8)
  deriving DecidableEq, Repr

/-- The instructions of Table A-2 and Tables A-5 to A-8, one constructor for each row of the opcode table. -/
inductive Instr where
  -- Memory format (R482; 40_memory_instructions.md): effective address Rb + sext disp.
  | lda (ra rb : RegNum) (disp : BitVec 16)
  | ldah (ra rb : RegNum) (disp : BitVec 16)
  | ldl (ra rb : RegNum) (disp : BitVec 16)
  | ldq (ra rb : RegNum) (disp : BitVec 16)
  | ldqU (ra rb : RegNum) (disp : BitVec 16)
  | ldlL (ra rb : RegNum) (disp : BitVec 16)
  | ldqL (ra rb : RegNum) (disp : BitVec 16)
  | stl (ra rb : RegNum) (disp : BitVec 16)
  | stq (ra rb : RegNum) (disp : BitVec 16)
  | stqU (ra rb : RegNum) (disp : BitVec 16)
  | stlC (ra rb : RegNum) (disp : BitVec 16)
  | stqC (ra rb : RegNum) (disp : BitVec 16)
  | ldf (ra rb : RegNum) (disp : BitVec 16)
  | ldg (ra rb : RegNum) (disp : BitVec 16)
  | lds (ra rb : RegNum) (disp : BitVec 16)
  | ldt (ra rb : RegNum) (disp : BitVec 16)
  | stf (ra rb : RegNum) (disp : BitVec 16)
  | stg (ra rb : RegNum) (disp : BitVec 16)
  | sts (ra rb : RegNum) (disp : BitVec 16)
  | stt (ra rb : RegNum) (disp : BitVec 16)
  -- Branch format (R485; 41_control_instructions.md): target pc + 4 + 4 * sext disp.
  | br (ra : RegNum) (disp : BitVec 21)
  | bsr (ra : RegNum) (disp : BitVec 21)
  | beq (ra : RegNum) (disp : BitVec 21)
  | bne (ra : RegNum) (disp : BitVec 21)
  | blt (ra : RegNum) (disp : BitVec 21)
  | ble (ra : RegNum) (disp : BitVec 21)
  | bgt (ra : RegNum) (disp : BitVec 21)
  | bge (ra : RegNum) (disp : BitVec 21)
  | blbc (ra : RegNum) (disp : BitVec 21)
  | blbs (ra : RegNum) (disp : BitVec 21)
  | fbeq (ra : RegNum) (disp : BitVec 21)
  | fbne (ra : RegNum) (disp : BitVec 21)
  | fblt (ra : RegNum) (disp : BitVec 21)
  | fble (ra : RegNum) (disp : BitVec 21)
  | fbgt (ra : RegNum) (disp : BitVec 21)
  | fbge (ra : RegNum) (disp : BitVec 21)
  -- Jumps (R484): `hint` is a prediction hint without architectural effect.
  | jmp (ra rb : RegNum) (hint : BitVec 14)
  | jsr (ra rb : RegNum) (hint : BitVec 14)
  | ret (ra rb : RegNum) (hint : BitVec 14)
  | jsrCoroutine (ra rb : RegNum) (hint : BitVec 14)
  -- Operate format (R486; 42_integer_arithmetic.md, 43_logical_shift.md, 44_byte_manipulation.md).
  | addl (ra : RegNum) (rb : RegOrLit) (rc : RegNum)
  | addlV (ra : RegNum) (rb : RegOrLit) (rc : RegNum)
  | addq (ra : RegNum) (rb : RegOrLit) (rc : RegNum)
  | addqV (ra : RegNum) (rb : RegOrLit) (rc : RegNum)
  | s4addl (ra : RegNum) (rb : RegOrLit) (rc : RegNum)
  | s4addq (ra : RegNum) (rb : RegOrLit) (rc : RegNum)
  | s8addl (ra : RegNum) (rb : RegOrLit) (rc : RegNum)
  | s8addq (ra : RegNum) (rb : RegOrLit) (rc : RegNum)
  | subl (ra : RegNum) (rb : RegOrLit) (rc : RegNum)
  | sublV (ra : RegNum) (rb : RegOrLit) (rc : RegNum)
  | subq (ra : RegNum) (rb : RegOrLit) (rc : RegNum)
  | subqV (ra : RegNum) (rb : RegOrLit) (rc : RegNum)
  | s4subl (ra : RegNum) (rb : RegOrLit) (rc : RegNum)
  | s4subq (ra : RegNum) (rb : RegOrLit) (rc : RegNum)
  | s8subl (ra : RegNum) (rb : RegOrLit) (rc : RegNum)
  | s8subq (ra : RegNum) (rb : RegOrLit) (rc : RegNum)
  | cmpeq (ra : RegNum) (rb : RegOrLit) (rc : RegNum)
  | cmplt (ra : RegNum) (rb : RegOrLit) (rc : RegNum)
  | cmple (ra : RegNum) (rb : RegOrLit) (rc : RegNum)
  | cmpult (ra : RegNum) (rb : RegOrLit) (rc : RegNum)
  | cmpule (ra : RegNum) (rb : RegOrLit) (rc : RegNum)
  | mull (ra : RegNum) (rb : RegOrLit) (rc : RegNum)
  | mullV (ra : RegNum) (rb : RegOrLit) (rc : RegNum)
  | mulq (ra : RegNum) (rb : RegOrLit) (rc : RegNum)
  | mulqV (ra : RegNum) (rb : RegOrLit) (rc : RegNum)
  | umulh (ra : RegNum) (rb : RegOrLit) (rc : RegNum)
  | and (ra : RegNum) (rb : RegOrLit) (rc : RegNum)
  | bic (ra : RegNum) (rb : RegOrLit) (rc : RegNum)
  | bis (ra : RegNum) (rb : RegOrLit) (rc : RegNum)
  | ornot (ra : RegNum) (rb : RegOrLit) (rc : RegNum)
  | xor (ra : RegNum) (rb : RegOrLit) (rc : RegNum)
  | eqv (ra : RegNum) (rb : RegOrLit) (rc : RegNum)
  | cmoveq (ra : RegNum) (rb : RegOrLit) (rc : RegNum)
  | cmovne (ra : RegNum) (rb : RegOrLit) (rc : RegNum)
  | cmovlt (ra : RegNum) (rb : RegOrLit) (rc : RegNum)
  | cmovge (ra : RegNum) (rb : RegOrLit) (rc : RegNum)
  | cmovle (ra : RegNum) (rb : RegOrLit) (rc : RegNum)
  | cmovgt (ra : RegNum) (rb : RegOrLit) (rc : RegNum)
  | cmovlbs (ra : RegNum) (rb : RegOrLit) (rc : RegNum)
  | cmovlbc (ra : RegNum) (rb : RegOrLit) (rc : RegNum)
  | sll (ra : RegNum) (rb : RegOrLit) (rc : RegNum)
  | srl (ra : RegNum) (rb : RegOrLit) (rc : RegNum)
  | sra (ra : RegNum) (rb : RegOrLit) (rc : RegNum)
  | cmpbge (ra : RegNum) (rb : RegOrLit) (rc : RegNum)
  | extbl (ra : RegNum) (rb : RegOrLit) (rc : RegNum)
  | extwl (ra : RegNum) (rb : RegOrLit) (rc : RegNum)
  | extll (ra : RegNum) (rb : RegOrLit) (rc : RegNum)
  | extql (ra : RegNum) (rb : RegOrLit) (rc : RegNum)
  | extwh (ra : RegNum) (rb : RegOrLit) (rc : RegNum)
  | extlh (ra : RegNum) (rb : RegOrLit) (rc : RegNum)
  | extqh (ra : RegNum) (rb : RegOrLit) (rc : RegNum)
  | insbl (ra : RegNum) (rb : RegOrLit) (rc : RegNum)
  | inswl (ra : RegNum) (rb : RegOrLit) (rc : RegNum)
  | insll (ra : RegNum) (rb : RegOrLit) (rc : RegNum)
  | insql (ra : RegNum) (rb : RegOrLit) (rc : RegNum)
  | inswh (ra : RegNum) (rb : RegOrLit) (rc : RegNum)
  | inslh (ra : RegNum) (rb : RegOrLit) (rc : RegNum)
  | insqh (ra : RegNum) (rb : RegOrLit) (rc : RegNum)
  | mskbl (ra : RegNum) (rb : RegOrLit) (rc : RegNum)
  | mskwl (ra : RegNum) (rb : RegOrLit) (rc : RegNum)
  | mskll (ra : RegNum) (rb : RegOrLit) (rc : RegNum)
  | mskql (ra : RegNum) (rb : RegOrLit) (rc : RegNum)
  | mskwh (ra : RegNum) (rb : RegOrLit) (rc : RegNum)
  | msklh (ra : RegNum) (rb : RegOrLit) (rc : RegNum)
  | mskqh (ra : RegNum) (rb : RegOrLit) (rc : RegNum)
  | zap (ra : RegNum) (rb : RegOrLit) (rc : RegNum)
  | zapnot (ra : RegNum) (rb : RegOrLit) (rc : RegNum)
  -- PALcode format (R488, R687). The three functions the architecture requires are rows of the table and constructors of their own.
  | callPal (f : BitVec 26)
  | callPalHalt
  | callPalDraina
  | callPalImb
  -- Memory format with function code (R483, R497; 46_miscellaneous.md).
  | mb (ra rb : RegNum)
  | wmb (ra rb : RegNum)
  | excb (ra rb : RegNum)
  | trapb (ra rb : RegNum)
  | fetch (ra rb : RegNum)
  | fetchM (ra rb : RegNum)
  | rpcc (ra rb : RegNum)
  | rc (ra rb : RegNum)
  | rs (ra rb : RegNum)
  -- The five PALcode-reserved opcodes (R489 to R491; 47_palcode_instructions.md).
  | hwMfpr (ra rb : RegNum) (index : BitVec 16)
  | hwLd (ra rb : RegNum) (phys alt wrtck quad vpte lock : Bool) (disp : BitVec 10)
  | hwMtpr (ra rb : RegNum) (index : BitVec 16)
  | hwRei (ra rb : RegNum) (typ : BitVec 2) (mbz : BitVec 14)
  | hwSt (ra rb : RegNum) (phys alt : Bool) (mbz13 : Bool) (quad : Bool) (mbz11 cond : Bool) (disp : BitVec 10)
  -- The thirteen reserved opcodes (R688); `rest` is the word below the opcode.
  | opc01 (rest : BitVec 26)
  | opc02 (rest : BitVec 26)
  | opc03 (rest : BitVec 26)
  | opc04 (rest : BitVec 26)
  | opc05 (rest : BitVec 26)
  | opc06 (rest : BitVec 26)
  | opc07 (rest : BitVec 26)
  | opc0a (rest : BitVec 26)
  | opc0c (rest : BitVec 26)
  | opc0d (rest : BitVec 26)
  | opc0e (rest : BitVec 26)
  | opc14 (rest : BitVec 26)
  | opc1c (rest : BitVec 26)
  -- Floating-point operates (R487, R499 to R501; 45_floating_point.md).
  | cpys (fa fb fc : RegNum)
  | cpysn (fa fb fc : RegNum)
  | cpyse (fa fb fc : RegNum)
  | cvtlq (fa fb fc : RegNum)
  | cvtql (fa fb fc : RegNum)
  | cvtqlV (fa fb fc : RegNum)
  | cvtqlSv (fa fb fc : RegNum)
  | fcmoveq (fa fb fc : RegNum)
  | fcmovne (fa fb fc : RegNum)
  | fcmovlt (fa fb fc : RegNum)
  | fcmovge (fa fb fc : RegNum)
  | fcmovle (fa fb fc : RegNum)
  | fcmovgt (fa fb fc : RegNum)
  | mtFpcr (fa fb fc : RegNum)
  | mfFpcr (fa fb fc : RegNum)
  | adds (fa fb fc : RegNum)
  | addsC (fa fb fc : RegNum)
  | addsM (fa fb fc : RegNum)
  | addsD (fa fb fc : RegNum)
  | addsU (fa fb fc : RegNum)
  | addsUc (fa fb fc : RegNum)
  | addsUm (fa fb fc : RegNum)
  | addsUd (fa fb fc : RegNum)
  | addsSu (fa fb fc : RegNum)
  | addsSuc (fa fb fc : RegNum)
  | addsSum (fa fb fc : RegNum)
  | addsSud (fa fb fc : RegNum)
  | addsSui (fa fb fc : RegNum)
  | addsSuic (fa fb fc : RegNum)
  | addsSuim (fa fb fc : RegNum)
  | addsSuid (fa fb fc : RegNum)
  | addt (fa fb fc : RegNum)
  | addtC (fa fb fc : RegNum)
  | addtM (fa fb fc : RegNum)
  | addtD (fa fb fc : RegNum)
  | addtU (fa fb fc : RegNum)
  | addtUc (fa fb fc : RegNum)
  | addtUm (fa fb fc : RegNum)
  | addtUd (fa fb fc : RegNum)
  | addtSu (fa fb fc : RegNum)
  | addtSuc (fa fb fc : RegNum)
  | addtSum (fa fb fc : RegNum)
  | addtSud (fa fb fc : RegNum)
  | addtSui (fa fb fc : RegNum)
  | addtSuic (fa fb fc : RegNum)
  | addtSuim (fa fb fc : RegNum)
  | addtSuid (fa fb fc : RegNum)
  | subs (fa fb fc : RegNum)
  | subsC (fa fb fc : RegNum)
  | subsM (fa fb fc : RegNum)
  | subsD (fa fb fc : RegNum)
  | subsU (fa fb fc : RegNum)
  | subsUc (fa fb fc : RegNum)
  | subsUm (fa fb fc : RegNum)
  | subsUd (fa fb fc : RegNum)
  | subsSu (fa fb fc : RegNum)
  | subsSuc (fa fb fc : RegNum)
  | subsSum (fa fb fc : RegNum)
  | subsSud (fa fb fc : RegNum)
  | subsSui (fa fb fc : RegNum)
  | subsSuic (fa fb fc : RegNum)
  | subsSuim (fa fb fc : RegNum)
  | subsSuid (fa fb fc : RegNum)
  | subt (fa fb fc : RegNum)
  | subtC (fa fb fc : RegNum)
  | subtM (fa fb fc : RegNum)
  | subtD (fa fb fc : RegNum)
  | subtU (fa fb fc : RegNum)
  | subtUc (fa fb fc : RegNum)
  | subtUm (fa fb fc : RegNum)
  | subtUd (fa fb fc : RegNum)
  | subtSu (fa fb fc : RegNum)
  | subtSuc (fa fb fc : RegNum)
  | subtSum (fa fb fc : RegNum)
  | subtSud (fa fb fc : RegNum)
  | subtSui (fa fb fc : RegNum)
  | subtSuic (fa fb fc : RegNum)
  | subtSuim (fa fb fc : RegNum)
  | subtSuid (fa fb fc : RegNum)
  | muls (fa fb fc : RegNum)
  | mulsC (fa fb fc : RegNum)
  | mulsM (fa fb fc : RegNum)
  | mulsD (fa fb fc : RegNum)
  | mulsU (fa fb fc : RegNum)
  | mulsUc (fa fb fc : RegNum)
  | mulsUm (fa fb fc : RegNum)
  | mulsUd (fa fb fc : RegNum)
  | mulsSu (fa fb fc : RegNum)
  | mulsSuc (fa fb fc : RegNum)
  | mulsSum (fa fb fc : RegNum)
  | mulsSud (fa fb fc : RegNum)
  | mulsSui (fa fb fc : RegNum)
  | mulsSuic (fa fb fc : RegNum)
  | mulsSuim (fa fb fc : RegNum)
  | mulsSuid (fa fb fc : RegNum)
  | mult (fa fb fc : RegNum)
  | multC (fa fb fc : RegNum)
  | multM (fa fb fc : RegNum)
  | multD (fa fb fc : RegNum)
  | multU (fa fb fc : RegNum)
  | multUc (fa fb fc : RegNum)
  | multUm (fa fb fc : RegNum)
  | multUd (fa fb fc : RegNum)
  | multSu (fa fb fc : RegNum)
  | multSuc (fa fb fc : RegNum)
  | multSum (fa fb fc : RegNum)
  | multSud (fa fb fc : RegNum)
  | multSui (fa fb fc : RegNum)
  | multSuic (fa fb fc : RegNum)
  | multSuim (fa fb fc : RegNum)
  | multSuid (fa fb fc : RegNum)
  | divs (fa fb fc : RegNum)
  | divsC (fa fb fc : RegNum)
  | divsM (fa fb fc : RegNum)
  | divsD (fa fb fc : RegNum)
  | divsU (fa fb fc : RegNum)
  | divsUc (fa fb fc : RegNum)
  | divsUm (fa fb fc : RegNum)
  | divsUd (fa fb fc : RegNum)
  | divsSu (fa fb fc : RegNum)
  | divsSuc (fa fb fc : RegNum)
  | divsSum (fa fb fc : RegNum)
  | divsSud (fa fb fc : RegNum)
  | divsSui (fa fb fc : RegNum)
  | divsSuic (fa fb fc : RegNum)
  | divsSuim (fa fb fc : RegNum)
  | divsSuid (fa fb fc : RegNum)
  | divt (fa fb fc : RegNum)
  | divtC (fa fb fc : RegNum)
  | divtM (fa fb fc : RegNum)
  | divtD (fa fb fc : RegNum)
  | divtU (fa fb fc : RegNum)
  | divtUc (fa fb fc : RegNum)
  | divtUm (fa fb fc : RegNum)
  | divtUd (fa fb fc : RegNum)
  | divtSu (fa fb fc : RegNum)
  | divtSuc (fa fb fc : RegNum)
  | divtSum (fa fb fc : RegNum)
  | divtSud (fa fb fc : RegNum)
  | divtSui (fa fb fc : RegNum)
  | divtSuic (fa fb fc : RegNum)
  | divtSuim (fa fb fc : RegNum)
  | divtSuid (fa fb fc : RegNum)
  | cmpteq (fa fb fc : RegNum)
  | cmpteqSu (fa fb fc : RegNum)
  | cmptlt (fa fb fc : RegNum)
  | cmptltSu (fa fb fc : RegNum)
  | cmptle (fa fb fc : RegNum)
  | cmptleSu (fa fb fc : RegNum)
  | cmptun (fa fb fc : RegNum)
  | cmptunSu (fa fb fc : RegNum)
  | cvtqs (fa fb fc : RegNum)
  | cvtqsC (fa fb fc : RegNum)
  | cvtqsM (fa fb fc : RegNum)
  | cvtqsD (fa fb fc : RegNum)
  | cvtqsSui (fa fb fc : RegNum)
  | cvtqsSuic (fa fb fc : RegNum)
  | cvtqsSuim (fa fb fc : RegNum)
  | cvtqsSuid (fa fb fc : RegNum)
  | cvtqt (fa fb fc : RegNum)
  | cvtqtC (fa fb fc : RegNum)
  | cvtqtM (fa fb fc : RegNum)
  | cvtqtD (fa fb fc : RegNum)
  | cvtqtSui (fa fb fc : RegNum)
  | cvtqtSuic (fa fb fc : RegNum)
  | cvtqtSuim (fa fb fc : RegNum)
  | cvtqtSuid (fa fb fc : RegNum)
  | cvtts (fa fb fc : RegNum)
  | cvttsC (fa fb fc : RegNum)
  | cvttsM (fa fb fc : RegNum)
  | cvttsD (fa fb fc : RegNum)
  | cvttsU (fa fb fc : RegNum)
  | cvttsUc (fa fb fc : RegNum)
  | cvttsUm (fa fb fc : RegNum)
  | cvttsUd (fa fb fc : RegNum)
  | cvttsSu (fa fb fc : RegNum)
  | cvttsSuc (fa fb fc : RegNum)
  | cvttsSum (fa fb fc : RegNum)
  | cvttsSud (fa fb fc : RegNum)
  | cvttsSui (fa fb fc : RegNum)
  | cvttsSuic (fa fb fc : RegNum)
  | cvttsSuim (fa fb fc : RegNum)
  | cvttsSuid (fa fb fc : RegNum)
  | cvtst (fa fb fc : RegNum)
  | cvtstS (fa fb fc : RegNum)
  | cvttq (fa fb fc : RegNum)
  | cvttqC (fa fb fc : RegNum)
  | cvttqV (fa fb fc : RegNum)
  | cvttqVc (fa fb fc : RegNum)
  | cvttqSv (fa fb fc : RegNum)
  | cvttqSvc (fa fb fc : RegNum)
  | cvttqSvi (fa fb fc : RegNum)
  | cvttqSvic (fa fb fc : RegNum)
  | cvttqD (fa fb fc : RegNum)
  | cvttqVd (fa fb fc : RegNum)
  | cvttqSvd (fa fb fc : RegNum)
  | cvttqSvid (fa fb fc : RegNum)
  | cvttqM (fa fb fc : RegNum)
  | cvttqVm (fa fb fc : RegNum)
  | cvttqSvm (fa fb fc : RegNum)
  | cvttqSvim (fa fb fc : RegNum)
  | addf (fa fb fc : RegNum)
  | addfC (fa fb fc : RegNum)
  | addfU (fa fb fc : RegNum)
  | addfUc (fa fb fc : RegNum)
  | addfS (fa fb fc : RegNum)
  | addfSc (fa fb fc : RegNum)
  | addfSu (fa fb fc : RegNum)
  | addfSuc (fa fb fc : RegNum)
  | addg (fa fb fc : RegNum)
  | addgC (fa fb fc : RegNum)
  | addgU (fa fb fc : RegNum)
  | addgUc (fa fb fc : RegNum)
  | addgS (fa fb fc : RegNum)
  | addgSc (fa fb fc : RegNum)
  | addgSu (fa fb fc : RegNum)
  | addgSuc (fa fb fc : RegNum)
  | subf (fa fb fc : RegNum)
  | subfC (fa fb fc : RegNum)
  | subfU (fa fb fc : RegNum)
  | subfUc (fa fb fc : RegNum)
  | subfS (fa fb fc : RegNum)
  | subfSc (fa fb fc : RegNum)
  | subfSu (fa fb fc : RegNum)
  | subfSuc (fa fb fc : RegNum)
  | subg (fa fb fc : RegNum)
  | subgC (fa fb fc : RegNum)
  | subgU (fa fb fc : RegNum)
  | subgUc (fa fb fc : RegNum)
  | subgS (fa fb fc : RegNum)
  | subgSc (fa fb fc : RegNum)
  | subgSu (fa fb fc : RegNum)
  | subgSuc (fa fb fc : RegNum)
  | mulf (fa fb fc : RegNum)
  | mulfC (fa fb fc : RegNum)
  | mulfU (fa fb fc : RegNum)
  | mulfUc (fa fb fc : RegNum)
  | mulfS (fa fb fc : RegNum)
  | mulfSc (fa fb fc : RegNum)
  | mulfSu (fa fb fc : RegNum)
  | mulfSuc (fa fb fc : RegNum)
  | mulg (fa fb fc : RegNum)
  | mulgC (fa fb fc : RegNum)
  | mulgU (fa fb fc : RegNum)
  | mulgUc (fa fb fc : RegNum)
  | mulgS (fa fb fc : RegNum)
  | mulgSc (fa fb fc : RegNum)
  | mulgSu (fa fb fc : RegNum)
  | mulgSuc (fa fb fc : RegNum)
  | divf (fa fb fc : RegNum)
  | divfC (fa fb fc : RegNum)
  | divfU (fa fb fc : RegNum)
  | divfUc (fa fb fc : RegNum)
  | divfS (fa fb fc : RegNum)
  | divfSc (fa fb fc : RegNum)
  | divfSu (fa fb fc : RegNum)
  | divfSuc (fa fb fc : RegNum)
  | divg (fa fb fc : RegNum)
  | divgC (fa fb fc : RegNum)
  | divgU (fa fb fc : RegNum)
  | divgUc (fa fb fc : RegNum)
  | divgS (fa fb fc : RegNum)
  | divgSc (fa fb fc : RegNum)
  | divgSu (fa fb fc : RegNum)
  | divgSuc (fa fb fc : RegNum)
  | cmpgeq (fa fb fc : RegNum)
  | cmpgeqS (fa fb fc : RegNum)
  | cmpglt (fa fb fc : RegNum)
  | cmpgltS (fa fb fc : RegNum)
  | cmpgle (fa fb fc : RegNum)
  | cmpgleS (fa fb fc : RegNum)
  | cvtgf (fa fb fc : RegNum)
  | cvtgfC (fa fb fc : RegNum)
  | cvtgfU (fa fb fc : RegNum)
  | cvtgfUc (fa fb fc : RegNum)
  | cvtgfS (fa fb fc : RegNum)
  | cvtgfSc (fa fb fc : RegNum)
  | cvtgfSu (fa fb fc : RegNum)
  | cvtgfSuc (fa fb fc : RegNum)
  | cvtgd (fa fb fc : RegNum)
  | cvtgdC (fa fb fc : RegNum)
  | cvtgdU (fa fb fc : RegNum)
  | cvtgdUc (fa fb fc : RegNum)
  | cvtgdS (fa fb fc : RegNum)
  | cvtgdSc (fa fb fc : RegNum)
  | cvtgdSu (fa fb fc : RegNum)
  | cvtgdSuc (fa fb fc : RegNum)
  | cvtqf (fa fb fc : RegNum)
  | cvtqfC (fa fb fc : RegNum)
  | cvtqg (fa fb fc : RegNum)
  | cvtqgC (fa fb fc : RegNum)
  | cvtdg (fa fb fc : RegNum)
  | cvtdgC (fa fb fc : RegNum)
  | cvtdgU (fa fb fc : RegNum)
  | cvtdgUc (fa fb fc : RegNum)
  | cvtdgS (fa fb fc : RegNum)
  | cvtdgSc (fa fb fc : RegNum)
  | cvtdgSu (fa fb fc : RegNum)
  | cvtdgSuc (fa fb fc : RegNum)
  | cvtgq (fa fb fc : RegNum)
  | cvtgqC (fa fb fc : RegNum)
  | cvtgqV (fa fb fc : RegNum)
  | cvtgqVc (fa fb fc : RegNum)
  | cvtgqS (fa fb fc : RegNum)
  | cvtgqSc (fa fb fc : RegNum)
  | cvtgqSv (fa fb fc : RegNum)
  | cvtgqSvc (fa fb fc : RegNum)
  deriving DecidableEq, Repr

end Sys2Proof
end

