-- ==== Sys2Proof/Machine/Operands.lean ====
section
/-! DEFINITION. Every operand form: Operate operands (R486), effective addresses (R520, R522, R681), branch targets
(R546), the shift and byte positions of 43_logical_shift.md and 44_byte_manipulation.md, and the register and memory forms
of floating-point data (R533 to R539). -/

namespace Sys2Proof.Machine

/-- `Rbv` of an Operate instruction: a register, or a literal zero-extended to 64 bits (R486). -/
def State.operand (s : State) : RegOrLit → Word
  | .reg rb => s.readInt rb
  | .lit n => n.setWidth 64

/-- The effective address of a Memory-format instruction, `Rbv + sext(disp)` (R520). -/
def State.effAddr (s : State) (rb : RegNum) (disp : BitVec 16) : Word := s.readInt rb + disp.signExtend 64

/-- The address of HW_LD and HW_ST, `Rbv + sext(DISP<9:0>)` (R681, R682). -/
def State.hwAddr (s : State) (rb : RegNum) (disp : BitVec 10) : Word := s.readInt rb + disp.signExtend 64

/-- The target of a Branch-format instruction, `(pc + 4) + 4 * sext(disp)` (R546). -/
def State.branchTarget (s : State) (disp : BitVec 21) : Word := s.nextPc + (disp.signExtend 64 <<< 2)

/-- The shift count of SLL, SRL and SRA: Rbv<5:0> (R615 to R617). -/
def shiftCount (b : Word) : Nat := (b.setWidth 6).toNat

/-- MCSR<E_BIG_ENDIAN> (R214). -/
def State.ebigEndian (s : State) : Bool := s.mbox.mcsr.getLsbD 4

/-- MCSR<M_BIG_ENDIAN> (R214). -/
def State.mbigEndian (s : State) : Bool := s.mbox.mcsr.getLsbD 0

/-- The byte offset Rbv<2:0> of the byte instructions, one's-complemented in big-endian mode (R214, R630). -/
def State.byteOffset (s : State) (b : Word) : Nat :=
  let o := b.setWidth 3
  (if s.ebigEndian then ~~~o else o).toNat

/-! ## Register and memory forms of floating-point data (R533 to R539) -/

/-- MAP_F: an 8-bit exponent expanded to 11 bits (R533). -/
def mapF (e : BitVec 8) : BitVec 11 :=
  if e = 0#8 then 0#11
  else if e.msb then 1#1 ++ (0#3 ++ e.setWidth 7)
  else 0#1 ++ (7#3 ++ e.setWidth 7)

/-- MAP_S: the same, with the exponent of infinities and NaNs (R535). -/
def mapS (e : BitVec 8) : BitVec 11 := if e = 0xFF#8 then 0x7FF#11 else mapF e

/-- LDF: the register form of a memory longword (R533). -/
def fromMemF (m : Word) : Word :=
  field m 15 1 ++ (mapF (field m 7 8) ++ (field m 0 7 ++ (field m 16 16 ++ 0#29)))

/-- LDG and STG: the four 16-bit words reversed (R534, R538). -/
def swapWords (m : Word) : Word := field m 0 16 ++ (field m 16 16 ++ (field m 32 16 ++ field m 48 16))

/-- LDS: the register form of a memory longword (R535). -/
def fromMemS (m : Word) : Word := field m 31 1 ++ (mapS (field m 23 8) ++ (field m 0 23 ++ 0#29))

/-- STF: the memory longword of a register (R537). -/
def toMemF (v : Word) : Word :=
  (field v 29 16 ++ (field v 63 1 ++ (field v 62 1 ++ (field v 52 7 ++ field v 45 7)))).setWidth 64

/-- STS: the memory longword of a register (R539). -/
def toMemS (v : Word) : Word := (field v 62 2 ++ field v 29 30).setWidth 64

/-! ## The destination of a load (R56) -/

/-- The register form of a datum in memory, by its format (R533 to R536). -/
def FpForm.load : FpForm → Word → Word
  | .f => fromMemF
  | .g => swapWords
  | .s => fromMemS
  | .t => id

/-- The memory datum of a register, by its format (R537 to R540). -/
def FpForm.store : FpForm → Word → Word
  | .f => toMemF
  | .g => swapWords
  | .s => toMemS
  | .t => id

/-- Deliver the datum of a load, zero-extended, to its register: a longword is sign-extended in an integer register
(R523). -/
def State.deliver (s : State) (t : LoadTarget) (v : Word) : State :=
  match t with
  | .int slot long => s.writeSlot slot (if long then sextLong v else v)
  | .fp n form => s.writeFp n (form.load v)

end Sys2Proof.Machine
end

