-- ==== Sys2Proof/Machine/Flags.lean ====
section
/-! DEFINITION. Every flag computation: the six arithmetic conditions, the sticky bits of the FPCR (R39), the trap summary
of EXC_SUM and EXC_MASK (R113, R114), and the end of an instruction that may have trapped (R597, R816). -/

namespace Sys2Proof.Machine

/-- A set of arithmetic conditions, in the order of FPCR<57:52> and of EXC_SUM<16:11> (R816). -/
abbrev Conds := BitVec 6

/-- No condition. -/
def Conds.empty : Conds := 0#6
/-- Invalid operation. -/
def Conds.inv : Conds := 1#6
/-- Division by zero. -/
def Conds.dze : Conds := 2#6
/-- Floating overflow. -/
def Conds.ovf : Conds := 4#6
/-- Floating underflow. -/
def Conds.unf : Conds := 8#6
/-- Inexact result. -/
def Conds.ine : Conds := 16#6
/-- Integer overflow. -/
def Conds.iov : Conds := 32#6

/-- The conditions `c` if `b` holds, otherwise none. -/
def Conds.when (b : Bool) (c : Conds) : Conds := if b then c else 0#6

/-! ## FPCR -/

/-- FPCR<INED>, bit 62 (R38). -/
def State.fpcrIned (s : State) : Bool := s.fpcr.getLsbD 10
/-- FPCR<UNFD>, bit 61 (R38). -/
def State.fpcrUnfd (s : State) : Bool := s.fpcr.getLsbD 9
/-- FPCR<UNDZ>, bit 60 (R38). -/
def State.fpcrUndz (s : State) : Bool := s.fpcr.getLsbD 8
/-- FPCR<DYN>, bits <59:58> (R38). -/
def State.fpcrDyn (s : State) : BitVec 2 := s.fpcr.extractLsb' 6 2

/-- The FPCR as MF_FPCR reads it: bit 63 is the OR of <57:52>, <51:0> are zero (R39, D3). -/
def State.fpcrView (s : State) : Word :=
  placeBit (s.fpcr.setWidth 6 != 0#6) 63 ||| place s.fpcr 52

/-- Set sticky status bits of the FPCR (R39). -/
def State.recordFpcr (s : State) (c : Conds) : State := { s with fpcr := s.fpcr ||| c.setWidth 11 }

/-! ## EXC_SUM and EXC_MASK -/

/-- Accumulate conditions in EXC_SUM<16:11> and the destination in EXC_MASK (R113, R114). `dest` is n for Rn, 32 + n for
Fn. -/
def State.recordSum (s : State) (c : Conds) (dest : Nat) : State :=
  { s with ibox := { s.ibox with
      excSum := s.ibox.excSum ||| (c ++ 0#1)
      excMask := s.ibox.excMask ||| (1#64 <<< dest) } }

/-- EXC_SUM<SWC> after the trap of a floating-point instruction with or without /S (R113). -/
def State.recordSwc (s : State) (soft : Bool) : State :=
  if soft then
    if s.ibox.swcBlocked then s else { s with ibox := { s.ibox with excSum := s.ibox.excSum ||| 1#7 } }
  else { s with ibox := { s.ibox with excSum := s.ibox.excSum &&& ~~~1#7, swcBlocked := true } }

/-- Deliver ARITH at once: EXC_ADDR is the address after the trapping instruction (R704, R720; notes/assumptions/6.md). -/
def State.arith (s : State) : State := s.trap .arith s.nextPc

/-! ## The end of an instruction -/

/-- Write an integer result; with `ovf`, report integer overflow: EXC_SUM<IOV>, the mask bit of Rc, ARITH (R597). The FPCR
and SWC stay (D20, R113). -/
def State.finishInt (s : State) (rc : RegNum) (v : Word) (ovf : Bool) : State :=
  if ovf then ((s.writeInt rc v).recordSum Conds.iov rc.toNat).arith else (s.writeInt rc v).advance

/-- What a floating-point operation produces: its result (none: UNPREDICTABLE), the FPCR bits it sets and the conditions
it signals to the Ibox (R816). -/
structure FpOutcome where
  value : Option Word
  fpcr : Conds
  sum : Conds
  deriving DecidableEq, Repr

/-- A result with no condition. -/
def FpOutcome.ok (v : Word) : FpOutcome := ⟨some v, 0#6, 0#6⟩

/-- A condition that leaves the destination UNPREDICTABLE and always traps (R810 to R812). -/
def FpOutcome.bad (c : Conds) : FpOutcome := ⟨none, c, c⟩

/-- Write a floating-point result; an UNPREDICTABLE one is a free value (R810). -/
def State.writeFpResult (s : State) (fc : RegNum) : Option Word → State
  | some v => s.writeFp fc v
  | none => (s.writeFp fc s.freeNow).drawn

/-- Complete a floating-point operation: the result, the FPCR status bits, and ARITH if anything is signalled
(R810 to R816). -/
def State.finishFp (s : State) (fc : RegNum) (soft : Bool) (o : FpOutcome) : State :=
  let s1 := (s.writeFpResult fc o.value).recordFpcr o.fpcr
  if o.sum = 0#6 then s1.advance else ((s1.recordSum o.sum (32 + fc.toNat)).recordSwc soft).arith

/-- The floating-point enable check: with ICSR<FPE> clear the instruction takes FEN and has no other effect (R805). -/
def State.fpGate (s : State) (run : State → Res State) : Res State :=
  if s.fpe then run s else .next (s.precise .fen)

end Sys2Proof.Machine
end

