-- ==== Sys2Proof/Machine/FpFormat.lean ====
section
/-! DEFINITION. Floating-point formats (R800 to R804) and exact arithmetic with one rounding at the end (R807, R817, R818).
An exact value is a sign, a quotient of two natural numbers and a power of two; nothing is lost before `round`. -/

namespace Sys2Proof.Machine

/-! ## Exact values -/

/-- `(-1)^neg * (num / den) * 2^exp`; `den` is never zero. -/
structure Exact where
  neg : Bool
  num : Nat
  den : Nat
  exp : Int
  deriving DecidableEq, Repr

/-- The exact value of an integer. -/
def Exact.ofInt (n : Int) : Exact := ⟨decide (n < 0), n.natAbs, 1, 0⟩

/-- The signed numerator over `2^e`, for `e` at most the exponent of a value whose denominator is 1. -/
def Exact.signedAt (x : Exact) (e : Int) : Int :=
  let m : Int := ((x.num * 2 ^ (x.exp - e).toNat : Nat) : Int)
  if x.neg then -m else m

/-- The exact sum of two values with denominator 1. -/
def Exact.add (x y : Exact) : Exact :=
  let e := min x.exp y.exp
  let n := x.signedAt e + y.signedAt e
  ⟨decide (n < 0), n.natAbs, 1, e⟩

/-- The exact negative. -/
def Exact.negate (x : Exact) : Exact := { x with neg := !x.neg }

/-- The exact product. -/
def Exact.mul (x y : Exact) : Exact := ⟨x.neg != y.neg, x.num * y.num, x.den * y.den, x.exp + y.exp⟩

/-- The exact quotient by a nonzero value. -/
def Exact.div (x y : Exact) : Exact := ⟨x.neg != y.neg, x.num * y.den, x.den * y.num, x.exp - y.exp⟩

/-- Strictly less, for values with denominator 1; the two zeros are equal. -/
def Exact.less (x y : Exact) : Bool :=
  let e := min x.exp y.exp
  decide (x.signedAt e < y.signedAt e)

/-- Numerator and denominator of `|x| / 2^k`. -/
def Exact.scaled (x : Exact) (k : Int) : Nat × Nat :=
  if k ≤ x.exp then (x.num * 2 ^ (x.exp - k).toNat, x.den) else (x.num, x.den * 2 ^ (k - x.exp).toNat)

/-- The exponent of the leading one of a nonzero value: `2^l ≤ |x| < 2^(l+1)`. -/
def Exact.leading (x : Exact) : Int :=
  let d : Int := (x.num.log2 : Int) - (x.den.log2 : Int)
  let p := Exact.scaled ⟨false, x.num, x.den, 0⟩ d
  (if p.2 ≤ p.1 then d else d - 1) + x.exp

/-! ## Rounding (R807) -/

/-- The rounding modes; `vax` is to nearest with ties away from zero. -/
inductive Rounding where
  | chopped | minus | nearest | plus | vax
  deriving DecidableEq, Repr

/-- The rounding qualifiers of the function codes. -/
inductive RoundQual where
  | normal | chopped | minus | dynamic
  deriving DecidableEq, Repr

/-- The mode a qualifier selects; /D takes it from FPCR<DYN> (R38, R807). -/
def RoundQual.mode (q : RoundQual) (dyn : BitVec 2) : Rounding :=
  match q with
  | .normal => .nearest
  | .chopped => .chopped
  | .minus => .minus
  | .dynamic => if dyn = 0#2 then .chopped else if dyn = 1#2 then .minus else if dyn = 2#2 then .nearest else .plus

/-- `num / den` of a value with the given sign, rounded to a natural number. -/
def roundQuotient (mode : Rounding) (neg : Bool) (num den : Nat) : Nat :=
  let q := num / den
  let r := num % den
  let up : Bool := match mode with
    | .chopped => false
    | .minus => neg && r != 0
    | .plus => !neg && r != 0
    | .nearest => decide (den < 2 * r) || (decide (2 * r = den) && q % 2 == 1)
    | .vax => decide (den ≤ 2 * r)
  if up then q + 1 else q

/-- A value rounded to `prec` significant bits with unbounded exponent: `2^(prec-1) ≤ sig < 2^prec`, and the magnitude is
`sig * 2^(lead-prec+1)`. -/
structure Rounded where
  sig : Nat
  lead : Int
  inexact : Bool
  deriving DecidableEq, Repr

/-- Round a nonzero value to `prec` significant bits (R817 step 7, R818 step 5). -/
def Exact.round (x : Exact) (mode : Rounding) (prec : Nat) : Rounded :=
  let lead := x.leading
  let p := x.scaled (lead - ((prec : Int) - 1))
  let m := roundQuotient mode x.neg p.1 p.2
  let inexact := p.1 % p.2 != 0
  if m = 2 ^ prec then ⟨2 ^ (prec - 1), lead + 1, inexact⟩ else ⟨m, lead, inexact⟩

/-- Round to an integer (R865, R883). -/
def Exact.roundInt (x : Exact) (mode : Rounding) : Int :=
  let p := x.scaled 0
  let m : Int := (roundQuotient mode x.neg p.1 p.2 : Nat)
  if x.neg then -m else m

/-- The value is an integer. -/
def Exact.isInt (x : Exact) : Bool := (x.scaled 0).1 % (x.scaled 0).2 == 0

/-! ## Formats (R801 to R803) -/

/-- A floating format in its register form: significant bits, the register exponent of a value whose leading one is worth
1, the least and greatest register exponents of finite nonzero values, and the width of the fraction field. -/
structure Format where
  prec : Nat
  bias : Int
  emin : Int
  emax : Int
  fracBits : Nat
  deriving DecidableEq, Repr

/-- S_floating in register form (R802). -/
def Format.s : Format := ⟨24, 1023, 897, 1150, 52⟩
/-- T_floating (R801). -/
def Format.t : Format := ⟨53, 1023, 1, 2046, 52⟩
/-- F_floating in register form (R803). -/
def Format.f : Format := ⟨24, 1025, 897, 1151, 52⟩
/-- G_floating (R803). -/
def Format.g : Format := ⟨53, 1025, 1, 2047, 52⟩
/-- D_floating (R803). -/
def Format.d : Format := ⟨56, 129, 1, 255, 55⟩

/-- The register form of a value with `prec` significant bits and register exponent `e`. -/
def Format.pack (fmt : Format) (neg : Bool) (e : Int) (sig : Nat) : Word :=
  let frac := (sig - 2 ^ (fmt.prec - 1)) * 2 ^ (fmt.fracBits + 1 - fmt.prec)
  placeBit neg 63 ||| BitVec.ofNat 64 (e.toNat * 2 ^ fmt.fracBits + frac)

/-! ## Operands -/

/-- The 11-bit exponent field <62:52>. -/
def fpExp (w : Word) : Nat := (field w 52 11).toNat
/-- The fraction field <51:0>. -/
def fpFrac (w : Word) : Nat := (field w 0 52).toNat
/-- The sign, bit 63. -/
def fpSign (w : Word) : Bool := w.getLsbD 63
/-- Bits <62:0> are zero: a zero of either sign. -/
def fpZero (w : Word) : Bool := field w 0 63 == 0#63

/-- An IEEE operand that is not a NaN, an infinity or a denormal (R801, R810). -/
def ieeeValid (w : Word) : Bool := fpZero w || (fpExp w != 0 && fpExp w != 2047)

/-- A NaN (R801). -/
def ieeeNan (w : Word) : Bool := fpExp w == 2047 && fpFrac w != 0

/-- A finite operand is in S register form (R802). -/
def sForm (w : Word) : Bool :=
  fpZero w || (decide (897 ≤ fpExp w) && decide (fpExp w ≤ 1150) && field w 0 29 == 0#29)

/-- The value of a valid IEEE operand (R801). -/
def ieeeValue (w : Word) : Exact :=
  if fpZero w then ⟨fpSign w, 0, 1, 0⟩ else ⟨fpSign w, 2 ^ 52 + fpFrac w, 1, (fpExp w : Int) - 1075⟩

/-- A G_floating or F_floating operand that is neither reserved nor a dirty zero (R803, R810). -/
def vaxValid (w : Word) : Bool := fpExp w != 0 || w == 0#64

/-- A valid operand is in F register form (R803). -/
def fForm (w : Word) : Bool :=
  w == 0#64 || (decide (897 ≤ fpExp w) && decide (fpExp w ≤ 1151) && field w 0 29 == 0#29)

/-- The value of a valid G_floating or F_floating operand (R803). -/
def vaxValue (w : Word) : Exact :=
  if w = 0#64 then ⟨false, 0, 1, 0⟩ else ⟨fpSign w, 2 ^ 52 + fpFrac w, 1, (fpExp w : Int) - 1077⟩

/-- The exponent field of a D_floating operand, <62:55> (R803). -/
def dExp (w : Word) : Nat := (field w 55 8).toNat

/-- A D_floating operand that is neither reserved nor a dirty zero (R886). -/
def dValid (w : Word) : Bool := dExp w != 0 || w == 0#64

/-- The value of a valid D_floating operand (R803). -/
def dValue (w : Word) : Exact :=
  if w = 0#64 then ⟨false, 0, 1, 0⟩ else ⟨fpSign w, 2 ^ 55 + (field w 0 55).toNat, 1, (dExp w : Int) - 184⟩

end Sys2Proof.Machine
end

