-- ==== Sys2Proof/Machine/FpArith.lean ====
section
/-! DEFINITION. What a floating-point operation produces: IEEE arithmetic (R817), VAX arithmetic (R818), compares and
conversions (R858 to R886). -/

namespace Sys2Proof.Machine

/-- The qualifiers of a function code (R807, R808): rounding, /U or /V, /S, /I. -/
structure Quals where
  round : RoundQual
  trap : Bool
  soft : Bool
  inexact : Bool
  deriving DecidableEq, Repr

/-- The bits of the FPCR an IEEE operation looks at (R38). -/
structure FpControl where
  dyn : BitVec 2
  ined : Bool
  unfd : Bool
  undz : Bool
  deriving DecidableEq, Repr

/-- The FPCR's control bits. -/
def State.fpControl (s : State) : FpControl := ⟨s.fpcrDyn, s.fpcrIned, s.fpcrUnfd, s.fpcrUndz⟩

/-- The four operations with two operands. -/
inductive FpBinary where
  | add | sub | mul | div
  deriving DecidableEq, Repr

/-- The exact result of an operation; a division is by a nonzero value (R817 step 5). -/
def FpBinary.exact (op : FpBinary) (x y : Exact) : Exact :=
  match op with
  | .add => x.add y
  | .sub => x.add y.negate
  | .mul => x.mul y
  | .div => x.div y

/-! ## IEEE (opcode 16) -/

/-- The inexact trap is enabled: /I and not INED (R814). -/
def Quals.ineTrap (q : Quals) (c : FpControl) : Bool := q.inexact && !c.ined

/-- The underflow trap is enabled: /U, and not UNFD with UNDZ and /S (R813). -/
def Quals.unfTrap (q : Quals) (c : FpControl) : Bool := q.trap && !(c.unfd && c.undz && q.soft)

/-- Round a nonzero exact result into an IEEE format (R817 steps 7 to 11, R812 to R814). -/
def ieeeResult (fmt : Format) (q : Quals) (c : FpControl) (x : Exact) : FpOutcome :=
  let r := x.round (q.round.mode c.dyn) fmt.prec
  let e := r.lead + fmt.bias
  let ine := Conds.when (q.ineTrap c) Conds.ine
  if fmt.emax < e then ⟨none, Conds.ovf ||| Conds.ine, Conds.ovf ||| ine⟩
  else if e < fmt.emin then ⟨some 0#64, Conds.unf ||| Conds.ine, Conds.when (q.unfTrap c) Conds.unf ||| ine⟩
  else ⟨some (fmt.pack x.neg e r.sig), Conds.when r.inexact Conds.ine, Conds.when r.inexact ine⟩

/-- The sign of an exact zero result (R817 step 6). -/
def ieeeZeroSign (op : FpBinary) (mode : Rounding) (a b : Word) : Bool :=
  let sb := if op = .sub then !fpSign b else fpSign b
  match op with
  | .mul | .div => fpSign a != fpSign b
  | .add | .sub => if fpZero a && fpZero b && (fpSign a == sb) then fpSign a else mode == .minus

/-- ADDx, SUBx, MULx, DIVx of IEEE type (R817). `single` is the S type, whose operands must be in S form (R802,
notes/assumptions/26.md). -/
def ieeeBinary (op : FpBinary) (single : Bool) (q : Quals) (c : FpControl) (a b : Word) : FpOutcome :=
  let fmt := if single then Format.s else Format.t
  if !(ieeeValid a && ieeeValid b) then .bad Conds.inv
  else if op = .div ∧ fpZero b then (if fpZero a then .bad Conds.inv else .bad Conds.dze)
  else if single && !(sForm a && sForm b) then ⟨none, 0#6, 0#6⟩
  else
    let x := op.exact (ieeeValue a) (ieeeValue b)
    if x.num = 0 then .ok (placeBit (ieeeZeroSign op (q.round.mode c.dyn) a b) 63) else ieeeResult fmt q c x

/-- The four IEEE compares. -/
inductive FpCompare where
  | eq | lt | le | un
  deriving DecidableEq, Repr

/-- A comparison of two exact values; `un` is false for finite operands (R861). -/
def FpCompare.holds (op : FpCompare) (x y : Exact) : Bool :=
  match op with
  | .eq => !x.less y && !y.less x
  | .lt => x.less y
  | .le => !y.less x
  | .un => false

/-- 2.0 in T form, or 0.5 in G form: what a true comparison returns (R858, R878). -/
def fpTrue : Word := 0x4000000000000000#64

/-- CMPTEQ, CMPTLT, CMPTLE, CMPTUN (R858 to R861). -/
def ieeeCompare (op : FpCompare) (a b : Word) : FpOutcome :=
  if !(ieeeValid a && ieeeValid b) then .bad Conds.inv
  else .ok (if op.holds (ieeeValue a) (ieeeValue b) then fpTrue else 0#64)

/-- CVTQS and CVTQT (R862, R863). DESIGN CHOICE (notes/assumptions/26.md): the integer 0 gives +0 in every rounding mode,
although R817 step 6 read literally gives -0 in the minus-infinity mode. -/
def ieeeFromInt (fmt : Format) (q : Quals) (c : FpControl) (b : Word) : FpOutcome :=
  if b = 0#64 then .ok 0#64 else ieeeResult fmt q c (.ofInt b.toInt)

/-- CVTTS (R864). DESIGN CHOICE (notes/assumptions/26.md): a zero keeps its sign in every rounding mode, although R817 step
6 read literally gives +0, or -0 in the minus-infinity mode. -/
def ieeeNarrow (q : Quals) (c : FpControl) (b : Word) : FpOutcome :=
  if !ieeeValid b then .bad Conds.inv
  else if fpZero b then .ok (placeBit (fpSign b) 63)
  else ieeeResult .s q c (ieeeValue b)

/-- Outside -2^63 to 2^63 - 1 (R815). -/
def outsideQuad (n : Int) : Bool := decide (n < -(2 ^ 63)) || decide (2 ^ 63 ≤ n)

/-- CVTTQ (R865, R814, R815). -/
def ieeeToInt (q : Quals) (c : FpControl) (b : Word) : FpOutcome :=
  if !ieeeValid b then .bad Conds.inv
  else
    let x := ieeeValue b
    let n := x.roundInt (q.round.mode c.dyn)
    let tooBig := outsideQuad n
    let inexact := tooBig || !x.isInt
    ⟨some (BitVec.ofInt 64 n), Conds.when tooBig Conds.iov ||| Conds.when inexact Conds.ine,
      Conds.when (tooBig && q.trap) Conds.iov ||| Conds.when (inexact && q.ineTrap c) Conds.ine⟩

/-- CVTST: exact; an operand that is not in S form is an UNPREDICTABLE result (R866, R802). -/
def ieeeWiden (b : Word) : FpOutcome :=
  if !ieeeValid b then .bad Conds.inv else if sForm b then .ok b else ⟨none, 0#6, 0#6⟩

/-! ## VAX (opcode 15) -/

/-- VAX rounding, or chopped under /C (R807). -/
def Quals.vaxMode (q : Quals) : Rounding :=
  match q.round with
  | .chopped => .chopped
  | _ => .vax

/-- Round a nonzero exact result into a VAX format (R818 steps 5 to 8). The underflow trap is suppressed as for IEEE
(R813, R816). -/
def vaxResult (fmt : Format) (q : Quals) (c : FpControl) (x : Exact) : FpOutcome :=
  let r := x.round q.vaxMode fmt.prec
  let e := r.lead + fmt.bias
  if fmt.emax < e then .bad Conds.ovf
  else if e < fmt.emin then ⟨some 0#64, Conds.unf, Conds.when (q.unfTrap c) Conds.unf⟩
  else .ok (fmt.pack x.neg e r.sig)

/-- The same with a zero result, which is true zero (R818 step 4). -/
def vaxResultOrZero (fmt : Format) (q : Quals) (c : FpControl) (x : Exact) : FpOutcome :=
  if x.num = 0 then .ok 0#64 else vaxResult fmt q c x

/-- ADDx, SUBx, MULx, DIVx of VAX type (R818). `single` is the F type; an F operand is worth what its sign, exponent and
whole fraction field say (R803, notes/assumptions/26.md). -/
def vaxBinary (op : FpBinary) (single : Bool) (q : Quals) (c : FpControl) (a b : Word) : FpOutcome :=
  if !(vaxValid a && vaxValid b) then .bad Conds.inv
  else if op = .div ∧ b = 0#64 then .bad Conds.dze
  else vaxResultOrZero (if single then .f else .g) q c (op.exact (vaxValue a) (vaxValue b))

/-- CMPGEQ, CMPGLT, CMPGLE (R878 to R880). -/
def vaxCompare (op : FpCompare) (a b : Word) : FpOutcome :=
  if !(vaxValid a && vaxValid b) then .bad Conds.inv
  else .ok (if op.holds (vaxValue a) (vaxValue b) then fpTrue else 0#64)

/-- CVTGF (R881) and CVTGD (R882), by destination format. -/
def vaxFromG (fmt : Format) (q : Quals) (c : FpControl) (b : Word) : FpOutcome :=
  if !vaxValid b then .bad Conds.inv else vaxResultOrZero fmt q c (vaxValue b)

/-- CVTDG (R886). -/
def vaxFromD (q : Quals) (c : FpControl) (b : Word) : FpOutcome :=
  if !dValid b then .bad Conds.inv else vaxResultOrZero .g q c (dValue b)

/-- CVTQF and CVTQG (R884, R885). -/
def vaxFromInt (fmt : Format) (q : Quals) (c : FpControl) (b : Word) : FpOutcome :=
  vaxResultOrZero fmt q c (.ofInt b.toInt)

/-- CVTGQ (R883, R815): there is no inexact condition. -/
def vaxToInt (q : Quals) (_c : FpControl) (b : Word) : FpOutcome :=
  if !vaxValid b then .bad Conds.inv
  else
    let n := (vaxValue b).roundInt q.vaxMode
    ⟨some (BitVec.ofInt 64 n), Conds.when (outsideQuad n) Conds.iov,
      Conds.when (outsideQuad n && q.trap) Conds.iov⟩

/-! ## CVTQL (R834) -/

/-- The low 32 bits of a quadword in longword register form (R804). -/
def longwordForm (b : Word) : Word := place (field b 30 2) 62 ||| place (field b 0 30) 29

/-- CVTQL: FPCR<IOV> and <INE> on overflow; the trap with /V (R834). -/
def quadToLong (q : Quals) (b : Word) : FpOutcome :=
  let tooBig := sextLong b != b
  ⟨some (longwordForm b), Conds.when tooBig (Conds.iov ||| Conds.ine), Conds.when (tooBig && q.trap) Conds.iov⟩

end Sys2Proof.Machine
end

