-- ==== Sys2Proof/Machine/Translate.lean ====
section
/-! DEFINITION. Address translation: TB matching (R308), the Dstream checks in the order of R300, superpages (R309), access
checks (R311), and what the Mbox records on a Dstream exception (R312). -/

namespace Sys2Proof.Machine

/-! ## TB matching -/

/-- `sext(va<42:0>) = va` (R301). -/
def signOk (va : Word) : Bool := (va.setWidth 43).signExtend 64 == va

/-- The virtual page number VA<42:13>. -/
def vpnOf (va : Word) : BitVec 30 := va.extractLsb' 13 30

/-- The page-number bits a granularity hint drops from the compare (R308). -/
def ghIgnore (gh : BitVec 2) : BitVec 30 :=
  if gh = 0#2 then 0#30 else if gh = 1#2 then 7#30 else if gh = 2#2 then 63#30 else 511#30

/-- `tagmatch` (R308). -/
def tagMatch (valid : Bool) (tag : BitVec 30) (asn : BitVec 7) (asm : Bool) (gh : BitVec 2) (vpn : BitVec 30)
    (current : BitVec 7) : Bool :=
  valid && (tag &&& ~~~ghIgnore gh == vpn &&& ~~~ghIgnore gh) && (asm || asn == current)

def ItbEntry.matches (e : ItbEntry) (vpn : BitVec 30) (asn : BitVec 7) : Bool :=
  tagMatch e.valid e.tag e.asn e.asm e.gh vpn asn

def DtbEntry.matches (e : DtbEntry) (vpn : BitVec 30) (asn : BitVec 7) : Bool :=
  tagMatch e.valid e.tag e.asn e.asm e.gh vpn asn

/-- What a TB lookup finds. -/
inductive TbHit (n : Nat) where
  | miss
  | hit (k : Fin n)
  /-- Matching entries that differ (R314). -/
  | clash
  deriving DecidableEq, Repr

/-- The ITB lookup (R308): several matching entries are one hit if they are equal in every field (DESIGN CHOICE: R314 says so of the
DTB only; notes/assumptions/10.md), else there is none. -/
def Itb.lookup (t : Itb) (vpn : BitVec 30) (asn : BitVec 7) : TbHit 48 :=
  match (List.finRange 48).filter (fun k => t.entries[k].matches vpn asn) with
  | [] => .miss
  | k :: rest => if rest.all (fun j => t.entries[k] == t.entries[j]) then .hit k else .clash

/-- The DTB lookup (R308, R314). -/
def Dtb.lookup (t : Dtb) (vpn : BitVec 30) (asn : BitVec 7) : TbHit 64 :=
  match (List.finRange 64).filter (fun k => t.entries[k].matches vpn asn) with
  | [] => .miss
  | k :: rest => if rest.all (fun j => t.entries[k] == t.entries[j]) then .hit k else .clash

/-- The physical address of a hit: the page-number bits a granularity hint covers come from the virtual address (R310). -/
def hitAddress (pfn : BitVec 27) (gh : BitVec 2) (va : Word) : PAddr :=
  let keep : BitVec 27 := (ghIgnore gh).setWidth 27
  ((pfn &&& ~~~keep) ||| (va.extractLsb' 13 27 &&& keep)) ++ va.extractLsb' 0 13

/-! ## Dstream references -/

/-- One Dstream reference: its address, size, kind, the modifiers of HW_LD and HW_ST (R313), whether an unaligned
address traps (R306), and the instruction fields MM_STAT records (R206). -/
structure Ref where
  va : Word
  quad : Bool
  write : Bool
  alignTrap : Bool
  phys : Bool
  alt : Bool
  vpte : Bool
  wrtck : Bool
  ra : RegNum
  opcode : BitVec 6
  deriving DecidableEq, Repr

/-- The reference of an ordinary load or store. -/
def Ref.plain (va : Word) (quad write : Bool) (ra : RegNum) (opcode : BitVec 6) : Ref :=
  ⟨va, quad, write, true, false, false, false, false, ra, opcode⟩

/-- The reference of LDQ_U and STQ_U, which never trap on alignment (R306 (b)). -/
def Ref.unaligned (va : Word) (write : Bool) (ra : RegNum) (opcode : BitVec 6) : Ref :=
  ⟨va, true, write, false, false, false, false, false, ra, opcode⟩

/-- The checking mode: kernel for VPTE, ALT_MODE for ALT, else DTB_CM (R311). -/
def State.checkMode (s : State) (r : Ref) : BitVec 2 :=
  if r.vpte then 0#2 else if r.alt then s.mbox.altMode else s.mbox.dtbCm

/-- The address is a multiple of its size (R306). -/
def Ref.aligned (r : Ref) : Bool := if r.quad then field r.va 0 3 == 0#3 else field r.va 0 2 == 0#2

/-- The conditions MM_STAT<05:00> records: WR, ACV, FOR, FOW, DTB_MISS, BAD_VA from bit 0 up (R206). -/
abbrev MmBits := BitVec 6

/-- MM_STAT<WR> of a reference (R312). -/
def Ref.wr (r : Ref) : MmBits := if r.write then 1#6 else 0#6

/-- The access check of R311 on a DTB entry, as MM_STAT<ACV, FOR, FOW>. -/
def DtbEntry.check (e : DtbEntry) (r : Ref) (mode : BitVec 2) : MmBits :=
  let rd := !r.write
  let wt := r.write || r.wrtck
  let acv := (rd && !e.re.getLsbD mode.toNat) || (wt && !e.we.getLsbD mode.toNat)
  (if acv then 2#6 else 0#6) ||| (if rd && e.faultRd then 4#6 else 0#6) ||| (if wt && e.faultWr then 8#6 else 0#6)

/-- What translation answers: a physical address with the DTB entry that gave it, an exception with the bits MM_STAT
records, or an UNDEFINED multiple match. -/
inductive Xlate where
  | ok (pa : PAddr) (hit : Option (Fin 64))
  | except (e : Entry) (bits : MmBits)
  | multiple
  deriving DecidableEq, Repr

/-- Step 5 of R300, once the page is known: alignment first, then the access check (Table 6-1), whose result `faults` is. -/
def Ref.finish (r : Ref) (pa : PAddr) (hit : Option (Fin 64)) (faults : MmBits) : Xlate :=
  if r.alignTrap && !r.aligned then .except .unalign (r.wr ||| faults)
  else if faults ≠ 0#6 then .except .dfault (r.wr ||| faults)
  else .ok pa hit

/-- VA<42:41> = 2 with MCSR<SP<1>>: PA<39:0> is VA<39:0> (R309). -/
def State.superHigh (s : State) (va : Word) : Bool := s.mbox.mcsr.getLsbD 2 && field va 41 2 == 2#2

/-- VA<42:30> = 1FFE hex with MCSR<SP<0>>: PA<29:0> is VA<29:0> (R309). -/
def State.superLow (s : State) (va : Word) : Bool := s.mbox.mcsr.getLsbD 1 && field va 30 13 == 0x1FFE#13

/-- The protection of a superpage: an access violation outside kernel mode (R309, D15). -/
def superFault (mode : BitVec 2) : MmBits := if mode = 0#2 then 0#6 else 2#6

/-- Steps 1 to 5 of R300, in their order, with the physical address before R305's inversion. -/
def State.translate (s : State) (r : Ref) : Xlate :=
  if r.phys then .ok (r.va.setWidth 40) none
  else if !signOk r.va then .except .dfault (r.wr ||| 2#6 ||| 32#6)
  else if s.superHigh r.va then r.finish (r.va.setWidth 40) none (superFault (s.checkMode r))
  else if s.superLow r.va then
    r.finish ((r.va.setWidth 30).setWidth 40) none (superFault (s.checkMode r))
  else
    match s.dtb.lookup (vpnOf r.va) s.mbox.dtbAsn with
    | .miss => .except (if r.vpte then .dtbMissDouble else .dtbMissSingle) (r.wr ||| 16#6)
    | .clash => .multiple
    | .hit k =>
      r.finish (hitAddress s.dtb.entries[k].pfn s.dtb.entries[k].gh r.va) (some k)
        (s.dtb.entries[k].check r (s.checkMode r))

/-- Step 6 of R300 and D13: the address inverted in bit 2 for a longword under M_BIG_ENDIAN (R305), its low bits cleared to
the size of the access (R306). -/
def State.accessAddress (s : State) (quad : Bool) (pa : PAddr) : PAddr :=
  if quad then pa &&& ~~~7#40
  else (if s.mbigEndian then pa ^^^ 4#40 else pa) &&& ~~~3#40

/-- The DTB pointer after an access that used entry `hit` (D5, notes/assumptions/10.md). -/
def State.touchDtb (s : State) : Option (Fin 64) → State
  | none => s
  | some k => { s with dtb := { s.dtb with next := Config.dtbPointerAfterHit s.dtb.next k } }

/-- Load VA and MM_STAT and lock them, unless they are locked (R206, R312). -/
def State.captureMm (s : State) (va : Word) (bits : MmBits) (ra : RegNum) (opcode : BitVec 6) : State :=
  if s.mbox.mmLock then s
  else { s with mbox := { s.mbox with va := va, mmStat := opcode ++ (ra ++ bits), mmLock := true } }

/-- A Dstream exception: the capture, then the precise fault (R312, R703). -/
def State.mmTrap (s : State) (r : Ref) (e : Entry) (bits : MmBits) : State :=
  (s.captureMm r.va bits r.ra r.opcode).precise e

end Sys2Proof.Machine
end

