-- ==== Sys2Proof/Machine/Cache.lean ====
section
/-! DEFINITION. The Dcache (R54, R215, R220 to R222, R322, R323) and its parity errors (R210, R907, R908;
notes/assumptions/13.md). -/

namespace Sys2Proof.Machine

/-! ## The arrays -/

/-- The index of a block: address bits <12:5> (R54). -/
def dcIndex (pa : PAddr) : Nat := (pa.extractLsb' 5 8).toNat

/-- The tag of a block: address bits <38:13> (R54, R221). -/
def dcTag (pa : PAddr) : BitVec 26 := pa.extractLsb' 13 26

/-- An index that is not listed: invalid, tag zero, even parity. -/
def DcLine.blank (i : Nat) : DcLine := ⟨i, 0#26, false, false, false, 0#8, 0#256⟩

/-- The entry at an index. -/
def dcGet (i : Nat) : List DcLine → DcLine
  | [] => DcLine.blank i
  | l :: ls => if l.idx = i then l else dcGet i ls

/-- Put an entry at its index. -/
def dcPut (n : DcLine) : List DcLine → List DcLine
  | [] => [n]
  | l :: ls => if l.idx = n.idx then n :: ls else l :: dcPut n ls

/-- One bank. -/
def Dcache.bank (d : Dcache) (bank1 : Bool) : List DcLine := if bank1 then d.bank1 else d.bank0

/-- Change both banks. -/
def State.dcMap (s : State) (f : List DcLine → List DcLine) : State :=
  { s with dcache := ⟨f s.dcache.bank0, f s.dcache.bank1⟩ }

/-- The entry holds the octaword of an address (R54). -/
def DcLine.hits (l : DcLine) (pa : PAddr) : Bool :=
  l.tag == dcTag pa && (if pa.getLsbD 4 then l.valid1 else l.valid0)

/-- The entry's tag parity is wrong; the parity is even. An entry with no valid bit set reports none (DESIGN CHOICE: R210 and
R908 do not say whether it does; notes/assumptions/13.md). -/
def DcLine.tagError (l : DcLine) : Bool := (l.valid0 || l.valid1) && l.parity != parityOf l.tag

/-! ## Modes (R215) -/

/-- DC_MODE<DC_ENA>. -/
def State.dcEna (s : State) : Bool := s.mbox.dcMode.getLsbD 0
/-- DC_MODE<DC_FHIT>. -/
def State.dcFhit (s : State) : Bool := s.mbox.dcMode.getLsbD 1
/-- Force-hit mode. A Dcache that is not enabled misses even with DC_FHIT set (DESIGN CHOICE: R215 says of DC_ENA clear that all LD
operations are forced to miss, and of DC_FHIT that all Dstream references are forced to hit; notes/assumptions/13.md). -/
def State.dcForced (s : State) : Bool := s.dcEna && s.dcFhit
/-- DC_MODE<DC_BAD_PARITY>. -/
def State.dcBadParity (s : State) : Bool := s.mbox.dcMode.getLsbD 2
/-- DC_MODE<DC_PERR_DISABLE>. -/
def State.dcPerrDisable (s : State) : Bool := s.mbox.dcMode.getLsbD 3

/-! ## References -/

/-- The parity errors an access meets in one entry: data in bit 0, tag in bit 1. A store reads the tags only (R323, R908);
DC_FHIT forces the hit (R215). -/
def DcLine.errors (l : DcLine) (forced quad write : Bool) (pa : PAddr) : BitVec 2 :=
  (if !write && (forced || l.hits pa) && (l.badData &&& longsOf quad pa != 0#8) then 1#2 else 0#2) |||
    (if l.tagError then 2#2 else 0#2)

/-- What one bank gives an access: whether it hits, the data of the block, and the parity errors as DC_PERR_STAT<5:2> records
them: DP0, DP1, TP0, TP1 (R210). -/
structure DcLook where
  hit : Bool
  data : Hexword
  errors : BitVec 4
  deriving DecidableEq, Repr

/-- A reference to one bank; a disabled Dcache misses and has no errors (R215), whatever DC_FHIT says (`State.dcForced`). -/
def State.dcLook (s : State) (bank1 quad write : Bool) (pa : PAddr) : DcLook :=
  let l := dcGet (dcIndex pa) (s.dcache.bank bank1)
  let e := l.errors s.dcFhit quad write pa
  let w : BitVec 4 := (if e.getLsbD 0 then 1#4 else 0#4) ||| (if e.getLsbD 1 then 4#4 else 0#4)
  { hit := s.dcEna && (s.dcFhit || l.hits pa)
    data := l.data
    errors := if s.dcEna && !s.dcPerrDisable then (if bank1 then w <<< 1 else w) else 0#4 }

/-- A reference by the bank that serves it: which one that is, when it matters, is free. -/
def State.dcReference (s : State) (quad write : Bool) (pa : PAddr) : DcLook × State :=
  let a := s.dcLook false quad write pa
  let b := s.dcLook true quad write pa
  if a = b then (a, s) else (if s.freeNow.getLsbD 0 then b else a, s.drawn)

/-! ## Updates -/

/-- Allocate a block that a load missed, with the data of its fill (R322). -/
def State.dcFill (s : State) (pa : PAddr) (data : Hexword) : State :=
  if s.dcEna && !s.dcFhit then
    let n : DcLine := ⟨dcIndex pa, dcTag pa, parityOf (dcTag pa), true, true, 0#8, data⟩
    s.dcMap fun b => if (dcGet (dcIndex pa) b).hits pa then b else dcPut n b
  else s

/-- One entry after a store that hits: the data, and their parity as DC_BAD_PARITY says (R215, R323). -/
def DcLine.stored (l : DcLine) (bad : Bool) (mask : BitVec 8) (data : Hexword) : DcLine :=
  { l with
    data := mergeHex l.data data mask
    badData := if bad then l.badData ||| mask else l.badData &&& ~~~mask }

/-- The Dcache after a cacheable store: written if it hits or is forced to; `integer` as R215 asks. -/
def State.dcStore (s : State) (integer quad : Bool) (pa : PAddr) (v : Word) : State :=
  if s.dcEna then
    s.dcMap fun b =>
      let l := dcGet (dcIndex pa) b
      if s.dcFhit || l.hits pa then
        dcPut (l.stored (s.dcBadParity && integer) (longsOf quad pa) (blockData quad pa v)) b
      else b
  else s

/-- The Dcache without the 32-byte block of an address (R348, R351, R363). -/
def State.dcInvalidate (s : State) (pa : PAddr) : State :=
  s.dcMap fun b => b.map fun l =>
    if l.idx = dcIndex pa ∧ l.tag = dcTag pa then { l with valid0 := false, valid1 := false } else l

/-- All valid bits of both banks clear (R216, R914). -/
def State.dcFlush (s : State) : State := s.dcMap fun b => b.map fun l => { l with valid0 := false, valid1 := false }

/-! ## Parity errors -/

/-- DC_PERR_STAT after a parity error: the first sets LOCK and <5:2>, a later one SEO (R210). -/
def dcPerrAfter (stat : BitVec 6) (bits : BitVec 4) : BitVec 6 :=
  if stat.getLsbD 1 then stat ||| 1#6 else (bits ++ 2#2) ||| (stat &&& 1#6)

/-- A Dcache parity error: recorded, and MCHK at the end of the instruction (R206, R210, R704, R907, R908). -/
def State.dcError (s : State) (bits : BitVec 4) (va : Word) (write : Bool) (ra : RegNum) (opcode : BitVec 6) : State :=
  let s1 := s.captureMm va (if write then 1#6 else 0#6) ra opcode
  { s1 with mbox := { s1.mbox with dcPerrStat := dcPerrAfter s1.mbox.dcPerrStat bits }, mchkPending := true }

end Sys2Proof.Machine
end

