-- ==== Sys2Proof/Machine/Cbox.lean ====
section
/-! DEFINITION. What the Cbox operations share: the regions of physical memory (R320), the fields of SC_CTL, BC_CONTROL and
BC_CONFIG (R242, R248, R251), the transactions driven on the external interface, the events counted (R249), and the error
registers as errors load and lock them (R243 to R246, R253, R254). -/

namespace Sys2Proof.Machine

/-! ## Regions (R320) -/

/-- The three regions (R320). -/
inductive Region where
  | memory | noncached | cbox
  deriving DecidableEq, Repr

/-- The region of an address: PA<39>, then PA<39:20> (R320). -/
def regionOf (pa : PAddr) : Region :=
  if pa.getLsbD 39 then (if pa.extractLsb' 20 20 = 0xFFFFF#20 then .cbox else .noncached) else .memory

/-! ## Fields -/

/-- SC_CTL<SC_FHIT> (R242). -/
def State.scFhit (s : State) : Bool := s.cbox.scCtl.getLsbD 0
/-- BC_CONTROL<BC_ENABLED> (R248). -/
def State.bcEnabled (s : State) : Bool := s.cbox.bcControl.getLsbD 0
/-- BC_CONTROL<ALLOC_CYC> (R248). -/
def State.allocCyc (s : State) : Bool := s.cbox.bcControl.getLsbD 1
/-- BC_CONTROL<EI_CMD_GRP2> (R248). -/
def State.eiCmdGrp2 (s : State) : Bool := s.cbox.bcControl.getLsbD 2
/-- BC_CONTROL<EI_CMD_GRP3> (R248). -/
def State.eiCmdGrp3 (s : State) : Bool := s.cbox.bcControl.getLsbD 3
/-- BC_CONTROL<BC_FHIT> with the Bcache enabled (R248). -/
def State.bcFhit (s : State) : Bool := s.cbox.bcControl.getLsbD 7 && s.bcEnabled
/-- BC_CONTROL<EI_DIS_ERR> (R248). -/
def State.eiDisErr (s : State) : Bool := s.cbox.bcControl.getLsbD 15
/-- SC_CTL<SC_BLK_SIZE>: 64-byte blocks if set (R242). -/
def State.bigBlocks (s : State) : Bool := s.cbox.scCtl.getLsbD 12

/-- The cache block of an address, by its first byte: 32 or 64 bytes (R242, R366). -/
def State.blockOf (s : State) (pa : PAddr) : PAddr := if s.bigBlocks then pa &&& ~~~63#40 else pa &&& ~~~31#40

/-- BC_CONTROL<CORR_FILL_DAT> (R248). -/
def State.corrFillDat (s : State) : Bool := s.cbox.bcControl.getLsbD 4
/-- BC_CONTROL<VTM_FIRST> (R248). -/
def State.vtmFirst (s : State) : Bool := s.cbox.bcControl.getLsbD 5
/-- BC_CONTROL<EI_ECC_OR_PARITY> (R248). -/
def State.eccMode (s : State) : Bool := s.cbox.bcControl.getLsbD 6
/-- BC_CONTROL<FLUSH_SC_VTM> (R248). -/
def State.oneVictim (s : State) : Bool := s.cbox.bcControl.getLsbD 26
/-- BC_CONFIG<BC_SIZE> (R251). -/
def State.bcSize (s : State) : Nat := (s.cbox.bcConfig.extractLsb' 0 3).toNat

/-- The 32-byte blocks of the cache block that holds one: one, or the two of 64 bytes (R242). -/
def State.blockGranules (s : State) (b : Block) : List Block :=
  if s.bigBlocks then [b &&& ~~~1#35, b ||| 1#35] else [b]

/-- How many octawords a cache block has (R242). -/
def State.blockOctawords (s : State) : Nat := if s.bigBlocks then 4 else 2

/-! ## Transactions and events -/

/-- Drive a transaction on the external interface (notes/assumptions/17.md). -/
def State.drive (s : State) (e : BusEvent) : State := { s with busOut := e :: s.busOut }

/-- An event of the Cbox for the performance counters (R249). -/
def State.noteEvent (s : State) (e : CboxEvent) : State := { s with tally := e :: s.tally }

/-- The answer of the system to the next command, and the state without it; where the environment has given none, the plain
one: not shared, dirty if the request was to modify, no failure (R350). -/
def State.takeAnswer (s : State) (modify : Bool) : SysAnswer × State :=
  match s.answers with
  | [] => (⟨false, modify, false, false, [], [], false⟩, s)
  | a :: rest => (a, { s with answers := rest })

/-- The lock flag is cleared (R361). -/
def State.dropLock (s : State) : State := { s with lockFlag := false }

/-- Do something, and say whether it met an error of its own that asks for MCHK. -/
def State.watch (s : State) (run : State → State) : Bool × State :=
  let t := run { s with mchkPending := false }
  (t.mchkPending, { t with mchkPending := s.mchkPending || t.mchkPending })

/-! ## Errors -/

/-- The Scache transactions that SC_STAT<SC_CMD> names (R244). -/
inductive ScCommand where
  | iread | dread | dwrite | victim | invalidate | readDirty | setShared
  deriving DecidableEq, Repr

/-- SC_CMD<4:0> (R244, Table 5-28). The source of system commands and victims is printed 1x; its bit <3> is recorded as 0 (DESIGN
CHOICE: R244 leaves that bit open; notes/assumptions/15.md). -/
def ScCommand.code : ScCommand → BitVec 5
  | .iread => 0b00001#5
  | .dread => 0b01001#5
  | .dwrite => 0b01011#5
  | .victim => 0b10001#5
  | .invalidate => 0b10100#5
  | .readDirty => 0b10101#5
  | .setShared => 0b10110#5

/-- An Scache parity error: the first loads and locks SC_STAT and SC_ADDR, a later one sets SC_SCND_ERR; MCHK at the end of
the instruction. In force-hit mode parity checking is off (R243, R245, R247, R903 to R906). -/
def State.scError (s : State) (tperr : BitVec 3) (dperr : BitVec 8) (cmd : ScCommand) (pa : PAddr) : State :=
  if s.scFhit then s
  else if s.cbox.scLock then { s with cbox := { s.cbox with scStat := s.cbox.scStat ||| 0x10000#17 }, mchkPending := true }
  else { s with
    cbox := { s.cbox with
      scStat := 0#1 ++ (cmd.code ++ (dperr ++ tperr))
      scAddr := pa.setWidth 64 &&& 0x7FFFFFFFF0#64
      scLock := true }
    mchkPending := true }

/-- EI_STAT<35:28> with BC_TPERR, BC_TC_PERR, COR_ECC_ERR, UNC_ECC_ERR or EI_PAR_ERR set (R246). -/
abbrev EiBits := BitVec 8

def eiTagParity : EiBits := 1#8
def eiTagControlParity : EiBits := 2#8
def eiUncorrectable : EiBits := 16#8
def eiAddressParity : EiBits := 32#8

/-- EI_STAT<EI_ES> and <FIL_IRD> of an error (R246). -/
def eiSource (fromMemory istream : Bool) : EiBits := (if fromMemory then 4#8 else 0#8) ||| (if istream then 64#8 else 0#8)

/-- A hard-error bit is set in EI_STAT (R254, u). -/
def eiHard (stat : EiBits) : Bool := stat &&& 0b00110011#8 != 0#8

/-- BC_CONTROL hides an uncorrectable error: EI_DIS_ERR, or DIS_SYS_PAR for a system command or address parity error
(R248). -/
def State.hardErrorHidden (s : State) (bits : EiBits) : Bool :=
  s.eiDisErr || (bits == eiAddressParity && s.cbox.bcControl.getLsbD 28)

/-- An uncorrectable error of the external interface, unless hidden (R254): the first loads and locks EI_STAT and EI_ADDR,
FILL_SYN if it is one of fill data (R256), and locks BC_TAG_ADDR with what the last tag read left in it (R63 (d), R253); a
later one sets SEO_HRD_ERR. MCHK at the end of the instruction (R909 to R912). -/
def State.hardError (s : State) (bits : EiBits) (fromMemory istream : Bool) (pa : PAddr) (syndrome : BitVec 16) : State :=
  if s.hardErrorHidden bits then s
  else if eiHard s.cbox.eiStat then
    { s with cbox := { s.cbox with eiStat := s.cbox.eiStat ||| 128#8 }, mchkPending := true }
  else { s with
    cbox := { s.cbox with
      eiStat := (s.cbox.eiStat &&& 8#8) ||| bits ||| eiSource fromMemory istream
      eiLock := true
      eiAddr := pa.extractLsb' 4 36
      fillSyn := if bits = eiUncorrectable then syndrome else s.cbox.fillSyn
      bcTagLock := true }
    mchkPending := true }

/-- EI_STAT, EI_ADDR and FILL_SYN after a correctable error (R254): the first loads without locking; after a hard error only
the bit is set; a second one changes nothing. -/
def State.recordCorrectable (s : State) (fromMemory istream : Bool) (pa : PAddr) (syndrome : BitVec 16) : State :=
  if s.cbox.eiStat.getLsbD 3 then s
  else if eiHard s.cbox.eiStat then { s with cbox := { s.cbox with eiStat := s.cbox.eiStat ||| 8#8 } }
  else { s with cbox := { s.cbox with
    eiStat := s.cbox.eiStat ||| 8#8 ||| eiSource fromMemory istream
    eiAddr := pa.extractLsb' 4 36
    fillSyn := syndrome } }

/-- A correctable error of fill data that is not transparent: recorded, the Dcache invalidated, the interrupt requested
(R248, R914). -/
def State.correctableError (s : State) (fromMemory istream : Bool) (pa : PAddr) (syndrome : BitVec 16) : State :=
  let s1 := (s.recordCorrectable fromMemory istream pa syndrome).dcFlush
  { s1 with ibox := { s1.ibox with crdReq := true } }

end Sys2Proof.Machine
end

