-- ==== Sys2Proof/Machine/Ecc.lean ====
section
/-! DEFINITION. The check bits of the external data bus: the quadword ECC code (R257, R258), byte parity (R259), and
what becomes of a received octaword (R470, R473). -/

namespace Sys2Proof.Machine

/-! ## The quadword ECC code (R257) -/

/-- The data bits that check bits CB7 down to CB0 cover (R257). -/
def eccMasks : List Word :=
  [0x00FFFF00FF0000FF#64, 0xFF0000FFFF0000FF#64, 0xFF00FF00FF00FF00#64, 0xC0FCC0FCC0FCC0FC#64,
   0x38E338E338E338E3#64, 0xA699A699A699A699#64, 0x1557155715571557#64, 0xB4D1B4D14B2E4B2E#64]

/-- The parities of the covered bits, the last mask of the list in bit 0. -/
def coverage (d : Word) : List Word → BitVec 8
  | [] => 0#8
  | m :: ms => (if parityOf (m &&& d) then 1#8 <<< ms.length else 0#8) ||| coverage d ms

/-- The check bits of a quadword: even parity, but odd for CB2 and CB3 (R257). -/
def eccOf (d : Word) : BitVec 8 := coverage d eccMasks ^^^ 0x0C#8

/-- The syndrome of a received quadword: received check bits against regenerated ones (R257). -/
def eccSyndrome (d : Word) (check : BitVec 8) : BitVec 8 := check ^^^ eccOf d

/-- The syndrome that data bit `i` alone in error gives (R258). -/
def bitSyndrome (i : Nat) : BitVec 8 := coverage (1#64 <<< i) eccMasks

/-- The datum with a single-bit error corrected, of a data bit or of a check bit; none if the syndrome is of no single bit
(R257, R258). -/
def eccCorrect (d : Word) (check : BitVec 8) : Option Word :=
  let syn := eccSyndrome d check
  if syn = 0#8 ∨ (List.range 8).any (fun n => syn == 1#8 <<< n) then some d
  else ((List.range 64).find? fun i => bitSyndrome i == syn).map fun i => d ^^^ 1#64 <<< i

/-! ## An octaword -/

/-- The even byte parities of the low `n` bytes of an octaword (R259). -/
def byteParities (d : BitVec 128) : Nat → BitVec 16
  | 0 => 0#16
  | n + 1 => (if parityOf (d.extractLsb' (8 * n) 8) then 1#16 <<< n else 0#16) ||| byteParities d n

/-- What the processor drives on data_check_h with an octaword, and expects there (R257, R259, R471). -/
def checkOf (ecc : Bool) (d : BitVec 128) : BitVec 16 :=
  if ecc then eccOf (d.extractLsb' 64 64) ++ eccOf (d.extractLsb' 0 64) else byteParities d 16

/-- The syndrome as FILL_SYN records it: one byte for each quadword, or one bit for each byte of bad parity (R256). -/
def fillSyndrome (ecc : Bool) (d : BitVec 128) (check : BitVec 16) : BitVec 16 := check ^^^ checkOf ecc d

/-- A received octaword corrected, if it can be: in parity mode nothing can (R257, R259). -/
def fillCorrect (ecc : Bool) (d : BitVec 128) (check : BitVec 16) : Option (BitVec 128) :=
  if ecc then
    match eccCorrect (d.extractLsb' 64 64) (check.extractLsb' 8 8), eccCorrect (d.extractLsb' 0 64) (check.extractLsb' 0 8) with
    | some hi, some lo => some (hi ++ lo)
    | _, _ => none
  else if fillSyndrome false d check = 0#16 then some d else none

/-! ## A received octaword (R427, R470, R473) -/

/-- The syndrome of a received octaword. -/
def beatSyndrome (ecc : Bool) (x : Beat) : BitVec 16 := fillSyndrome ecc x.data x.check

/-- The data of a received octaword: corrected if they can be, as they are if not or if they are not to be checked. -/
def correctBeat (ecc : Bool) (x : Beat) : BitVec 128 :=
  if x.noCheck then x.data else (fillCorrect ecc x.data x.check).getD x.data

/-- Check a received octaword (R248, R470, R473, R909, R910, R914): nothing is reported with fill_nocheck_h or EI_DIS_ERR; with
CORR_FILL_DAT a correctable error is transparent. -/
def State.checkBeat (s : State) (fromMemory istream : Bool) (pa : PAddr) (x : Beat) : State :=
  let syn := beatSyndrome s.eccMode x
  if x.noCheck || s.eiDisErr || syn == 0#16 then s
  else
    match fillCorrect s.eccMode x.data x.check with
    | some _ => if s.corrFillDat then s else s.correctableError fromMemory istream pa syn
    | none => s.hardError eiUncorrectable fromMemory istream pa syn

/-! ## What the processor writes into the Bcache -/

/-- The data an octaword stands with in the Bcache when BC_CONTROL<BC_BAD_DAT> is set: bits <0> and <64>, or <1> and <65>,
inverted under unchanged check bits (R248). -/
def State.badDat (s : State) (d : BitVec 128) : BitVec 128 :=
  let flip : Word := (s.cbox.bcControl.extractLsb' 13 2).setWidth 64
  d ^^^ (flip ++ flip)

end Sys2Proof.Machine
end

