-- ==== Sys2Proof/Machine/Bcache.lean ====
section
/-! DEFINITION. The Bcache RAMs (R58, R413, R414): index, tag and status with their parities (R474), data with their check
bits (R257, R470), and force-hit mode (R248, R253). -/

namespace Sys2Proof.Machine

/-! ## Index and tag (R413) -/

/-- The 32-byte block that names its cache block: itself, or the first of two (R413). -/
def State.leadOf (s : State) (b : Block) : Block := if s.bigBlocks then b &&& ~~~1#35 else b

/-- Where 32 bytes stand in the RAMs, which are as large as BCACHE_SIZE says. The tag of a cache block stands at the index of its
first 32 bytes. -/
def State.bcIndex (s : State) (b : Block) : Nat := b.toNat % 2 ^ (14 + s.pins.bcacheSize.toNat)

/-- The bits of tag_data_h<38:20> that the configured size uses for the index (R253). -/
def State.bcUnused (s : State) : BitVec 19 := (1#19 <<< (s.bcSize - 1)) - 1#19

/-- The tag of a block: PA<38:20> without the bits of the index. -/
def State.bcTag (s : State) (b : Block) : BitVec 19 := b.extractLsb' 15 19 &&& ~~~s.bcUnused

/-- The block whose tag an entry holds at the index of block `b`. -/
def State.bcBlock (s : State) (b : Block) (tag : BitVec 19) : Block :=
  (0#1 ++ ((tag &&& ~~~s.bcUnused) ++ 0#15)) ||| (b &&& (0#1 ++ (s.bcUnused ++ 0x7FFF#15)))

/-! ## Entries -/

/-- A tag that nothing has written: anything (R58). -/
def BcTag.unlisted (idx : Nat) : BcTag :=
  let w := Config.arrayWord 1 idx 0
  ⟨idx, w.extractLsb' 0 19, w.getLsbD 19, w.getLsbD 20, w.getLsbD 21, w.getLsbD 22, w.getLsbD 23⟩

/-- 32 bytes of data that nothing has written: anything (R58). -/
def BcData.unlisted (idx : Nat) : BcData := ⟨idx, Config.arrayWord 1 idx 1, (Config.arrayWord 1 idx 0).extractLsb' 32 32⟩

/-- What the pins read without a Bcache: the pull-downs hold them at zero (R417). -/
def BcTag.absent (idx : Nat) : BcTag := ⟨idx, 0#19, false, false, false, false, false⟩

/-- The same for the data. -/
def BcData.absent (idx : Nat) : BcData := ⟨idx, 0#256, 0#32⟩

/-- The tag at an index. -/
def bcTagGet (idx : Nat) : List BcTag → BcTag
  | [] => BcTag.unlisted idx
  | l :: ls => if l.idx = idx then l else bcTagGet idx ls

/-- Put a tag at its index. -/
def bcTagPut (n : BcTag) : List BcTag → List BcTag
  | [] => [n]
  | l :: ls => if l.idx = n.idx then n :: ls else l :: bcTagPut n ls

/-- The data at an index. -/
def bcDataGet (idx : Nat) : List BcData → BcData
  | [] => BcData.unlisted idx
  | l :: ls => if l.idx = idx then l else bcDataGet idx ls

/-- Put data at their index. -/
def bcDataPut (n : BcData) : List BcData → List BcData
  | [] => [n]
  | l :: ls => if l.idx = n.idx then n :: ls else l :: bcDataPut n ls

/-- BCACHE_PRESENT (R10). -/
def State.bcPresent (s : State) : Bool := s.pins.bcacheSize != 0#3

/-- The tag where the cache block of 32 bytes stands. -/
def State.bcTagAt (s : State) (b : Block) : BcTag :=
  if s.bcPresent then bcTagGet (s.bcIndex (s.leadOf b)) s.bcTags else BcTag.absent (s.bcIndex (s.leadOf b))

/-- The data where 32 bytes stand. -/
def State.bcDataAt (s : State) (b : Block) : BcData :=
  if s.bcPresent then bcDataGet (s.bcIndex b) s.bcDatas else BcData.absent (s.bcIndex b)

/-- Write a tag; without RAMs nothing is kept. -/
def State.bcStoreTag (s : State) (l : BcTag) : State := if s.bcPresent then { s with bcTags := bcTagPut l s.bcTags } else s

/-- Write data; without RAMs nothing is kept. -/
def State.bcStoreData (s : State) (l : BcData) : State :=
  if s.bcPresent then { s with bcDatas := bcDataPut l s.bcDatas } else s

/-! ## Tag reads (R253, R414, R474) -/

/-- The tag as the processor uses it. -/
def State.bcTagOf (s : State) (l : BcTag) : BitVec 19 := l.tag &&& ~~~s.bcUnused

/-- The block is there by tag and valid bit, whatever their parity (R414). -/
def State.bcHolds (s : State) (b : Block) : Bool := (s.bcTagAt b).valid && s.bcTagOf (s.bcTagAt b) == s.bcTag b

/-- A reference hits: in force-hit mode always (R248). -/
def State.bcHit (s : State) (b : Block) : Bool := s.bcFhit || s.bcHolds b

/-- tag_data_par_h: odd parity over tag_data_h<38:20> (R405, R474). -/
def bcTagParity (tag : BitVec 19) : Bool := !parityOf tag

/-- tag_ctl_par_h: odd parity over tag_valid_h, tag_shared_h and tag_dirty_h (R405, R474). -/
def bcControlParity (valid shared dirty : Bool) : Bool := !((valid != shared) != dirty)

/-- BC_TAG_ADDR as a tag read loads it (R253, Table 5-33). -/
def State.bcTagView (s : State) (b : Block) : Word :=
  let l := s.bcTagAt b
  placeBit (s.bcHit b) 12 ||| placeBit l.ctlPar 13 ||| placeBit l.dirty 14 ||| placeBit l.shared 15 |||
  placeBit l.valid 16 ||| placeBit l.tagPar 17 ||| place (s.bcTagOf l) 20

/-- The tag and control parity errors of a tag read, as EI_STAT<29:28> (R246). -/
def State.bcTagErrors (s : State) (b : Block) : EiBits :=
  let l := s.bcTagAt b
  (if l.tagPar != bcTagParity (s.bcTagOf l) then eiTagParity else 0#8) |||
    (if l.ctlPar != bcControlParity l.valid l.shared l.dirty then eiTagControlParity else 0#8)

/-- What BC_TAG_ADDR gets from a tag read: for a system command with a tag parity error not the correct address, so any
(R253). -/
def State.bcTagSeen (s : State) (system : Bool) (b : Block) : Word :=
  if system && s.bcTagErrors b &&& eiTagParity != 0#8 then mergeBits (s.bcTagView b) (~~~0x7FFFF00000#64) s.freeNow
  else s.bcTagView b

/-- A read of the Bcache tag: BC_TAG_ADDR is loaded unless locked, and the parities are checked (R253, R474, R911). -/
def State.bcProbe (s : State) (istream system : Bool) (pa : PAddr) : State :=
  let b := granule pa
  let e := s.bcTagErrors b
  let s1 : State := { s.drawn with
    cbox := { s.cbox with bcTagAddr := if s.cbox.bcTagLock then s.cbox.bcTagAddr else s.bcTagSeen system b } }
  let s2 := s1.noteEvent (.bcache (s.bcHit b))
  if e = 0#8 then s2 else s2.hardError e false istream pa 0#16

/-! ## Data -/

/-- Octaword `k` of 32 bytes, as the data and check pins carry it. -/
def BcData.beat (l : BcData) (k : Nat) : Beat := ⟨hexOct l.data k, l.check.extractLsb' (16 * k) 16, false⟩

/-- Put an octaword and its check bits into 32 bytes. -/
def BcData.putOct (l : BcData) (k : Nat) (d : BitVec 128) (check : BitVec 16) : BcData :=
  { l with
    data := if k = 0 then l.data.extractLsb' 128 128 ++ d else d ++ l.data.extractLsb' 0 128
    check := if k = 0 then l.check.extractLsb' 16 16 ++ check else check ++ l.check.extractLsb' 0 16 }

/-- The data of a block, corrected where they can be (R473). -/
def State.bcData (s : State) (b : Block) : Hexword :=
  correctBeat s.eccMode ((s.bcDataAt b).beat 1) ++ correctBeat s.eccMode ((s.bcDataAt b).beat 0)

/-- The tag of a block with its status; in force-hit mode tag parity, control parity and status are those of BC_TAG_STAT
(R248). -/
def State.bcTagged (s : State) (b : Block) (valid shared dirty : Bool) : BcTag :=
  let c := s.cbox.bcControl
  let i := s.bcIndex (s.leadOf b)
  if s.bcFhit then ⟨i, s.bcTag b, c.getLsbD 12, c.getLsbD 10, c.getLsbD 9, c.getLsbD 8, c.getLsbD 11⟩
  else ⟨i, s.bcTag b, bcTagParity (s.bcTag b), valid, shared, dirty, bcControlParity valid shared dirty⟩

/-- Write the tag of the cache block of 32 bytes. -/
def State.bcWriteTag (s : State) (b : Block) (valid shared dirty : Bool) : State :=
  s.bcStoreTag (s.bcTagged b valid shared dirty)

/-- 32 bytes with the octawords a mask picks written, with check bits as BC_BAD_DAT leaves them (R248, R470). -/
def State.bcFilled (s : State) (l : BcData) (octs : BitVec 2) (data : Hexword) : BcData :=
  let put (l : BcData) (k : Nat) : BcData :=
    if octs.getLsbD k then l.putOct k (s.badDat (hexOct data k)) (checkOf s.eccMode (hexOct data k)) else l
  put (put l 0) 1

/-- Write octawords of a block and the tag of its cache block. -/
def State.bcWrite (s : State) (b : Block) (octs : BitVec 2) (data : Hexword) (shared dirty : Bool) : State :=
  (s.bcStoreData (s.bcFilled (s.bcDataAt b) octs data)).bcWriteTag b true shared dirty

/-- Write two octawords of a fill as the system drives them, and the tag (R427, R914). -/
def State.bcWriteBeats (s : State) (b : Block) (lo hi : Beat) (shared dirty : Bool) : State :=
  (s.bcStoreData ⟨s.bcIndex b, hi.data ++ lo.data, hi.check ++ lo.check⟩).bcWriteTag b true shared dirty

end Sys2Proof.Machine
end

