-- ==== Sys2Proof/Machine/Scache.lean ====
section
/-! DEFINITION. The Scache array (R57): lookup, parity, force-hit mode (R242, R247), and the changes of its blocks (R349;
notes/assumptions/15.md). -/

namespace Sys2Proof.Machine

/-! ## Blocks and entries -/

/-- The index of a block within a set: PA<14:6> (R57). -/
def scIndex (b : Block) : Nat := (b.extractLsb' 1 9).toNat

/-- The tag of a block: PA<38:15> (R57). -/
def scTag (b : Block) : BitVec 24 := b.extractLsb' 10 24

/-- The subblock of PA<5>. -/
def ScLine.sub (l : ScLine) (b : Block) : ScSub := if b.getLsbD 0 then l.sub1 else l.sub0

/-- The entry with the subblock of PA<5> replaced. -/
def ScLine.setSub (l : ScLine) (b : Block) (x : ScSub) : ScLine :=
  if b.getLsbD 0 then { l with sub1 := x } else { l with sub0 := x }

/-- The block of a subblock of an entry. -/
def ScLine.block (l : ScLine) (upper : Bool) : Block := 0#1 ++ (l.tag ++ (BitVec.ofNat 9 l.idx ++ BitVec.ofBool upper))

/-- A subblock that nothing has written since reset: not valid (R970), anything else. -/
def ScSub.unlisted (w data : BitVec 256) (lo : Nat) : ScSub :=
  ⟨false, w.getLsbD lo, w.getLsbD (lo + 1), w.extractLsb' (lo + 2) 2, data, w.extractLsb' (lo + 4) 8⟩

/-- An entry that nothing has written since reset. -/
def ScLine.unlisted (way : Fin 3) (idx : Nat) : ScLine :=
  let k := 512 * way.val + idx
  let w := Config.arrayWord 0 k 0
  ⟨way, idx, w.extractLsb' 0 24, w.getLsbD 24, ScSub.unlisted w (Config.arrayWord 0 k 1) 32,
    ScSub.unlisted w (Config.arrayWord 0 k 2) 64⟩

/-- The entry of a set at an index. -/
def scGet (way : Fin 3) (idx : Nat) : List ScLine → ScLine
  | [] => ScLine.unlisted way idx
  | l :: ls => if l.idx = idx ∧ l.way = way then l else scGet way idx ls

/-- Put an entry at its set and index. -/
def scPut (n : ScLine) : List ScLine → List ScLine
  | [] => [n]
  | l :: ls => if l.idx = n.idx ∧ l.way = n.way then n :: ls else l :: scPut n ls

/-! ## Lookup -/

/-- SC_CTL<SC_SET_EN> enables a set (R242). -/
def State.scWayOn (s : State) (way : Fin 3) : Bool :=
  s.cbox.scCtl.extractLsb' 13 3 == 7#3 || s.cbox.scCtl.getLsbD (13 + way.val)

/-- The one set that is enabled in force-hit mode (R242). -/
def State.scSet (s : State) : Fin 3 := if s.cbox.scCtl.getLsbD 13 then 0 else if s.cbox.scCtl.getLsbD 14 then 1 else 2

/-- The entry holds a block. -/
def ScLine.holds (l : ScLine) (b : Block) : Bool := l.idx == scIndex b && l.tag == scTag b && (l.sub b).valid

/-- The entry of the enabled sets that holds a block. -/
def State.scFind (s : State) (b : Block) : Option ScLine := s.scache.find? fun l => l.holds b && s.scWayOn l.way

/-- The entry a reference hits: in force-hit mode the one at the index, whatever its tag and status (R242). -/
def State.scLine (s : State) (b : Block) : Option ScLine :=
  if s.scFhit then some (scGet s.scSet (scIndex b) s.scache) else s.scFind b

/-! ## Parity and force-hit reads -/

/-- The entry's tag parity is wrong: the parity is even (R242). An entry with no valid subblock reports no error (DESIGN
CHOICE, notes/assumptions/15.md). -/
def ScLine.tagError (l : ScLine) : Bool := (l.sub0.valid || l.sub1.valid) && l.parity != parityOf l.tag

/-- SC_STAT<SC_TPERR> of a lookup: the sets with bad tag parity at its index (R243). -/
def State.scTagErrors (s : State) (b : Block) : BitVec 3 :=
  s.scache.foldl (fun e l => if l.idx == scIndex b && l.tagError && s.scWayOn l.way then e ||| (1#3 <<< l.way.val) else e) 0#3

/-- The parity bits of the longwords of a subblock as the RAM holds them; the sense is taken to be even, as that of the tags
is (DESIGN CHOICE, notes/assumptions/15.md). -/
def ScSub.parityBits (x : ScSub) : BitVec 8 :=
  (List.range 8).foldl (fun p k => if parityOf (hexLong x.data k) != x.bad.getLsbD k then p ||| (1#8 <<< k) else p) 0#8

/-- SC_ADDR in force-hit mode: tag and status bits (R247, Table 5-29). -/
def ScLine.view (l : ScLine) : Word :=
  placeBit l.parity 4 ||| placeBit l.sub0.valid 5 ||| placeBit l.sub0.shared 6 ||| placeBit l.sub0.dirty 7 |||
  placeBit l.sub1.valid 8 ||| placeBit l.sub1.shared 9 ||| placeBit l.sub1.dirty 10 ||| place l.sub0.modified 11 |||
  place l.sub1.modified 13 ||| place l.tag 15

/-- A force-hit read or probe loads SC_ADDR with the tag and status, and SC_STAT<SC_DPERR> with the parity bits read out
(R243, R247). It does so even if an error had locked SC_ADDR before the mode was entered (DESIGN CHOICE: R247 says only that
no lock is made in the mode; notes/assumptions/15.md). -/
def State.scTagLoad (s : State) (b : Block) : State :=
  let l := scGet s.scSet (scIndex b) s.scache
  { s with cbox := { s.cbox with
    scAddr := l.view
    scStat := (s.cbox.scStat &&& ~~~0x7F8#17) ||| ((l.sub b).parityBits.setWidth 17 <<< 3) } }

/-- The longwords of 32 bytes that hold bad data parity, if the Scache holds them. -/
def State.scBadData (s : State) (b : Block) : BitVec 8 :=
  match s.scFind b with
  | some l => (l.sub b).bad
  | none => 0#8

/-- The command reads the data of the block that it hits (R905: "Dstream read or write, READ_DIRTY"). -/
def ScCommand.reads : ScCommand → Bool
  | .iread | .dread | .dwrite | .readDirty => true
  | .victim | .invalidate | .setShared => false

/-- An Scache lookup at an address: the parity of the tags, and of the 32-byte blocks it reads if it reads any, all in one
transaction (R243, R245). Of several with bad data the first is recorded, with its address (DESIGN CHOICE,
notes/assumptions/15.md). In force-hit mode a read or a probe loads the tag instead. -/
def State.scLookup (s : State) (cmd : ScCommand) (pa : PAddr) (blocks : List Block) : State :=
  if s.scFhit then (if cmd = .dwrite then s else s.scTagLoad (granule pa))
  else
    let t := s.scTagErrors (granule pa)
    match if cmd.reads then blocks.find? (fun g => s.scBadData g != 0#8) else none with
    | some g => s.scError t (s.scBadData g) cmd (if g = granule pa then pa else granuleAddr g)
    | none => if t = 0#3 then s else s.scError t 0#8 cmd pa

/-! ## Changes -/

/-- The longwords written with bad data parity: SC_FB_DP, the same for both octawords (R242). -/
def State.scForcedBad (s : State) : BitVec 8 := s.cbox.scCtl.extractLsb' 8 4 ++ s.cbox.scCtl.extractLsb' 8 4

/-- The octawords that a longword mask touches. -/
def octsOf (mask : BitVec 8) : BitVec 2 :=
  BitVec.ofBool (mask.extractLsb' 4 4 != 0#4) ++ BitVec.ofBool (mask.extractLsb' 0 4 != 0#4)

/-- A subblock after a write of some longwords. -/
def ScSub.written (x : ScSub) (forcedBad mask : BitVec 8) (data : Hexword) : ScSub :=
  { x with
    data := mergeHex x.data data mask
    bad := (x.bad &&& ~~~mask) ||| (forcedBad &&& mask)
    modified := x.modified ||| octsOf mask }

/-- Change the subblock of a block, if the Scache holds it. -/
def State.scUpdate (s : State) (b : Block) (f : ScSub → ScSub) : State :=
  { s with scache := s.scache.map fun l => if l.holds b && s.scWayOn l.way then l.setSub b (f (l.sub b)) else l }

/-- Remove a block: the Dcache, a subset of the Scache, loses it too (R348). -/
def State.scInvalidate (s : State) (b : Block) : State :=
  (s.scUpdate b fun x => { x with valid := false }).dcInvalidate (granuleAddr b)

/-- A store in force-hit mode: the data, and the tag of its address with SC_TAG_STAT: parity, valid, shared, dirty, and the
modified bits (R242). -/
def State.scForcedStore (s : State) (b : Block) (mask : BitVec 8) (data : Hexword) : State :=
  let l := scGet s.scSet (scIndex b) s.scache
  let c := s.cbox.scCtl
  let x : ScSub := { (l.sub b).written s.scForcedBad mask data with
    valid := c.getLsbD 6, shared := c.getLsbD 5, dirty := c.getLsbD 4, modified := c.extractLsb' 2 2 }
  { s with scache := scPut (ScLine.setSub { l with tag := scTag b, parity := c.getLsbD 7 } b x) s.scache }

/-- The entry with both valid bits clear. -/
def ScLine.flushed (l : ScLine) : ScLine :=
  { l with sub0 := { l.sub0 with valid := false }, sub1 := { l.sub1 with valid := false } }

/-- SC_CTL<SC_FLUSH> (R242, R380): every Scache valid bit is cleared, dirty data are lost, and the Dcache, a subset of the
Scache (R348), is empty too. -/
def State.scFlush (s : State) : State := State.dcFlush { s with scache := s.scache.map ScLine.flushed }

end Sys2Proof.Machine
end

