-- ==== Sys2Proof/Machine/Victims.lean ====
section
/-! DEFINITION. What leaves the caches: the Scache victim buffer (R401, R417, R429), the displacing of Scache and Bcache blocks (R348,
R416, R428, R981); and what the caches and main memory hold of a block (R322). -/

namespace Sys2Proof.Machine

/-! ## Octawords of a block and their order (R433) -/

/-- The 32-byte block that holds octaword number `o` of the cache block of `b`. -/
def State.octGranule (s : State) (b : Block) (o : Nat) : Block :=
  if s.bigBlocks then (if o < 2 then b &&& ~~~1#35 else b ||| 1#35) else b

/-- The number, within its cache block, of octaword `k` of a 32-byte block. -/
def State.octNumber (s : State) (b : Block) (k : Nat) : Nat := if s.bigBlocks && b.getLsbD 0 then 2 + k else k

/-- The octaword of `n` that addr_h<5:4> wants first. -/
def wrapStart (n : Nat) (pa : PAddr) : Nat := (pa.extractLsb' 4 2).toNat % n

/-- The octawords of a cache block in the order in which they move: start XOR j (R433). -/
def State.wrapOrder (s : State) (pa : PAddr) : List Nat :=
  (List.range s.blockOctawords).map fun j => wrapStart s.blockOctawords pa ^^^ j

/-- The address of octaword `o` of the cache block of `b`. -/
def State.octAddress (s : State) (b : Block) (o : Nat) : PAddr :=
  granuleAddr (s.octGranule b o) + BitVec.ofNat 40 (16 * (o % 2))

/-! ## Main memory -/

/-- Longwords of a block reach main memory. -/
def State.writeMem (s : State) (b : Block) (mask : BitVec 8) (h : Hexword) : State :=
  { s with mem := s.mem.writeBlock b mask h }

/-- The data cycles of 32 bytes on the pins: int4_valid_h and data_h of the two octawords (R429). -/
def cyclesOf (mask : BitVec 8) (h : Hexword) : List (BitVec 4 × BitVec 128) :=
  [(mask.extractLsb' 0 4, hexOct h 0), (mask.extractLsb' 4 4, hexOct h 1)]

/-! ## Scache victims (R401, R417, R429) -/

/-- The subblock of PA<5>. -/
def ScLine.half (l : ScLine) (upper : Bool) : ScSub := if upper then l.sub1 else l.sub0

/-- A valid subblock of the entry is dirty. -/
def ScLine.isDirty (l : ScLine) : Bool := (l.sub0.valid && l.sub0.dirty) || (l.sub1.valid && l.sub1.dirty)

/-- A subblock leaves with a victim: in 64-byte mode dirty is a state of the whole block (R413, R429). -/
def State.leaves (s : State) (l : ScLine) (upper : Bool) : Bool :=
  (l.half upper).valid && (if s.bigBlocks then l.isDirty else (l.half upper).dirty)

/-- The longwords of a subblock that leave with a victim. -/
def State.victimMask (s : State) (l : ScLine) (upper : Bool) : BitVec 8 := if s.leaves l upper then 0xFF#8 else 0#8

/-- A dirty Scache block leaves by WRITE BLOCK (R350, R417, R429). -/
def State.writeVictim (s : State) (l : ScLine) : State :=
  let half (t : State) (upper : Bool) : State := t.writeMem (l.block upper) (s.victimMask l upper) (l.half upper).data
  let cycles (upper : Bool) : List (BitVec 4 × BitVec 128) := cyclesOf (s.victimMask l upper) (l.half upper).data
  let sent (t : State) (upper : Bool) : State :=
    if s.leaves l upper then t.drive (.writeBlock (granuleAddr (l.block upper)) (cycles upper)) else t
  let s1 := half (half s false) true
  if s.bigBlocks then s1.drive (.writeBlock (granuleAddr (l.block false)) (cycles false ++ cycles true))
  else sent (sent s1 false) true

/-- All the blocks of the victim buffer are written back. -/
def State.writeVictims (s : State) : State := s.victims.foldl State.writeVictim { s with victims := [] }

/-- Room for one more in the victim buffer, which holds two: if it is full, BC_CONTROL<FLUSH_SC_VTM> says whether one block or all
are written back (R248). -/
def State.victimRoom (s : State) : State :=
  match s.victims with
  | v :: _ :: _ => if s.oneVictim then State.writeVictim { s with victims := s.victims.tail } v else State.writeVictims s
  | _ => s

/-- A dirty block enters the victim buffer. -/
def State.pushVictim (s : State) (l : ScLine) : State :=
  { s.victimRoom with victims := s.victimRoom.victims ++ [l] }

/-- If the victim buffer holds a block, it is written back before anything else happens to the block: with
BC_CONTROL<FLUSH_SC_VTM> only its own entries, else the whole buffer (R248). -/
def State.settleVictims (s : State) (b : Block) : State :=
  if s.victims.any fun l => l.holds b then
    if s.oneVictim then
      (s.victims.filter fun l => l.holds b).foldl State.writeVictim { s with victims := s.victims.filter fun l => !l.holds b }
    else s.writeVictims
  else s

/-! ## Displacing an Scache block -/

/-- The modified octawords of an Scache victim are merged into the Bcache; the whole, if the Bcache does not hold the block
(R349). In force-hit mode every block hits (R248). -/
def State.bcTake (s : State) (hit : Bool) (b : Block) (x : ScSub) : State :=
  s.bcWrite b (if hit then x.modified else 3#2) x.data x.shared true

/-- One subblock of an entry leaves: the Dcache loses it (R348), and the Bcache takes it if it is dirty. `hit` says whether the Bcache
held it. -/
def State.displaceSub (s : State) (l : ScLine) (hit upper : Bool) : State :=
  if (l.half upper).valid then
    let s1 := s.dcInvalidate (granuleAddr (l.block upper))
    if s.leaves l upper && s.bcEnabled then s1.bcTake hit (l.block upper) (l.half upper) else s1
  else s

/-- The longwords with bad parity of a subblock that leaves. -/
def State.victimBad (s : State) (l : ScLine) (upper : Bool) : BitVec 8 :=
  if s.leaves l upper then (l.half upper).bad else 0#8

/-- The parity of a victim is checked as it is read out (R244); SC_ADDR gets the address of the subblock with bad data, else of the
first one driven (R245). -/
def State.checkVictim (s : State) (l : ScLine) : State :=
  let t := if l.tagError then 1#3 <<< l.way.val else 0#3
  let d (upper : Bool) : BitVec 8 := s.victimBad l upper
  if t = 0#3 ∧ d false = 0#8 ∧ d true = 0#8 then s
  else
    let upper := d false == 0#8 && (d true != 0#8 || !s.leaves l false)
    s.scError t (d upper) .victim (granuleAddr (l.block upper))

/-- The entry of a set at an index is emptied: the Dcache loses its subblocks (R348), a dirty block goes to the Bcache or into the
victim buffer, and its parity is checked (R244). -/
def State.displace (s : State) (way : Fin 3) (idx : Nat) : State :=
  let l := scGet way idx s.scache
  let s1 := (s.displaceSub l (s.bcHit (l.block false)) false).displaceSub l (s.bcHit (l.block true)) true
  let s2 : State := { s1 with scache := scPut l.flushed s1.scache }
  if l.isDirty then
    State.checkVictim (if s.bcEnabled then s2.noteEvent .scVictim else (s2.noteEvent .scVictim).pushVictim l) l
  else s2

/-- The set that a fill of a block goes to: in 32-byte mode the one that has the other half; the only one enabled; without a
Bcache the one that BC_SIZE forces (R252, R981); else any (R57). -/
def State.scVictimWay (s : State) (b : Block) : Fin 3 :=
  let half := if s.bigBlocks then none else s.scache.find? fun l =>
    l.idx == scIndex b && l.tag == scTag b && (l.sub0.valid || l.sub1.valid) && s.scWayOn l.way
  match half with
  | some l => l.way
  | none =>
    if s.cbox.scCtl.extractLsb' 13 3 != 7#3 then s.scSet
    else if !s.bcEnabled && s.bcSize == 1 then 0
    else if !s.bcEnabled && s.bcSize == 2 then 1
    else if !s.bcEnabled && s.bcSize == 4 then 2
    else Config.scacheVictim s.freeCount

/-- The entry of a set is that of the other half of a block, so that nothing has to leave for it. -/
def State.scSharesEntry (s : State) (way : Fin 3) (b : Block) : Bool :=
  let l := scGet way (scIndex b) s.scache
  !s.bigBlocks && l.tag == scTag b && (l.sub0.valid || l.sub1.valid)

/-- Make room for a block in a set: whatever else stands there at its index leaves. -/
def State.scMakeRoom (s : State) (way : Fin 3) (b : Block) : State :=
  if s.scSharesEntry way b then s else s.displace way (scIndex b)

/-- The room made for a block in a set takes a dirty block out of the Scache. -/
def State.scRoomDirty (s : State) (way : Fin 3) (b : Block) : Bool :=
  !s.scSharesEntry way b && (scGet way (scIndex b) s.scache).isDirty

/-- Fill subblocks of a cache block into a set: data by 32-byte block, shared and dirty. -/
def State.scInstall (s : State) (way : Fin 3) (b : Block) (data : Block → Hexword) (shared dirty : Bool) : State :=
  let put (l : ScLine) (g : Block) : ScLine := l.setSub g ⟨true, shared, dirty, 0#2, data g, s.scForcedBad⟩
  let l := scGet way (scIndex b) s.scache
  { s with scache :=
      scPut ((s.blockGranules b).foldl put { l with tag := scTag b, parity := parityOf (scTag b) }) s.scache }

/-- The Scache takes a block into a set (R350). With every block loaded into it the lock flag is ANDed with system_lock_flag_h,
wherever the block comes from (R362). -/
def State.scFill (s : State) (way : Fin 3) (b : Block) (data : Block → Hexword) (shared dirty : Bool) : State :=
  let t := (s.scMakeRoom way b).scInstall way b data shared dirty
  { t with lockFlag := t.lockFlag && t.pins.systemLockFlag }

/-! ## Displacing a Bcache block (R348, R416, R428) -/

/-- The Scache copy of what stands in the Bcache at the index of 32 bytes leaves first, and dirty data are merged (R348). No parity
is checked there (DESIGN CHOICE: R905 and R244 do not say; notes/assumptions/19.md). -/
def State.bcReclaim (s : State) (g : Block) : State :=
  let l := s.bcTagAt g
  if l.valid then
    let v := s.bcBlock g l.tag
    let s1 := match s.scFind v with
      | some m => if s.leaves m (v.getLsbD 0) then s.bcTake true v (m.sub v) else s
      | none => s
    s1.scInvalidate v
  else s

/-- The block that stands in the Bcache where 32 bytes do. -/
def State.bcOccupant (s : State) (g : Block) : Block := s.bcBlock g (s.bcTagAt g).tag

/-- What stands in the Bcache where a block does goes to main memory if it is dirty, and is gone. -/
def State.bcCastOut (s : State) (b : Block) : State :=
  let l := s.bcTagAt b
  if l.valid then
    let s1 := if l.dirty then
        (s.blockGranules b).foldl (fun t g => t.writeMem (s.bcOccupant g) 0xFF#8 (s.bcDataAt g).data) s
      else s
    s1.bcStoreTag { l with valid := false, ctlPar := bcControlParity false l.shared l.dirty }
  else s

/-- The Bcache block that a miss displaces: BCACHE VICTIM if it is dirty, in the wrap order of the miss (R428, R433). A
victim is processed by its status alone, whatever the parities (R474). -/
def State.bcEvict (s : State) (pa : PAddr) : Option (PAddr × BusEvent) × State :=
  let b := granule pa
  let s1 := (s.blockGranules b).foldl State.bcReclaim s
  let s2 := s1.bcCastOut b
  if (s1.bcTagAt b).valid && (s1.bcTagAt b).dirty then
    let a := granuleAddr (s1.bcOccupant b) ||| (pa &&& 16#40)
    let data := (s.wrapOrder pa).map fun o => hexOct (s1.bcDataAt (s.octGranule b o)).data (o % 2)
    (some (a, .bcacheVictim a data), s2.noteEvent .bcVictim)
  else (none, s2)

/-! ## What this processor's caches hold -/

/-- What the caches and main memory hold of a block, this processor's stores that still wait left out: the Scache, the victim
buffer, the Bcache, main memory, in this order (R322). -/
def State.below (s : State) (b : Block) : Hexword :=
  match s.scLine b with
  | some l => (l.sub b).data
  | none =>
    match s.victims.find? fun l => l.holds b with
    | some l => (l.sub b).data
    | none => if s.bcEnabled && s.bcHit b then s.bcData b else s.mem.readBlock b

end Sys2Proof.Machine
end

