-- ==== Sys2Proof/Machine/Bus.lean ====
section
/-! DEFINITION. The command, address and data pins of the external interface: what a transaction of busOut carries on them
(R423, R429 to R434, R471, R475), the commands the system sends (R440), the answer to each (R442 to R451), and what each does
to the caches (R351, R361; notes/assumptions/17.md, 18.md). -/

namespace Sys2Proof.Machine

/-! ## Commands of the processor (R423) -/

/-- addr_cmd_par_h: odd parity over addr_h<39:4> and cmd_h<3:0> (R475). -/
def addrCmdParity (cmd : BitVec 4) (pa : PAddr) : Bool := !(parityOf cmd != parityOf (pa.extractLsb' 4 36))

/-- addr_res_h<1:0> of an answer (22_signal_pins.md R404): NOACK, ACK/Scache, ACK/Bcache. -/
def Answer.code : Answer → BitVec 2
  | .noack => 1#2
  | .ackScache => 2#2
  | .ackBcache => 3#2

/-- cmd_h<3:0> of a transaction (R423); a read carries the number of its miss register in bit 0. An answer is no command. -/
def BusEvent.command : BusEvent → Option (BitVec 4)
  | .nop _ => some 0#4
  | .lock _ => some 1#4
  | .fetch _ => some 2#4
  | .fetchM _ => some 3#4
  | .memoryBarrier => some 4#4
  | .setDirty _ => some 5#4
  | .writeBlock .. => some 6#4
  | .writeBlockLock .. => some 7#4
  | .readMiss register .. => some (if register then 9#4 else 8#4)
  | .readMissMod register .. => some (if register then 11#4 else 10#4)
  | .bcacheVictim .. => some 12#4
  | .readMissModStc register .. => some (if register then 15#4 else 14#4)
  | .response .. => none

/-- addr_h<39:4> of a transaction; that of MB is UNPREDICTABLE (R431). -/
def BusEvent.address : BusEvent → Option (BitVec 36)
  | .nop pa | .lock pa | .fetch pa | .fetchM pa | .setDirty pa | .writeBlock pa _ | .writeBlockLock pa _
  | .readMiss _ _ _ pa _ | .readMissMod _ _ _ pa | .bcacheVictim pa _ | .readMissModStc _ _ _ pa => some (pa.extractLsb' 4 36)
  | .memoryBarrier | .response .. => none

/-- int4_valid_h<3:0> in each data cycle of a write: the longwords of the octaword being written; with READ MISS: the quadwords
wanted, zero for the Istream (R426, R429, R434). -/
def BusEvent.int4Valid : BusEvent → List (BitVec 4)
  | .writeBlock _ cycles | .writeBlockLock _ cycles => cycles.map (·.1)
  | .readMiss _ _ _ _ int4 => [int4]
  | _ => []

/-- scache_set_h<1:0> of a read miss request: the set that will be filled (R404, R425). -/
def BusEvent.scacheSet : BusEvent → Option (BitVec 2)
  | .readMiss _ set _ _ _ => set.map fun k => BitVec.ofNat 2 k.val
  | .readMissMod _ set _ _ | .readMissModStc _ set _ _ => some (BitVec.ofNat 2 set.val)
  | _ => none

/-- victim_pending_h: the current read miss has generated a victim (R404, R416, R425). -/
def BusEvent.victimPending : BusEvent → Bool
  | .readMiss _ _ victim _ _ | .readMissMod _ _ victim _ | .readMissModStc _ _ victim _ => victim
  | _ => false

/-- The octawords a transaction drives on data_h<127:0> in order (R429, R433). -/
def BusEvent.octawords : BusEvent → List (BitVec 128)
  | .writeBlock _ cycles | .writeBlockLock _ cycles => cycles.map (·.2)
  | .bcacheVictim _ data => data
  | .response _ _ data => data
  | _ => []

/-- What data_check_h<15:0> carries with each of them, but for those that the Bcache RAMs drive themselves (R257, R259, R470,
R471). -/
def State.checkPins (s : State) (e : BusEvent) : List (BitVec 16) := e.octawords.map (checkOf s.eccMode)

/-! ## Output pins driven from registers (R64) -/

/-- srom_clk_h after the serial ROM load: SL_XMIT<7> (R125). -/
def State.sromClkPin (s : State) : Bool := s.ibox.slXmit

/-- test_status_h<1:0>: ICSR<TST> and the pulse of a timeout reset, and the failure of the self-test, the complement of
ICSR<ISTA> (R64, R166, R957, R975). -/
def State.testStatusPins (s : State) : BitVec 2 :=
  BitVec.ofBool (s.ibox.icsr.getLsbD 39 || s.pulse != 0) ++ BitVec.ofBool (!s.ibox.icsr.getLsbD 38)

/-! ## Commands of the system (R440) -/

/-- cmd_h<3:0> of a system command. -/
def SysCommand.code : SysCommand → BitVec 4
  | .flush => 1#4
  | .invalidate => 2#4
  | .setShared => 3#4
  | .read => 4#4
  | .readDirty => 5#4
  | .readDirtyInv => 7#4

/-- The system command of a code: NOP and the undefined codes name none. -/
def sysCommandOf (code : BitVec 4) : Option SysCommand :=
  [.flush, .invalidate, .setShared, .read, .readDirty, .readDirtyInv].find? fun c => SysCommand.code c == code

/-- The Scache transaction that serves a command (R244); READ and FLUSH, which Table 5-28 does not list, read like READ DIRTY
(DEDUCED, notes/assumptions/18.md). -/
def SysCommand.scCommand : SysCommand → ScCommand
  | .invalidate => .invalidate
  | .setShared => .setShared
  | .flush | .read | .readDirty | .readDirtyInv => .readDirty

/-- The command removes the block. -/
def SysCommand.removes : SysCommand → Bool
  | .flush | .invalidate | .readDirtyInv => true
  | .setShared | .read | .readDirty => false

/-! ## The answer (R442 to R451) -/

/-- Where a block is found and whether it is dirty there. -/
structure Probe where
  scHit : Bool
  scDirty : Bool
  bcHit : Bool
  bcDirty : Bool
  deriving DecidableEq, Repr

/-- Where the block of an address is found; only a block of the memory-like region is in a cache. -/
def State.probe (s : State) (pa : PAddr) : Probe :=
  let cached := regionOf pa == .memory
  let gs := s.blockGranules (granule pa)
  let dirty (g : Block) : Bool := match s.scFind g with
    | some l => (l.sub g).dirty
    | none => false
  { scHit := cached && gs.any fun g => (s.scFind g).isSome
    scDirty := cached && gs.any dirty
    bcHit := cached && s.bcEnabled && s.bcHolds (granule pa)
    bcDirty := cached && s.bcEnabled && s.bcHolds (granule pa) && (s.bcTagAt (granule pa)).dirty }

/-- The answer on addr_res_h<1:0>: Table 4-11 for INVALIDATE, SET SHARED, READ DIRTY and READ DIRTY/INVALIDATE (R446), Table
4-15 for READ and FLUSH (R451). -/
def answerOf (bcache : Bool) (p : Probe) : SysCommand → Answer
  | .invalidate | .setShared => if bcache then .ackBcache else if p.scHit then .ackScache else .noack
  | .readDirty | .readDirtyInv =>
    if p.scHit && p.scDirty then .ackScache else if bcache then .ackBcache else .noack
  | .read | .flush =>
    if p.scHit && p.scDirty then .ackScache else if bcache && p.bcHit && p.bcDirty then .ackBcache else .noack

/-- The lock register is hit: the flag is set and the block is the locked one (R447). -/
def State.lockRegisterHit (s : State) (pa : PAddr) : Bool := s.lockFlag && s.blockOf s.lockAddr == s.blockOf pa

/-- addr_res_h<2>, which INVALIDATE does not drive (R447). -/
def State.presentPin (s : State) (pa : PAddr) (p : Probe) : SysCommand → Option Bool
  | .invalidate => none
  | _ => some (p.scHit || s.lockRegisterHit pa)

/-- Data follow an acknowledged command that reads (R444 to R446, R449, R450). -/
def dataFollows (c : SysCommand) (a : Answer) : Bool :=
  match c with
  | .invalidate | .setShared => false
  | .read | .flush | .readDirty | .readDirtyInv => a != .noack

/-- The 32 bytes of a block as the cache that answers holds them: the Scache over the Bcache, whose data go out unchecked
(R470, R913). Outside the memory-like region the Bcache gives any data. -/
def State.answerData (s : State) (pa : PAddr) (g : Block) : Hexword :=
  if regionOf pa = .memory then
    match s.scFind g with
    | some l => (l.sub g).data
    | none => if s.bcEnabled then (s.bcDataAt g).data else s.below g
  else
    let k := s.freeCount + 1 + 4 * (g.getLsbD 0).toNat
    Config.freeWord (k + 3) ++ (Config.freeWord (k + 2) ++ (Config.freeWord (k + 1) ++ Config.freeWord k))

/-- The data of a block in the wrap order that addr_h<5:4> selects (R433). -/
def State.wrappedBlock (s : State) (pa : PAddr) : List (BitVec 128) :=
  (s.wrapOrder pa).map fun o => hexOct (s.answerData pa (s.octGranule (granule pa) o)) (o % 2)

/-! ## The effect of a command (R351) -/

/-- The lock flag is cleared if the block is the locked one (R361 (a)). -/
def State.unlockBlock (s : State) (pa : PAddr) : State :=
  if s.blockOf s.lockAddr == s.blockOf pa then s.dropLock else s

/-- The caches lose 32 bytes. The Bcache tag is written without a look at the tag there, but FLUSH looks first (R355, R442,
R449). -/
def State.removeGranule (s : State) (c : SysCommand) (g : Block) : State :=
  let s1 := s.scInvalidate g
  if s1.bcEnabled && (c != .flush || s1.bcHolds g) then s1.bcWriteTag g false false false else s1

/-- READ DIRTY makes 32 bytes shared and dirty where they were found, the Bcache taking what the Scache has (R444). -/
def State.shareDirty (s : State) (a : Answer) (g : Block) : State :=
  match a with
  | .noack => s
  | .ackScache =>
    let h := s.below g
    let s1 := s.scUpdate g fun x => { x with shared := true, modified := if s.bcEnabled then 0#2 else x.modified }
    if s.bcEnabled then s1.bcWrite g 3#2 h true true else s1
  | .ackBcache => (s.scUpdate g fun x => { x with shared := true }).bcWriteTag g true true true

/-- What a command does to 32 bytes of the block it names, once it has been answered. Data that FLUSH and READ DIRTY/INVALIDATE
drive out reach main memory (R449; for the other notes/assumptions/18.md). -/
def State.commandGranule (s : State) (c : SysCommand) (a : Answer) (pa : PAddr) (g : Block) : State :=
  let s1 := if c.removes && dataFollows c a then s.writeMem g 0xFF#8 (s.answerData pa g) else s
  match c with
  | .flush | .invalidate | .readDirtyInv => s1.removeGranule c g
  | .setShared =>
    let s2 := s1.scUpdate g fun x => { x with shared := true }
    if s2.bcEnabled then s2.bcWriteTag g true true false else s2
  | .readDirty => s1.shareDirty a g
  | .read => s1

/-- Before a command is answered the victim buffer gives up the block, the Scache is probed, the whole cache block in wrap order,
and the Bcache too for READ and FLUSH (R355, R451). -/
def State.commandLookup (s : State) (c : SysCommand) (pa : PAddr) : State :=
  if regionOf pa = .memory then
    let s1 := (s.blockGranules (granule pa)).foldl State.settleVictims s
    let s2 := s1.scLookup c.scCommand pa ((s.wrapOrder pa).map (s.octGranule (granule pa)))
    if s2.bcEnabled && (c == .read || c == .flush) then s2.bcProbe false true pa else s2
  else s

/-- The answer to a command. -/
def State.commandAnswer (s : State) (c : SysCommand) (pa : PAddr) : Answer := answerOf s.bcEnabled (s.probe pa) c

/-- The answer is driven (R442 to R451), and the command counted (R249). -/
def State.answerCommand (s : State) (c : SysCommand) (pa : PAddr) : State :=
  let a := s.commandAnswer c pa
  let t := (s.drive (.response a (s.presentPin pa (s.probe pa) c) (if dataFollows c a then s.wrappedBlock pa else []))).noteEvent
    (.system (c == .invalidate) (c == .read || c == .readDirty || c == .readDirtyInv))
  { t with freeCount := s.freeCount + 9 }

/-- What a command does once it has been answered: the block changes, and the lock flag with it (R351, R361). -/
def State.commandEffect (s : State) (c : SysCommand) (a : Answer) (pa : PAddr) : State :=
  let t := if regionOf pa = .memory then (s.blockGranules (granule pa)).foldl (fun t g => t.commandGranule c a pa g) s else s
  if c.removes then t.unlockBlock pa else t

/-- A command is served (R351, R442 to R451). -/
def State.serveCommand (s : State) (c : SysCommand) (pa : PAddr) : State :=
  let t := s.commandLookup c pa
  (t.answerCommand c pa).commandEffect c (t.commandAnswer c pa) pa

/-- What waits in the command buffer is answered: a command, or a cycle of bad parity with NOACK, nothing driven on addr_res_h<2>
(R441, R912; DESIGN CHOICE, notes/assumptions/18.md). -/
def State.serveWaiting (s : State) : Waiting → State
  | .command c pa => s.serveCommand c pa
  | .bad => s.drive (.response .noack none [])

/-! ## Commands that come before an acknowledgement (R356, R467) -/

/-- The commands that the system sends before its next acknowledgement; one at an address of the register region is none
(R328). -/
def State.before (s : State) : List (SysCommand × PAddr) :=
  match s.answers with
  | [] => []
  | a :: _ => a.before.filter fun p => regionOf p.2 != .cbox

/-- The next answer without the commands before it. -/
def State.clearBefore (s : State) : State :=
  { s with answers := match s.answers with
    | [] => []
    | a :: rest => { a with before := [] } :: rest }

/-- The processor has put a command on the pins; if the system sends commands of its own before it acknowledges it, they are served,
and the processor starts again (R356, R428, R467). -/
def State.interpose (s : State) (attempt : BusEvent) : State :=
  match s.before with
  | [] => s
  | l => l.foldl (fun t p => t.serveCommand p.1 p.2) ((s.drive attempt).clearBefore)

end Sys2Proof.Machine
end

