-- ==== Sys2Proof/Machine/Fill.lean ====
section
/-! DEFINITION. How a block comes into the Scache (R350, R414, R424 to R428): from the Bcache, or by READ MISS from the system, whose
fill comes at once or later (R401, R427); and the two reads of 32 bytes, cached and noncached, that loads and the Istream make
(R322, R329, R434). -/

namespace Sys2Proof.Machine

/-! ## READ MISS -/

/-- Who wants a block: a load, an instruction fetch, a prefetch, a store, or the store of an STx_C. -/
inductive Want where
  | load | fetch | prefetch | store | cond
  deriving DecidableEq, Repr

/-- An Istream reference (R426). -/
def Want.istream : Want → Bool
  | .fetch | .prefetch => true
  | .load | .store | .cond => false

/-- A request with intent to modify (R426). -/
def Want.modify : Want → Bool
  | .store | .cond => true
  | .load | .fetch | .prefetch => false

/-- The Scache transaction of a reference (R244). -/
def Want.scCommand : Want → ScCommand
  | .load => .dread
  | .fetch | .prefetch => .iread
  | .store | .cond => .dwrite

/-- The command for a block that is in no cache (R423, R425, R426): the address wants its octaword first; int4_valid_h is zero for
the Istream, else the quadword of the address (DESIGN CHOICE: R426 only says non-zero; notes/assumptions/17.md). -/
def Want.command (w : Want) (register : Bool) (set : Fin 3) (victim : Bool) (pa : PAddr) : BusEvent :=
  let a := pa &&& ~~~15#40
  match w with
  | .load => .readMiss register (some set) victim a (1#4 <<< (pa.extractLsb' 3 2).toNat)
  | .fetch | .prefetch => .readMiss register (some set) victim a 0#4
  | .store => .readMissMod register set victim a
  | .cond => .readMissModStc register set victim a

/-- The miss register that a new READ MISS takes: 1 if 0 is held (R401). -/
def State.missRegister (s : State) : Bool := s.miss0.isSome

/-- A miss register holds a READ MISS whose fill is to come. -/
def State.holdMiss (s : State) (m : Miss) : State :=
  if s.missRegister then { s with miss1 := some m } else { s with miss0 := some m }

/-- The commands of a miss (R428): with VTM_FIRST the victim leaves first; else READ MISS, a NOP with the address of the victim,
and BCACHE VICTIM. -/
def State.driveMiss (s : State) (c : BusEvent) : Option (PAddr × BusEvent) → State
  | none => s.drive c
  | some (a, v) => if s.vtmFirst then (s.drive v).drive c else ((s.drive c).drive (.nop a)).drive v

/-- What a miss needs before it goes to the system: the Scache set to be filled, the Bcache block displaced if it is dirty, the READ
MISS, and the state with the room made. victim_pending_h tells of a dirty Bcache block, or without a Bcache of a dirty Scache block
(R415, R416, R425). -/
structure MissPlan where
  way : Fin 3
  victim : Option (PAddr × BusEvent)
  command : BusEvent
  after : State

/-- The plan of a miss: the Scache makes room first, then the Bcache (R348). -/
def State.missPlan (s : State) (w : Want) (pa : PAddr) : MissPlan :=
  let b := granule pa
  let way := s.scVictimWay b
  let s1 := (s.scMakeRoom way b).drawn
  let e := if s.bcEnabled then s1.bcEvict pa else (none, s1)
  let pending := if s.bcEnabled then e.1.isSome else s.scRoomDirty way b
  ⟨way, e.1, w.command s.missRegister way pending pa, e.2⟩

/-- The first command of a miss: the victim's with VTM_FIRST. -/
def State.missFirst (s : State) (w : Want) (pa : PAddr) : BusEvent :=
  let p := s.missPlan w pa
  match p.victim with
  | some (_, v) => if s.vtmFirst then v else p.command
  | none => p.command

/-- A miss in every cache goes to the system (R414, R425, R426); the Scache set it is to fill. -/
def State.sendMiss (s : State) (w : Want) (pa : PAddr) : Fin 3 × State :=
  let p := s.missPlan w pa
  (p.way, p.after.driveMiss p.command p.victim)

/-! ## The fill -/

/-- What the pins carry in data cycle `j` of a fill: what the system gives, or main memory's octaword with its check bits. -/
def State.fillBeat (s : State) (a : SysAnswer) (pa : PAddr) (j : Nat) : Beat :=
  match a.beats[j]? with
  | some x => x
  | none =>
    let o := wrapStart s.blockOctawords pa ^^^ j
    let d := hexOct (s.mem.readBlock (s.octGranule (granule pa) o)) (o % 2)
    ⟨d, checkOf s.eccMode d, false⟩

/-- Octaword `k` of a block in a fill, as the pins carry it (R433). -/
def State.fillOct (s : State) (a : SysAnswer) (pa : PAddr) (g : Block) (k : Nat) : Beat :=
  s.fillBeat a pa (wrapStart s.blockOctawords pa ^^^ s.octNumber g k)

/-- The 32 bytes of a block in a fill, corrected where they can be (R433, R473). -/
def State.fillData (s : State) (a : SysAnswer) (pa : PAddr) (g : Block) : Hexword :=
  correctBeat s.eccMode (s.fillOct a pa g 1) ++ correctBeat s.eccMode (s.fillOct a pa g 0)

/-- The data cycles of a fill are checked in the order in which they come (R427, R470), and fill_error_h raises MCHK (R476,
R915). -/
def State.checkFill (s : State) (a : SysAnswer) (istream : Bool) (pa : PAddr) : State :=
  (List.range s.blockOctawords).foldl
    (fun t j => t.checkBeat true istream (s.octAddress (granule pa) (wrapStart s.blockOctawords pa ^^^ j)) (s.fillBeat a pa j))
    { s with mchkPending := s.mchkPending || a.fillError }

/-- The Bcache takes the block of a fill: data and check bits as the system drives them, and its status (R427, R914). -/
def State.bcFill (s : State) (a : SysAnswer) (pa : PAddr) (beat : Block → Nat → Beat) : State :=
  (s.blockGranules (granule pa)).foldl (fun t g => t.bcWriteBeats g (beat g 0) (beat g 1) a.shared a.dirty) s

/-- The fill of a block of the memory-like region (R350, R427) into a set of the Scache, and into the Bcache, if it is enabled. Without
a Bcache the dirty bit is set if the block comes to be modified and is not shared. With it, whether the fill met an error. -/
def State.takeFill (s : State) (w : Want) (way : Fin 3) (a : SysAnswer) (pa : PAddr) : Bool × State :=
  let b := granule pa
  let p := s.watch fun u => u.checkFill a w.istream pa
  (p.1,
    if s.bcEnabled then
      let s2 := match p.2.bcEvict pa with
        | (some (_, v), t) => t.drive v
        | (none, t) => t
      (s2.bcFill a pa (s.fillOct a pa)).scFill way b (s.fillData a pa) a.shared a.dirty
    else p.2.scFill way b (s.fillData a pa) a.shared (w.modify && !a.shared))

/-- A block comes from the Bcache (R414, R470): its octawords are checked; in force-hit mode the fill is private (R248). With it,
whether it met an error. -/
def State.takeFromBcache (s : State) (w : Want) (pa : PAddr) : Bool × State :=
  let b := granule pa
  let p := s.watch fun u => (s.wrapOrder pa).foldl
    (fun t o => t.checkBeat false w.istream (s.octAddress b o) ((s.bcDataAt (s.octGranule b o)).beat (o % 2))) u
  (p.1, (p.2.scFill (s.scVictimWay b) b s.bcData (!s.bcFhit && (s.bcTagAt b).shared) (!s.bcFhit && (s.bcTagAt b).dirty)).drawn)

/-- What became of a request: whether its data are there, or its fill is still to come; whether it met an error of its own; and the
state. -/
structure Brought where
  here : Bool
  bad : Bool
  after : State

/-- A block that the Scache lacks is brought into it: from the Bcache, or by READ MISS. If the system gives the fill later, a miss
register holds the request, if its owner can wait (R401). -/
def State.bringBlock (s : State) (w : Want) (keep : Option MissKind) (pa : PAddr) : Brought :=
  let s0 := s.settleVictims (granule pa)
  let p := if s0.bcEnabled then s0.watch fun u => u.bcProbe w.istream false pa else (false, s0)
  if s0.bcEnabled && s0.bcHit (granule pa) then
    let q := p.2.takeFromBcache w pa
    ⟨true, p.1 || q.1, q.2⟩
  else
    let m := (p.2.interpose (p.2.missFirst w pa)).sendMiss w pa
    let a := m.2.takeAnswer w.modify
    match if a.1.later then keep else none with
    | some kind => ⟨false, p.1, a.2.holdMiss ⟨pa, kind, m.1⟩⟩
    | none =>
      let q := a.2.takeFill w m.1 a.1 pa
      ⟨true, p.1 || q.1, q.2⟩

/-! ## Reads of 32 bytes -/

/-- A read of 32 bytes of the memory-like region through the Scache (R322, R414): what became of it; the data are then what the
caches hold. -/
def State.cachedRead (s : State) (w : Want) (keep : Option MissKind) (pa : PAddr) : Brought :=
  let b := granule pa
  let hit := (s.scLine b).isSome
  let p := s.watch fun u => (u.scLookup w.scCommand pa [b]).noteEvent (.scache false hit)
  if hit then ⟨true, p.1, p.2⟩
  else
    let q := p.2.bringBlock w keep pa
    ⟨q.here, p.1 || q.bad, q.after⟩

/-- What the pins carry in data cycle `j` of a noncached fill; what the system does not give is any value (R326, R390). -/
def State.deviceBeat (s : State) (a : SysAnswer) (j : Nat) : Beat :=
  let d := Config.freeWord (s.freeCount + 2 * j) ++ Config.freeWord (s.freeCount + 2 * j + 1)
  a.beats.getD j ⟨d, checkOf s.eccMode d, false⟩

/-- The 32 bytes of a noncached fill (R324, R434): two data cycles, the octaword of the address first. -/
def State.deviceData (s : State) (a : SysAnswer) (pa : PAddr) : Hexword :=
  let oct (k : Nat) : BitVec 128 := correctBeat s.eccMode (s.deviceBeat a (wrapStart 2 pa ^^^ k))
  oct 1 ++ oct 0

/-- The fill of 32 bytes of the noncached region, into no cache (R434): its data cycles are checked. With it, whether it met an
error. -/
def State.deviceFill (s : State) (a : SysAnswer) (istream : Bool) (pa : PAddr) : Bool × State :=
  let check (t : State) (j : Nat) : State :=
    t.checkBeat true istream ((pa &&& ~~~31#40) + BitVec.ofNat 40 (16 * (wrapStart 2 pa ^^^ j))) (s.deviceBeat a j)
  s.watch fun u =>
    check (check { u with freeCount := u.freeCount + 4, mchkPending := u.mchkPending || a.fillError } 0) 1

/-- A read of 32 bytes of the noncached region: READ MISS with the quadwords wanted, none for the Istream (R325, R426); what became
of it, and the data if they are there. -/
def State.deviceRead (s : State) (istream : Bool) (keep : Option MissKind) (pa : PAddr) (quads : BitVec 4) : Hexword × Brought :=
  let c := BusEvent.readMiss s.missRegister none false (pa &&& ~~~15#40) quads
  let p := ((s.interpose c).drive c).takeAnswer false
  match if p.1.later then keep else none with
  | some kind => (0#256, ⟨false, false, p.2.holdMiss ⟨pa, kind, 0⟩⟩)
  | none => (p.2.deviceData p.1 pa, ⟨true, (p.2.deviceFill p.1 istream pa).1, (p.2.deviceFill p.1 istream pa).2⟩)

end Sys2Proof.Machine
end

