-- ==== Sys2Proof/Machine/Buffers.lean ====
section
/-! DEFINITION. The buffers between the pipeline and the caches: the write buffer (R55, R340 to R345, R353), the miss address
file (R56, R343, R1039, R1040), the refill buffer and its prefetches (R53, R372), and the transactions their entries become
(R350, R363, R364, R424, R429, R430; notes/assumptions/16.md). -/

namespace Sys2Proof.Machine

/-! ## The write buffer as instructions fill it (R341) -/

/-- An entry of the kind holds data to be written. -/
def WbKind.stores : WbKind → Bool
  | .store | .cond _ => true
  | .fetch | .fetchM => false

/-- The entry holds data to be written. -/
def WbEntry.stores (e : WbEntry) : Bool := e.kind.stores

/-- The entry is that of an STx_C. -/
def WbEntry.isCond (e : WbEntry) : Bool :=
  match e.kind with
  | .cond _ => true
  | .store | .fetch | .fetchM => false

/-- The entry takes further stores: it holds stores and its no-merge bit is clear. -/
def WbEntry.mergeable (e : WbEntry) : Bool := e.kind == .store && !e.closed

/-- The buffer, newest entry first, with a store merged into the newest entry of its block, if that is open. -/
def wbMerge (b : Block) (mask : BitVec 8) (data : Hexword) : List WbEntry → Option (List WbEntry)
  | [] => none
  | e :: rest =>
    if e.stores && e.block == b then
      if e.mergeable then some ({ e with mask := e.mask ||| mask, data := mergeHex e.data data mask } :: rest) else none
    else (wbMerge b mask data rest).map (e :: ·)

/-- MAF_MODE<WB_NOMERGE> (R226). -/
def State.wbNoMerge (s : State) : Bool := s.mbox.mafMode.getLsbD 2

/-- Some entry is for a block, whatever it holds (R343, R1045, R1047). -/
def State.wbHolds (s : State) (b : Block) : Bool := s.wb.any fun e => e.block == b

/-- Allocate an entry: it gets the WMB flag after a WMB, and that of a store also if another entry is for its block (R341, R353,
R1045). -/
def State.wbAllocate (s : State) (b : Block) (kind : WbKind) (mask : BitVec 8) (data : Hexword) : State :=
  { s with wb := ⟨b, kind, mask, data, s.wbFence || (kind.stores && s.wbHolds b), s.wbNoMerge⟩ :: s.wb, wbFence := false }

/-- A store enters the write buffer: merged, or in an entry of its own (R341). -/
def State.wbStore (s : State) (b : Block) (mask : BitVec 8) (data : Hexword) : State :=
  match if s.wbNoMerge then none else wbMerge b mask data s.wb with
  | some l => { s with wb := l }
  | none => s.wbAllocate b .store mask data

/-- WMB: no entry takes further stores, and the next one gets the WMB flag (R353). -/
def State.wbBarrier (s : State) : State :=
  { s with wb := s.wb.map fun e => { e with closed := true }, wbFence := true }

/-- What a block holds once the entries, newest first, have been written over it. -/
def wbOverlay (b : Block) (h : Hexword) : List WbEntry → Hexword
  | [] => h
  | e :: rest => if e.stores && e.block == b then mergeHex (wbOverlay b h rest) e.data e.mask else wbOverlay b h rest

/-- What this processor sees of a block behind the Dcache: the write buffer over the caches and main memory (R322, R343). -/
def State.sees (s : State) (b : Block) : Hexword := wbOverlay b (s.below b) s.wb

/-! ## The refill buffer (R53) -/

/-- The instructions of a block. -/
def insnsOf (h : Hexword) : Vector Longword 8 := Vector.ofFn fun k : Fin 8 => hexLong h k.val

/-- A block enters the refill buffer, which holds four. -/
def State.refillPut (s : State) (b : Block) (h : Hexword) : State :=
  let old := s.icache.refill.filter (·.block != b)
  { s with icache := { s.icache with refill := (⟨b, insnsOf h, 0, false⟩ :: old).take 4 } }

/-- The data of an Istream read that met an error may have been taken, or not (R903, R904, R909, R911): the choice is free. -/
def State.ifTaken (s : State) (bad : Bool) (take : State → State) : State :=
  if bad then (if s.freeNow.getLsbD 0 then (take s).drawn else s.drawn) else take s

/-! ## The miss address file (R56) -/

/-- MAF_MODE allows loads of the noncached region to merge: neither DREAD_NOMERGE nor IO_NMERGE is set (R226, R1040). -/
def State.ioMerges (s : State) : Bool := !s.mbox.mafMode.getLsbD 0 && !s.mbox.mafMode.getLsbD 3

/-- The destination is an integer register. -/
def LoadTarget.isInt : LoadTarget → Bool
  | .int .. => true
  | .fp .. => false

/-- Two loads are of the same location: one quadword, and one longword of it unless one of them is a quadword load (R1038 (3)). -/
def MafLoad.overlaps (l m : MafLoad) : Bool :=
  l.pa.extractLsb' 3 37 == m.pa.extractLsb' 3 37 && (l.quad || m.quad || l.pa.getLsbD 2 == m.pa.getLsbD 2)

/-- A load may share the entry of another (R1039): another quadword, the same size, for longwords the same half, and both
integer or both floating. -/
def MafLoad.joins (l m : MafLoad) : Bool :=
  l.pa.extractLsb' 3 2 != m.pa.extractLsb' 3 2 && l.quad == m.quad && (l.quad || l.pa.getLsbD 2 == m.pa.getLsbD 2) &&
    l.target.isInt == m.target.isInt

/-- The entries, the oldest first, with a load that is merged into the one of its block, or in an entry of its own; `conflict` is its
conflict bit. -/
def mafAdd (l : MafLoad) (locked conflict merges : Bool) : List MafEntry → List MafEntry
  | [] => [⟨granule l.pa, [l], locked, conflict⟩]
  | e :: rest =>
    if merges && !locked && !e.locked && e.block == granule l.pa && e.loads.all l.joins then
      { e with loads := e.loads ++ [l], conflict := e.conflict || conflict } :: rest
    else e :: mafAdd l locked conflict merges rest

/-- The request in a miss register. -/
def State.missOf (s : State) (register : Bool) : Option Miss := if register then s.miss1 else s.miss0

/-- The loads that wait for the fill of a miss register. -/
def State.missLoads (s : State) (register : Bool) : List MafLoad :=
  match s.missOf register with
  | some ⟨_, .load e, _⟩ => e.loads
  | _ => []

/-- The loads that wait, in the miss address file or for the fill of a miss register. -/
def State.loadsWaiting (s : State) : List MafLoad := s.maf.flatMap (·.loads) ++ (s.missLoads false ++ s.missLoads true)

/-- A load that waits is of the same location (R1038 (3)). -/
def State.mafMatches (s : State) (l : MafLoad) : Bool := s.loadsWaiting.any l.overlaps

/-- A load miss enters the miss address file. It merges with no entry if a load that waits is of the same location, so that the two
are performed in issue order (R346 (a), R1038 (3)). Loads of the memory-like region never merge in this model (R347; DESIGN
CHOICE, notes/assumptions/16.md). -/
def State.mafPush (s : State) (l : MafLoad) (locked : Bool) : State :=
  { s with maf := mafAdd l locked (s.wbHolds (granule l.pa)) (s.ioMerges && l.pa.getLsbD 39 && !s.mafMatches l) s.maf }

/-- Deliver any datum of the size of a load. -/
def State.deliverAny (s : State) (t : LoadTarget) (quad : Bool) : State :=
  (s.deliver t (if quad then s.freeNow else (s.freeNow.setWidth 32).setWidth 64)).drawn

/-- Deliver the data of a fill to a load that waits for it (R56); if the fill met an error the register gets any value
(R905 to R911; 93_implementation_defined.md 1.5). -/
def State.deliverFill (s : State) (bad : Bool) (h : Hexword) (l : MafLoad) : State :=
  if bad then s.deliverAny l.target l.quad else s.deliver l.target (hexDatum l.quad l.pa h)

/-! ## Misses whose fill is outstanding (R401, R427) -/

/-- The miss register without its request. -/
def State.clearMiss (s : State) (register : Bool) : State :=
  if register then { s with miss1 := none } else { s with miss0 := none }

/-- Who waits for the fill of a miss register. -/
def MissKind.want : MissKind → Want
  | .prefetch => .prefetch
  | .load _ => .load
  | .store => .store

/-- The data of a request have come: a prefetched block goes into the refill buffer (R372); the loads get their data, and the Dcache
takes their block, unless it is noncached or the conflict bit was set (R322, R343). -/
def State.arrives (s : State) (kind : MissKind) (pa : PAddr) (bad : Bool) (h : Hexword) : State :=
  match kind with
  | .prefetch => s.ifTaken bad fun t => t.refillPut (granule pa) h
  | .load e => e.loads.foldl (fun t l => t.deliverFill bad h l) (if e.conflict || pa.getLsbD 39 then s else s.dcFill pa h)
  | .store => s

/-- The fill of a miss register (R427): the block goes where its kind says. -/
def State.takeMiss (s : State) (register : Bool) (a : SysAnswer) : State :=
  match s.missOf register with
  | none => s
  | some m =>
    let s1 := s.clearMiss register
    if regionOf m.pa = .memory then
      let p := s1.takeFill m.kind.want m.way a m.pa
      p.2.arrives m.kind m.pa p.1 (s1.fillData a m.pa (granule m.pa))
    else
      let p := s1.deviceFill a m.kind.want.istream m.pa
      p.2.arrives m.kind m.pa p.1 (s1.deviceData a m.pa)

/-- The fill of a miss register with the next answer of the system: what the answer says of commands before it and of a later fill
does not count there. -/
def State.awaitMiss (s : State) (register : Bool) : State :=
  match s.missOf register with
  | none => s
  | some m => (s.takeAnswer m.kind.want.modify).2.takeMiss register (s.takeAnswer m.kind.want.modify).1

/-- The request in a miss register stands in the way of an address: it is for a block of the same Scache index, or for the same
noncached block. -/
def State.missFor (s : State) (register : Bool) (pa : PAddr) : Bool :=
  match s.missOf register with
  | some m =>
    if m.pa.getLsbD 39 || pa.getLsbD 39 then granule m.pa == granule pa else scIndex (granule m.pa) == scIndex (granule pa)
  | none => false

/-- Before any command other than READ MISS and BCACHE VICTIM the outstanding fills arrive (R467, item 2). -/
def State.awaitFills (s : State) : State := (s.awaitMiss false).awaitMiss true

/-- Serving an address may write back the victim buffer: it is full, or it holds the block. -/
def State.victimsDue (s : State) (pa : PAddr) : Bool :=
  decide (2 ≤ s.victims.length) || s.victims.any fun l => l.holds (granule pa)

/-- Before the Cbox serves an address, an outstanding fill that stands in its way arrives, and all of them if a victim may have to be
written back (R467, item 2); and if both miss registers are taken, that of register 0 (DESIGN CHOICE: R401 does not say which;
notes/assumptions/16.md). -/
def State.readyMiss (s : State) (pa : PAddr) : State :=
  let s0 := if s.victimsDue pa then s.awaitFills else s
  let s1 := if s0.missFor false pa || (s0.miss0.isSome && s0.miss1.isSome) then s0.awaitMiss false else s0
  if s1.missFor true pa then s1.awaitMiss true else s1

/-- A miss register holds the READ MISS of a store. -/
def State.storeMiss (s : State) (register : Bool) : Bool :=
  match s.missOf register with
  | some m => m.kind == .store
  | none => false

/-- The fill that the oldest store waits for arrives. -/
def State.awaitStore (s : State) : State :=
  if s.storeMiss false then s.awaitMiss false else if s.storeMiss true then s.awaitMiss true else s

/-- The fills that loads wait for arrive. -/
def State.awaitLoadFills (s : State) : State :=
  let s1 := if s.missLoads false ≠ [] then s.awaitMiss false else s
  if s1.missLoads true ≠ [] then s1.awaitMiss true else s1

/-! ## What holds a request back (R226, R467) -/

/-- The Cbox starts nothing on the external interface or in the Bcache: idle_bc_h is asserted (R467, item 3). -/
def State.biuHeld (s : State) : Bool := s.pins.idleBc

/-- MAF_MODE<MAF_ARB_DISABLE>: no load miss and no write-buffer entry is sent (R226). -/
def State.arbDisabled (s : State) : Bool := s.mbox.mafMode.getLsbD 5

/-! ## Prefetches (R372) -/

/-- The request in a miss register is for the block of an address. -/
def State.missIs (s : State) (register : Bool) (pa : PAddr) : Bool :=
  match s.missOf register with
  | some m => granule m.pa == granule pa
  | none => false

/-- One prefetch: from the caches at once, or by READ MISS; a prefetch in the register region is dropped, and one of a block that is
already on its way. None while it must wait: for a miss register, for another fill of its Scache index or before a victim, or for
idle_bc_h. -/
def State.sendPrefetch (s : State) (pa : PAddr) : Option State :=
  let register := s.missRegister
  let full := s.miss0.isSome && s.miss1.isSome
  match regionOf pa with
  | .cbox => some s
  | .noncached =>
    if full || s.biuHeld then none
    else some ((s.drive (.readMiss register none false (pa &&& ~~~15#40) 0#4)).holdMiss ⟨pa, .prefetch, 0⟩)
  | .memory =>
    if s.missIs false pa || s.missIs true pa then some s
    else if (s.scLine (granule pa)).isNone && (s.biuHeld || s.missFor false pa || s.missFor true pa ||
        (s.victimsDue pa && (s.miss0.isSome || s.miss1.isSome))) then none
    else if (s.scLine (granule pa)).isSome || (s.bcEnabled && s.bcHit (granule pa)) then
      let p := s.cachedRead .fetch none pa
      some (p.after.arrives .prefetch pa p.bad (p.after.below (granule pa)))
    else if full then none
    else
      let s1 := (s.scLookup .iread pa [granule pa]).noteEvent (.scache false false)
      let p := (if s.bcEnabled then s1.bcProbe true false pa else s1).sendMiss .prefetch pa
      some (p.2.holdMiss ⟨pa, .prefetch, p.1⟩)

/-- The prefetches that wait in the miss address file are sent, the oldest first, as they can be. -/
def State.sendPrefetches (s : State) : List PAddr → State
  | [] => { s with imaf := [] }
  | pa :: rest =>
    match s.sendPrefetch pa with
    | some t => State.sendPrefetches t rest
    | none => { s with imaf := pa :: rest }

/-! ## Sending a write-buffer entry -/

/-- The address of the first longword of an entry. -/
def WbEntry.address (e : WbEntry) : PAddr :=
  granuleAddr e.block + BitVec.ofNat 40 (4 * ((List.range 8).findIdx fun k => e.mask.getLsbD k))

/-- The block of an entry lies in the noncached region. -/
def WbEntry.noncached (e : WbEntry) : Bool := e.block.getLsbD 34

/-- What one attempt to write a block leads to: it is done, with success or without; the block is now in another state, so that the
Mbox sends the entry again (R356, R1046); or the entry waits for a fill. -/
inductive Attempt where
  | done (success : Bool) (s : State)
  | again (s : State)
  | waits (s : State)

/-- The block as an entry will leave it. -/
def State.newData (s : State) (e : WbEntry) (g : Block) : Hexword :=
  if g = e.block then mergeHex (s.below g) e.data e.mask else s.below g

/-- WRITE BLOCK with the whole block as an entry will leave it. -/
def State.blockWrite (s : State) (e : WbEntry) : BusEvent :=
  .writeBlock (s.blockOf (granuleAddr e.block)) ((s.blockGranules e.block).flatMap fun g => cyclesOf 0xFF#8 (s.newData e g))

/-- A write to a shared block (R350, R429): WRITE BLOCK, for which a victim buffer is free (R401); cfail_h with cack_h fails an STx_C
(R363). The system says whether the block stays shared; memory and the Bcache hold the data too, so it is not dirty. -/
def State.writeShared (s : State) (w : Want) (e : WbEntry) : Attempt :=
  let s1 := s.awaitFills.victimRoom
  if s1.before ≠ [] then .again (s1.interpose (s1.blockWrite e))
  else
    let p := ((s1.noteEvent .sharedWrite).drive (s1.blockWrite e)).takeAnswer false
    if w = .cond ∧ p.1.cfail = true then .done false p.2
    else
      .done true ((s1.blockGranules e.block).foldl (fun t g =>
        let t1 := t.scUpdate g fun x =>
          { x.written t.scForcedBad (if g = e.block then e.mask else 0#8) (s1.newData e g) with
            shared := p.1.shared, dirty := false, modified := 0#2 }
        let t2 := if t1.bcEnabled then t1.bcWrite g 3#2 (s1.newData e g) p.1.shared false else t1
        t2.writeMem g 0xFF#8 (s1.newData e g)) p.2)

/-- A write to a private block: the whole cache block is dirty then (R350, R413). -/
def State.writeOwned (s : State) (e : WbEntry) : State :=
  (s.blockGranules e.block).foldl (fun t g => t.scUpdate g fun x =>
    if g = e.block then { x.written t.scForcedBad e.mask e.data with dirty := true } else { x with dirty := true }) s

/-- A write to a private clean block where SET DIRTY is enabled (R430): it is acknowledged first. -/
def State.writeClean (s : State) (e : WbEntry) : Attempt :=
  let s1 := s.awaitFills
  let c := BusEvent.setDirty (s.blockOf (granuleAddr e.block))
  if s1.before ≠ [] then .again (s1.interpose c) else .done true (((s1.drive c).takeAnswer false).2.writeOwned e)

/-- One attempt to write a block (R323, R350, R363): an absent one is brought in with intent to modify; a shared one is written
through; a clean one is made dirty, by SET DIRTY where that is enabled (R430). The parity of what is read is checked: 32 bytes, or
for a WRITE BLOCK the whole block (R905). -/
def State.tryWrite (s : State) (w : Want) (e : WbEntry) : Attempt :=
  match s.scFind e.block with
  | none =>
    let p := ((s.scLookup .dwrite e.address []).noteEvent (.scache true false)).bringBlock w
      (if w = .store then some .store else none) e.address
    if p.here then .again p.after else .waits p.after
  | some l =>
    let x := l.sub e.block
    let s1 := (s.scLookup .dwrite e.address (if x.shared then s.blockGranules e.block else [e.block])).noteEvent
      (.scache true true)
    if x.shared then s1.writeShared w e
    else if x.dirty || !s.eiCmdGrp2 then .done true (s1.writeOwned e)
    else s1.writeClean e

/-- Attempts until the write is done or must wait; an STx_C fails as soon as the lock flag is clear (R363). -/
def State.writeLoop : Nat → State → Want → WbEntry → Attempt
  | 0, s, _, _ => .waits s
  | n + 1, s, w, e =>
    if w = .cond ∧ s.lockFlag = false then .done false s
    else
      match s.tryWrite w e with
      | .again t => State.writeLoop n t w e
      | r => r

/-- An entry reaches the Scache. Each answer of the system can send the entry round twice at most: by a command that comes before it,
and by a fill. -/
def State.writeScache (s : State) (w : Want) (e : WbEntry) : Attempt :=
  if s.scFhit then .done true ((s.scForcedStore e.block e.mask e.data).noteEvent (.scache true true))
  else State.writeLoop (2 * s.answers.length + 3) (s.readyMiss e.address) w e

/-- The system acknowledges a write of noncached data; its own commands may come before (R324, R429, R467). -/
def State.writeDevice (s : State) (c : BusEvent) : State := (s.awaitFills.interpose c).drive c

/-- An entry is sent to the Cbox (R342); with it, whether it is done. The store of an STx_C succeeds if the lock flag is set when its
turn comes, after every older entry, and nothing on the way clears it; the flag is cleared then (R361, R363). In the noncached region
the flag counts for nothing: the success is the system's to decide, and free where the environment does not (R364). -/
def State.sendEntry (s : State) (e : WbEntry) : Bool × State :=
  match e.kind with
  | .fetch => (true, s.awaitFills.drive (.fetch (s.blockOf (granuleAddr e.block))))
  | .fetchM => (true, s.awaitFills.drive (.fetchM (s.blockOf (granuleAddr e.block))))
  | .store =>
    if e.noncached then
      (true, ((s.writeDevice (.writeBlock (granuleAddr e.block) (cyclesOf e.mask e.data))).takeAnswer false).2)
    else
      match s.writeScache .store e with
      | .done _ t => (true, t)
      | .again t | .waits t => (false, t)
  | .cond dest =>
    if e.noncached then
      let s1 := s.writeDevice (.writeBlockLock (granuleAddr e.block) (cyclesOf e.mask e.data))
      match s1.answers with
      | [] => (true, s1)
      | a :: rest => (true, State.writeSlot { s1 with answers := rest } dest (ofBool64 (!a.cfail)))
    else if e.mask = 0#8 then (true, s.dropLock.writeSlot dest 0#64)
    else
      match s.writeScache .cond e with
      | .done success t => (true, t.dropLock.writeSlot dest (ofBool64 success))
      | .again t | .waits t => (false, t)

/-- Sending an entry takes a transaction on the external interface, or the Bcache. -/
def State.entryNeedsBiu (s : State) (e : WbEntry) : Bool :=
  if !e.stores || e.noncached then true
  else if s.scFhit || (e.isCond && (e.mask == 0#8 || !s.lockFlag)) then false
  else
    match s.scFind e.block with
    | none => true
    | some l => (l.sub e.block).shared || (!(l.sub e.block).dirty && s.eiCmdGrp2)

/-- The oldest entry cannot be sent now: MAF_ARB_DISABLE, idle_bc_h, or its own fill outstanding. -/
def State.entryHeld (s : State) (e : WbEntry) : Bool :=
  s.arbDisabled || (s.biuHeld && s.entryNeedsBiu e) || s.storeMiss false || s.storeMiss true

/-- The oldest entry is sent, if it can be. -/
def State.drainOne (s : State) : State :=
  match s.wb.getLast? with
  | none => s
  | some e =>
    if s.entryHeld e then s
    else
      let p := State.sendEntry { s with wb := s.wb.dropLast } e
      if p.1 then p.2 else { p.2 with wb := p.2.wb ++ [e] }

/-- So many entries are sent, the oldest first (R344), as they can be; if they must be, the fill of an outstanding store arrives
first. -/
def State.drainWb (s : State) (must : Bool) : Nat → State
  | 0 => s
  | n + 1 => (if must then s.awaitStore else s).drainOne.drainWb must n

/-- The entries up to the newest of a block are sent (R343, R1047). -/
def State.drainFor (s : State) (b : Block) : State :=
  s.drainWb true (s.wb.length - s.wb.findIdx fun e => e.block == b)

/-! ## Serving load misses (R56) -/

/-- LDx_L takes the lock (R360). -/
def State.takeLock (s : State) (pa : PAddr) : State := { s with lockFlag := true, lockAddr := pa }

/-- The LOCK command is driven when BC_CONTROL<EI_CMD_GRP2> is set, and only then (R360, R367). -/
def State.driveLock (s : State) (pa : PAddr) : State :=
  if s.eiCmdGrp2 then s.awaitFills.drive (.lock (s.blockOf pa)) else s

/-- The quadwords that the loads of an entry want (R325). -/
def quadsOf (loads : List MafLoad) : BitVec 4 := loads.foldl (fun q l => q ||| (1#4 <<< (l.pa.extractLsb' 3 2).toNat)) 0#4

/-- The load miss needs the Bcache or the external interface. -/
def State.loadNeedsBiu (s : State) (e : MafEntry) (pa : PAddr) : Bool :=
  pa.getLsbD 39 || (s.scLine e.block).isNone || (e.locked && s.eiCmdGrp2)

/-- The read of a load miss: from the Scache or beyond (R322), or one READ MISS for all the loads of a noncached entry (R325, R434).
That of an LDx_L sets the lock, and drives LOCK before it (R360; DESIGN CHOICE: R430 gives no order of LOCK and the read;
notes/assumptions/17.md). -/
def State.readMaf (s : State) (e : MafEntry) (pa : PAddr) : State :=
  let s1 := if e.locked then (s.driveLock pa).takeLock pa else s
  if pa.getLsbD 39 then
    let p := s1.deviceRead false (some (.load e)) pa (quadsOf e.loads)
    if p.2.here then p.2.after.arrives (.load e) pa p.2.bad p.1 else p.2.after
  else
    let p := s1.cachedRead .load (some (.load e)) pa
    if p.here then p.after.arrives (.load e) pa p.bad (p.after.below e.block) else p.after

/-- An entry of the miss address file is served, if it can be; with it, whether it was. The write-buffer entries of its block go first
(R343, R1047); an LDx_L has one entry sent in any case (R342). -/
def State.serveMiss (s : State) (e : MafEntry) : Bool × State :=
  match e.loads with
  | [] => (true, s)
  | l :: _ =>
    if s.arbDisabled then (false, s)
    else
      let s1 := if e.locked then s.drainOne else s
      let s2 := (if s1.wbHolds e.block then s1.drainFor e.block else s1).readyMiss l.pa
      if s2.wbHolds e.block || (s2.biuHeld && s2.loadNeedsBiu e l.pa) then (false, s2) else (true, s2.readMaf e l.pa)

/-- The load misses are served, the oldest first, as they can be. -/
def State.serveAll (s : State) : List MafEntry → State
  | [] => { s with maf := [] }
  | e :: rest =>
    let p := s.serveMiss e
    if p.1 then p.2.serveAll rest else { p.2 with maf := e :: rest }

/-- All load misses are served, as they can be. -/
def State.serveMisses (s : State) : State := s.serveAll s.maf

/-! ## What instructions wait for -/

/-- The register that the success of an entry goes to. -/
def WbEntry.condTarget (e : WbEntry) : Option LoadTarget :=
  match e.kind with
  | .cond dest => some (.int dest false)
  | .store | .fetch | .fetchM => none

/-- The registers whose contents are still on their way: of loads, and of an STx_C. -/
def State.awaited (s : State) : List LoadTarget :=
  s.loadsWaiting.map (·.target) ++ s.wb.filterMap WbEntry.condTarget

/-- Nothing is on its way. -/
def State.drained (s : State) : Bool := s.maf.isEmpty && s.awaited.isEmpty

end Sys2Proof.Machine
end

