-- ==== Sys2Proof/Machine/CboxRegs.lean ====
section
/-! DEFINITION. The nine Cbox registers (R240 to R256): what a load returns, what a store does, and the order R241 prescribes
around stores to SC_CTL, BC_CONTROL and BC_CONFIG. -/

namespace Sys2Proof.Machine

/-! ## Addresses -/

/-- The registers of the region FF FFF0 0000 to FF FFFF FFFF (R240, R303). -/
inductive CboxReg where
  | scCtl | scStat | scAddr | bcControl | bcConfig | bcTagAddr | eiStat | eiAddr | fillSyn
  deriving DecidableEq, Repr

/-- The physical address of a register (R240). -/
def CboxReg.address : CboxReg → PAddr
  | .scCtl => 0xFFFFF000A8#40
  | .scStat => 0xFFFFF000E8#40
  | .scAddr => 0xFFFFF00188#40
  | .bcControl => 0xFFFFF00128#40
  | .bcConfig => 0xFFFFF001C8#40
  | .bcTagAddr => 0xFFFFF00108#40
  | .eiStat => 0xFFFFF00168#40
  | .eiAddr => 0xFFFFF00148#40
  | .fillSyn => 0xFFFFF00068#40

/-- The nine registers. -/
def CboxReg.all : List CboxReg :=
  [.scCtl, .scStat, .scAddr, .bcControl, .bcConfig, .bcTagAddr, .eiStat, .eiAddr, .fillSyn]

/-- The register whose quadword holds an address, if it is one of the nine (R240). -/
def cboxReg (pa : PAddr) : Option CboxReg := CboxReg.all.find? fun r => r.address == (pa &&& ~~~7#40)

/-! ## Loads -/

/-- The unused bits of BC_TAG_ADDR, which are zero (R253). -/
def State.bcUnusedTag (s : State) : Word := place s.bcUnused 20

/-- EI_STAT after a load of it, and whether it stays locked (R254). -/
def eiAfterRead (stat : BitVec 8) : BitVec 8 × Bool :=
  if stat.getLsbD 3 && (stat &&& 0b00110011#8 != 0#8) then (stat &&& ~~~8#8, true) else (0#8, false)

/-- The bits of a register that the spec states, and which they are; the others are UNPREDICTABLE (R240 to R256). -/
def State.cboxView (s : State) : CboxReg → Word × Word
  | .scCtl => (s.cbox.scCtl.setWidth 64, 0x7FFFF#64)
  | .scStat => (s.cbox.scStat.setWidth 64, 0x1FFFF#64)
  | .scAddr =>
    (s.cbox.scAddr &&& 0x7FFFFFFFFF#64, if s.scFhit || s.cbox.scLock then 0xFFFFFFFFF0#64 else 0x8000000000#64)
  | .bcControl => (0#64, 0#64)
  | .bcConfig => (0#64, 0#64)
  | .bcTagAddr => (s.cbox.bcTagAddr &&& ~~~s.bcUnusedTag, 0x7FFFF3F000#64)
  | .eiStat => (place (s.cbox.eiStat ++ 4#4) 24, 0xFFF000000#64)
  | .eiAddr => (place s.cbox.eiAddr 4, 0xFFFFFFFFF0#64)
  | .fillSyn => (s.cbox.fillSyn.setWidth 64, 0xFFFF#64)

/-- What reading a register does: SC_STAT clears and unlocks (R243), EI_STAT clears and unlocks by R254; the others do
nothing. -/
def State.cboxAfterRead (s : State) : CboxReg → State
  | .scStat => { s with cbox := { s.cbox with scStat := 0#17, scLock := false } }
  | .eiStat =>
    let p := eiAfterRead s.cbox.eiStat
    { s with cbox := { s.cbox with
        eiStat := p.1
        eiLock := p.2 && s.cbox.eiLock
        bcTagLock := p.2 && s.cbox.bcTagLock } }
  | _ => s

/-- A load of a register: its quadword, with free bits where the spec states none, and the state after it. -/
def State.cboxRead (s : State) (r : CboxReg) : Word × State :=
  (mergeBits (s.cboxView r).1 (s.cboxView r).2 s.freeNow, (s.cboxAfterRead r).drawn)

/-! ## Stores -/

/-- Exactly one Scache set, or all three (R242); exactly one in force-hit mode. -/
def scSetOk (v : Word) : Bool :=
  let e := field v 13 3
  e == 1#3 || e == 2#3 || e == 4#3 || (e == 7#3 && !v.getLsbD 0)

/-- Bcache size and speeds inside the ranges of Table 5-32 (R251; C18 of 90_conflicts.md): a size, both speeds from 4 to 15 cycles
and fewer than four apart, and a read of at least 5 cycles with 32-byte blocks (R418). -/
def bcRangesOk (bigBlocks : Bool) (config : BitVec 29) : Bool :=
  let rd := (config.extractLsb' 4 4).toNat
  let wr := (config.extractLsb' 8 4).toNat
  config.extractLsb' 0 3 != 0#3 && decide (4 ≤ rd) && decide (4 ≤ wr) && decide (rd < wr + 4) && decide (wr < rd + 4) &&
    (bigBlocks || decide (5 ≤ rd))

/-- What an enabled Bcache needs: those ranges, a repetition rate of at least 4 (R250), and no wave pipelining with 32-byte blocks
(R420). -/
def bcSpeedsOk (bigBlocks : Bool) (control config : BitVec 29) : Bool :=
  let wave := (control.extractLsb' 17 2).toNat
  bcRangesOk bigBlocks config && decide (wave + 4 ≤ (config.extractLsb' 4 4).toNat) && (bigBlocks || wave == 0)

/-- BC_CONFIG of a system without a Bcache (R251, R252): both speeds are the system clock ratio, and BC_SIZE is 0 or names the
victim set of the flush. -/
def bcNoneOk (ratio : BitVec 4) (config : BitVec 29) : Bool :=
  config.extractLsb' 4 4 == ratio && config.extractLsb' 8 4 == ratio &&
    [0#3, 1#3, 2#3, 4#3].contains (config.extractLsb' 0 3)

/-- A store to SC_CTL, BC_CONTROL or BC_CONFIG that changes a bit comes after an MB, with no load or store between
(R241 (a), (b)). -/
def State.ordered (s : State) (same : Bool) (run : Res State) : Res State :=
  if same || s.afterMb then run else .refused .cboxOrder

/-- What software owes after such a store: an MB before the next load or store; after one that ends a force-hit mode also a load
of SC_STAT or EI_STAT, and an MB before a store (R241 (a), (b), (h), (i)). -/
def State.owe (s : State) (same clears ei : Bool) : State :=
  if same then s else { s with owed := if clears then .mbThenRead ei else .mb }

/-- A store to SC_CTL (R242). With the Bcache enabled its speeds must suit the block size (R251, R418). -/
def State.writeScCtl (s : State) (v : Word) : Res State :=
  if field v 16 3 ≠ 0#3 then .refused .mustBeZeroBit
  else if !scSetOk v then .refused .scacheSetEnable
  else if s.bcEnabled && !bcSpeedsOk (v.getLsbD 12) s.cbox.bcControl s.cbox.bcConfig then .refused .bcacheConfig
  else
    let same := v.setWidth 16 == s.cbox.scCtl
    let t : State := { s with cbox := { s.cbox with scCtl := v.setWidth 16 } }
    s.ordered same (.next (State.owe (if v.getLsbD 1 then t.scFlush else t) same (s.scFhit && !v.getLsbD 0) false))

/-- A store to BC_CONTROL (R248). Entering BC_FHIT mode unlocks BC_TAG_ADDR (R253): a change of BC_CONTROL<7> from 0 to 1 does,
even with BC_ENABLED clear, where the mode is not in force (DESIGN CHOICE: R253 does not say; notes/assumptions/15.md). -/
def State.writeBcControl (s : State) (v : Word) : Res State :=
  if v.getLsbD 25 || v.getLsbD 27 then .refused .mustBeZeroBit
  else if field v 8 5 ≠ 0#5 ∧ v.getLsbD 7 = false then .refused .bcacheTagStat
  else if v.getLsbD 0 && !bcSpeedsOk s.bigBlocks (v.setWidth 29) s.cbox.bcConfig then .refused .bcacheConfig
  else
    let c := s.cbox.bcControl
    s.ordered (v.setWidth 29 == c)
      (.next (State.owe { s with cbox := { s.cbox with
          bcControl := v.setWidth 29
          bcTagLock := s.cbox.bcTagLock && !(v.getLsbD 7 && !c.getLsbD 7) } }
        (v.setWidth 29 == c) (c.getLsbD 7 && !v.getLsbD 7) true))

/-- BC_CONFIG<BC_SIZE>, <BC_RD_SPD> and <BC_WR_SPD> are in range: for an enabled Bcache, for one that is fitted but not enabled, or
for a system that uses none (R251, R252). -/
def State.bcConfigOk (s : State) (config : BitVec 29) : Bool :=
  if s.bcEnabled then bcSpeedsOk s.bigBlocks s.cbox.bcControl config
  else bcNoneOk s.pins.sysclkRatio config || (s.bcPresent && bcRangesOk s.bigBlocks config)

/-- A store to BC_CONFIG (R251, R252). -/
def State.writeBcConfig (s : State) (v : Word) : Res State :=
  let c := v.setWidth 29
  if v.getLsbD 3 || v.getLsbD 15 || v.getLsbD 19 then .refused .mustBeZeroBit
  else if !s.bcConfigOk c then .refused .bcacheConfig
  else
    s.ordered (c == s.cbox.bcConfig)
      (.next (State.owe { s with cbox := { s.cbox with bcConfig := c } } (c == s.cbox.bcConfig) false false))

/-- A store to a register; a store to a read-only one is ignored (R240, D4). -/
def State.cboxWrite (s : State) (r : CboxReg) (v : Word) : Res State :=
  match r with
  | .scCtl => s.writeScCtl v
  | .bcControl => s.writeBcControl v
  | .bcConfig => s.writeBcConfig v
  | .scStat | .scAddr | .bcTagAddr | .eiStat | .eiAddr | .fillSyn => .next s

end Sys2Proof.Machine
end

