-- ==== Sys2Proof/Machine/Access.lean ====
section
/-! DEFINITION. Loads, stores, load-locked and store-conditional at a physical address as the Mbox performs them (R320 to R328,
R340, R360 to R366), and the whole Dstream access of an instruction (R300). What the buffers they fill do next is
Machine/Settle.lean. -/

namespace Sys2Proof.Machine

/-- The datum of an access within the aligned quadword that holds it (R326). -/
def pick (quad : Bool) (pa : PAddr) (q : Word) : Word := if quad then q else (longOf q (pa.getLsbD 2)).setWidth 64

/-- How many bytes an access moves (R307). -/
def sizeOf (quad : Bool) : Nat := if quad then 8 else 4

/-! ## The memory-like region (R321 to R323, R340) -/

/-- A load that misses the Dcache: it enters the miss address file, and delivers what this processor sees of its block; the
fill delivers again what the block turns out to hold (R322, R343). Loads are performed in program order, also against what
other agents write (DESIGN CHOICE: R346 (b) lets a later load of another address be performed first;
notes/assumptions/16.md). -/
def State.loadMiss (s : State) (quad locked : Bool) (t : LoadTarget) (pa : PAddr) : State :=
  (s.mafPush ⟨pa, quad, t⟩ locked).deliver t (hexDatum quad pa (s.sees (granule pa)))

/-- A load in force-hit mode: any value (R215: "all Dstream references"; R383; 93_implementation_defined.md 1.3); parity errors are
reported as in any other mode (R215). -/
def State.loadForced (s : State) (r : Ref) (t : LoadTarget) (pa : PAddr) : State :=
  let p := s.dcReference r.quad false pa
  (if p.1.errors ≠ 0#4 then p.2.dcError p.1.errors r.va r.write r.ra r.opcode else p.2).deliverAny t r.quad

/-- A load from the memory-like region. An LDx_L takes the lock and misses the Dcache (R360); any other load is served by a
Dcache hit, unless a load of the same location waits (R1038 (3)). In force-hit mode an LDx_L takes the lock and hits all the same
(DESIGN CHOICE: R215 forces the hit, R360 the miss; notes/assumptions/13.md). A Dcache parity error gives any value and MCHK (R907,
R908). -/
def State.loadMemory (s : State) (r : Ref) (locked : Bool) (t : LoadTarget) (pa : PAddr) : State :=
  if s.dcForced then (if locked then s.takeLock pa else s).loadForced r t pa
  else if locked then (s.takeLock pa).loadMiss r.quad true t pa
  else
    let p := s.dcReference r.quad false pa
    if p.1.errors ≠ 0#4 then (p.2.dcError p.1.errors r.va r.write r.ra r.opcode).deliverAny t r.quad
    else if p.1.hit && !s.mafMatches ⟨pa, r.quad, t⟩ then p.2.deliver t (hexDatum r.quad pa p.1.data)
    else p.2.loadMiss r.quad false t pa

/-- The store instructions of floating-point registers, whose Dcache data parity DC_BAD_PARITY does not invert (R215). -/
def Ref.integer (r : Ref) : Bool := r.opcode.extractLsb' 2 4 != 9#4

/-- A store to the memory-like region: the Dcache, if it hits, and the write buffer (R323, R340). -/
def State.storeMemory (s : State) (r : Ref) (pa : PAddr) (v : Word) : State :=
  let p := s.dcReference r.quad true pa
  let s1 := (p.2.dcStore r.integer r.quad pa v).wbStore (granule pa) (longsOf r.quad pa) (blockData r.quad pa v)
  if p.1.errors = 0#4 then s1 else s1.dcError p.1.errors r.va true r.ra r.opcode

/-- A store-conditional to the memory-like region: it waits in a write-buffer entry of its own, and is decided when that entry is sent,
after every older one; until then no instruction sees Ra, which holds the lock flag as it stands (R363, R366). The Dcache copy is
invalidated in all cases; its tag's parity is not checked (DESIGN CHOICE: R363 and R908 do not say; notes/assumptions/13.md). -/
def State.condMemory (s : State) (r : Ref) (pa : PAddr) (v : Word) : State :=
  let mask := if s.lockFlag then longsOf r.quad pa else 0#8
  let slot := s.intSlot r.ra
  ((s.dcInvalidate pa).wbAllocate (granule pa) (.cond slot) mask (blockData r.quad pa v)).writeSlot slot (ofBool64 s.lockFlag)

/-! ## The noncached region (R324 to R327, R364) -/

/-- A noncached load: it enters the miss address file; what it delivers is any value until the system answers (R326, R390). In
force-hit mode it hits the Dcache (R215). -/
def State.loadNoncached (s : State) (r : Ref) (locked : Bool) (t : LoadTarget) (pa : PAddr) : State :=
  let s1 := if locked then s.takeLock pa else s
  if s.dcForced then s1.loadForced r t pa else (s1.mafPush ⟨pa, r.quad, t⟩ locked).deliverAny t r.quad

/-- A noncached store: into the write buffer, whose entry becomes WRITE BLOCK with the longword mask (R327). The longwords it
does not name are zero on data_h (DESIGN CHOICE: R429 calls them not valid; notes/assumptions/17.md). In force-hit mode it hits the
Dcache too (R215). -/
def State.storeNoncached (s : State) (r : Ref) (pa : PAddr) (v : Word) : State :=
  if s.dcForced then s.storeMemory r pa v else s.wbStore (granule pa) (longsOf r.quad pa) (blockData r.quad pa v)

/-- A noncached store-conditional: WRITE BLOCK LOCK; the system decides, and until it does the success is any (R364). -/
def State.condNoncached (s : State) (r : Ref) (pa : PAddr) (v : Word) : State :=
  let slot := s.intSlot r.ra
  ((s.dropLock.wbAllocate (granule pa) (.cond slot) (longsOf r.quad pa) (blockData r.quad pa v)).writeSlot slot
    (ofBool64 (s.freeNow.getLsbD 0))).drawn

/-! ## The register region (R328, R240) -/

/-- A load of SC_STAT or EI_STAT pays what software owes (R241 (h), (i)). -/
def State.payRead (s : State) (r : CboxReg) : State :=
  if (s.owed = .read false ∧ r = .scStat) ∨ (s.owed = .read true ∧ r = .eiStat) then { s with owed := .mbBeforeStore } else s

/-- A load of a Cbox register; a longword load carries the addressed half (D12). -/
def State.loadCbox (s : State) (quad locked : Bool) (t : LoadTarget) (pa : PAddr) : Res State :=
  match cboxReg pa with
  | none => .fault .cboxNoSuchRegister
  | some r =>
    if locked then .refused .lockAtCboxRegister
    else if s.allocCyc then .refused .cboxReadWithAllocCyc
    else .next (((s.cboxRead r).2.payRead r).deliver t (pick quad pa (s.cboxRead r).1))

/-- The quadword a store to a register carries: a longword store leaves the other half free (D12, R240). -/
def State.cboxDatum (s : State) (quad : Bool) (pa : PAddr) (v : Word) : Word :=
  if quad then v
  else if pa.getLsbD 2 then joinLongs (v.setWidth 32) (longOf s.freeNow false)
  else joinLongs (longOf s.freeNow true) (v.setWidth 32)

/-- A store to a Cbox register. -/
def State.storeCbox (s : State) (quad : Bool) (pa : PAddr) (v : Word) : Res State :=
  match cboxReg pa with
  | none => .fault .cboxNoSuchRegister
  | some r => (if quad then s else s.drawn).cboxWrite r (s.cboxDatum quad pa v)

/-- A store-conditional in the register region has no meaning (R241 (e)). -/
def condCbox (pa : PAddr) : Res State :=
  match cboxReg pa with
  | none => .fault .cboxNoSuchRegister
  | some _ => .refused .lockAtCboxRegister

/-! ## Any region -/

/-- A load at a translated address (R300 steps 6 and 7). -/
def State.loadAt (s : State) (r : Ref) (locked : Bool) (t : LoadTarget) (pa : PAddr) : Res State :=
  let a := s.accessAddress r.quad pa
  match regionOf a with
  | .memory => .next (s.loadMemory r locked t a)
  | .noncached => .next (s.loadNoncached r locked t a)
  | .cbox => s.loadCbox r.quad locked t a

/-- A store at a translated address. -/
def State.storeAt (s : State) (r : Ref) (pa : PAddr) (v : Word) : Res State :=
  let a := s.accessAddress r.quad pa
  match regionOf a with
  | .memory => .next (s.storeMemory r a v)
  | .noncached => .next (s.storeNoncached r a v)
  | .cbox => s.storeCbox r.quad a v

/-- A store-conditional at a translated address; in a force-hit mode none may go to cacheable space (R241 (g)). -/
def State.condAt (s : State) (r : Ref) (pa : PAddr) (v : Word) : Res State :=
  let a := s.accessAddress r.quad pa
  match regionOf a with
  | .memory => if s.scFhit || s.bcFhit then .refused .conditionalInForceHit else .next (s.condMemory r a v)
  | .noncached => .next (s.condNoncached r a v)
  | .cbox => condCbox a

/-! ## The access of an instruction (R300) -/

/-- Software has done what R241 (a), (b), (h) and (i) ask before this access. -/
def State.orderKept (s : State) (write : Bool) : Bool :=
  match s.owed with
  | .nothing => true
  | .mb | .mbThenRead _ => false
  | .read _ | .mbBeforeStore => !write

/-- Go on with the next instruction after an access. -/
def State.accessDone (s : State) : State := State.advance { s with afterMb := false }

/-- Translate, and go on with the access or with the exception (R300, R312). -/
def State.dstream (s : State) (r : Ref) (access : State → PAddr → Res State) : Res State :=
  match s.translate r with
  | .ok pa hit =>
    if s.orderKept r.write then mapRes State.accessDone (access (s.touchDtb hit) pa) else .refused .cboxOrder
  | .except e bits => .next (s.mmTrap r e bits)
  | .multiple => .refused .tbMultipleMatch

/-- A load that delivers its datum to a target. -/
def State.load (s : State) (r : Ref) (locked : Bool) (t : LoadTarget) : Res State :=
  s.dstream r fun u pa => u.loadAt r locked t pa

/-- A load into an integer register. -/
def State.loadInt (s : State) (r : Ref) (locked : Bool) : Res State := s.load r locked (.int (s.intSlot r.ra) (!r.quad))

/-- A load into a floating-point register. -/
def State.loadFp (s : State) (r : Ref) (form : FpForm) : Res State := s.load r false (.fp r.ra form)

/-- A store. -/
def State.store (s : State) (r : Ref) (v : Word) : Res State := s.dstream r fun u pa => u.storeAt r pa v

/-- A store-conditional that delivers its success in Ra (R363 to R365). -/
def State.storeCond (s : State) (r : Ref) (v : Word) : Res State := s.dstream r fun u pa => u.condAt r pa v

end Sys2Proof.Machine
end

