-- ==== Sys2Proof/Machine/Interrupt.lean ====
section
/-! DEFINITION. Interrupt requests: the views ISR and INTID (R119, R124) and delivery (R730, R731). -/

namespace Sys2Proof.Machine

/-- An AST of mode `m` is requested, enabled and deliverable in the current mode (R120, R124 ATR). -/
def State.astFor (s : State) (m : Nat) : Bool :=
  s.ibox.astrr.getLsbD m && s.ibox.aster.getLsbD m && decide (m ≤ s.ibox.icm.toNat)

/-- ISR<ATR> (R124). -/
def State.astPending (s : State) : Bool := s.astFor 0 || s.astFor 1 || s.astFor 2 || s.astFor 3

/-- irq_h<n> is asserted and not masked by ICSR<IMSK<n>> (R731). -/
def State.irqEnabled (s : State) (n : Nat) : Bool := s.pins.irq.getLsbD n && !s.icsrBit (20 + n)

/-- CTLk of PMCTR (R127). -/
def pmControl (pmctr : Word) (k : Fin 3) : BitVec 2 := field pmctr (14 - 2 * k.val) 2

/-- Counter `k` has requested an interrupt and its enable still stands: ICSR<PME> is nonzero and CTLk lets it interrupt
(R119, R731; DEDUCED, notes/assumptions/7.md: the same test gates the delivery). -/
def State.pcEnabled (s : State) (k : Fin 3) : Bool :=
  s.ibox.pcReq.getLsbD k.val && field s.ibox.icsr 8 2 != 0#2 && (pmControl s.ibox.pmctr k).getLsbD 1

/-- Every request with a target IPL: whether it is pending and enabled, and its level (R731). -/
def State.requests (s : State) : List (Bool × Nat) :=
  (List.range 15).map (fun i => (s.ibox.sirr.getLsbD i, i + 1)) ++
  [(s.astPending, 2), (s.irqEnabled 0, 20), (s.irqEnabled 1, 21), (s.irqEnabled 2, 22), (s.irqEnabled 3, 23),
   (s.pcEnabled 0, 29), (s.pcEnabled 1, 29), (s.pcEnabled 2, 29),
   (s.pins.pwrFail, 30), (s.pins.sysMchChk, 31), (s.ibox.crdReq && s.icsrBit 32, 31)]

/-- INTID: the highest target IPL of an enabled pending request, 0 if there is none (R119). -/
def State.intid (s : State) : Nat := s.requests.foldl (fun m p => if p.1 then max m p.2 else m) 0

/-- An interrupt is deliverable outside PALmode: a request above IPLR, or halt, or the serial line (R730). -/
def State.interruptPending (s : State) : Bool :=
  s.requests.any (fun p => p.1 && decide (s.ibox.iplr.toNat < p.2)) || s.pins.mchHlt || s.ibox.sliReq

/-- ISR (R124). -/
def State.isr (s : State) : Word :=
  place (s.ibox.astrr &&& s.ibox.aster) 0 ||| place s.ibox.sirr 4 ||| placeBit s.astPending 19 |||
  place s.pins.irq 20 ||| place s.ibox.pcReq 27 ||| placeBit s.pins.pwrFail 30 ||| placeBit s.pins.sysMchChk 31 |||
  placeBit s.ibox.crdReq 32 ||| placeBit s.ibox.sliReq 33 ||| placeBit s.pins.mchHlt 34

/-- Take the interrupt before the instruction at the PC (R712, R730; notes/assumptions/7.md). -/
def State.takeInterrupt (s : State) : State := s.trap .interrupt s.pc

end Sys2Proof.Machine
end

