-- ==== Sys2Proof/Machine/Counters.lean ====
section
/-! DEFINITION. The cycle counter (R60, R218) and the performance counters (R127 to R130, R249). How many cycles an instruction
takes is free, and how many events the model does not have it sees (notes/assumptions/9.md). -/

namespace Sys2Proof.Machine

/-- Counting is suppressed in the mode of a state (R129). -/
def State.countingKilled (s : State) (pmctr : Word) : Bool :=
  let ku := pmctr.getLsbD 30
  let kp := pmctr.getLsbD 9
  let kk := pmctr.getLsbD 8
  if s.palmode then kp
  else if s.ibox.icm = 3#2 then ku
  else if ku && kp && kk then s.kernel
  else kk

/-- A counter after `count` events, and whether it requests an interrupt: with CTL 10 on the carry out of its top bit, with
11 on the carry out of bit 7 (R130). -/
def bumpCounter (ctl : BitVec 2) (width old count : Nat) : Nat × Bool :=
  ((old + count) % 2 ^ width,
    if ctl = 2#2 then decide (2 ^ width ≤ old + count)
    else if ctl = 3#2 then decide (256 ≤ old % 256 + count)
    else false)

/-! ## The events of the Cbox (R249) -/

/-- An Scache access: a write (or a read), and a miss if so asked. -/
def CboxEvent.isScache (wantWrite : Option Bool) (missOnly : Bool) : CboxEvent → Bool
  | .scache write hit => (wantWrite == none || wantWrite == some write) && !(missOnly && hit)
  | _ => false

/-- A Bcache access, and a miss if so asked. -/
def CboxEvent.isBcache (missOnly : Bool) : CboxEvent → Bool
  | .bcache hit => !(missOnly && hit)
  | _ => false

/-- A system command: any, one that invalidates, one that reads. -/
def CboxEvent.isSystem (wantInvalidate wantRead : Bool) : CboxEvent → Bool
  | .system invalidates reads => (!wantInvalidate || invalidates) && (!wantRead || reads)
  | _ => false

/-- BC_CONTROL<21:19>: the event of performance counter 1 with SEL1 = F; the selection 4 is undefined (Table 5-31). -/
def cboxEvent1 (sel : BitVec 3) : Option (CboxEvent → Bool) :=
  match sel.toNat with
  | 0 => some (·.isScache none false)
  | 1 => some (·.isScache (some false) false)
  | 2 => some (·.isScache (some true) false)
  | 3 => some (· == .scVictim)
  | 4 => none
  | 5 => some (·.isBcache false)
  | 6 => some (· == .bcVictim)
  | _ => some (·.isSystem false false)

/-- BC_CONTROL<24:22>: the event of performance counter 2 with SEL2 = F (Table 5-31). -/
def cboxEvent2 (sel : BitVec 3) : CboxEvent → Bool :=
  match sel.toNat with
  | 0 => (·.isScache none true)
  | 1 => (·.isScache (some false) true)
  | 2 => (·.isScache (some true) true)
  | 3 => (· == .sharedWrite)
  | 4 => (·.isScache (some true) false)
  | 5 => (·.isBcache true)
  | 6 => (·.isSystem true false)
  | _ => (·.isSystem false true)

/-! ## Counting -/

/-- The events counter `k` sees in one instruction: cycles, instructions retired, cycles with perf_mon_h asserted, events of the
Cbox since the last instruction was counted, or a free number (R128, R249, D11). -/
def State.pmEvents (s : State) (k : Fin 3) (cycles retired : Nat) : Nat :=
  let c := s.cbox.bcControl
  let n := s.freeCount
  if k = 0 then (if s.ibox.pmctr.getLsbD 31 then retired else cycles)
  else if k = 1 then
    if field s.ibox.pmctr 4 4 = 0xF#4 then
      match cboxEvent1 (c.extractLsb' 19 3) with
      | some p => s.tally.countP p
      | none => Config.eventCount 1 n
    else Config.eventCount 1 n
  else if field s.ibox.pmctr 0 4 = 0xB#4 then (if s.pins.perfMon then cycles else 0)
  else if field s.ibox.pmctr 0 4 = 0xC#4 then cycles
  else if field s.ibox.pmctr 0 4 = 0xF#4 then s.tally.countP (cboxEvent2 (c.extractLsb' 22 3))
  else Config.eventCount 2 n

/-- The position and width of counter `k` in PMCTR (R127). -/
def pmField (k : Fin 3) : Nat × Nat := if k = 0 then (48, 16) else if k = 1 then (32, 16) else (16, 14)

/-- Replace a field of a quadword. -/
def putField (v : Word) (lo width x : Nat) : Word :=
  (v &&& ~~~(BitVec.ofNat 64 (2 ^ width - 1) <<< lo)) ||| (BitVec.ofNat 64 (x % 2 ^ width) <<< lo)

/-- One performance counter after some cycles (R130). -/
def State.countOne (s : State) (cycles retired : Nat) (k : Fin 3) : State :=
  let ctl := pmControl s.ibox.pmctr k
  if ctl = 0#2 then s
  else
    let f := pmField k
    let p := bumpCounter ctl f.2 (s.ibox.pmctr.extractLsb' f.1 f.2).toNat (s.pmEvents k cycles retired)
    { s with ibox := { s.ibox with
      pmctr := putField s.ibox.pmctr f.1 f.2 p.1
      pcReq := if p.2 then s.ibox.pcReq ||| (1#3 <<< k.val) else s.ibox.pcReq } }

/-- Some performance counter is enabled: ICSR<PME> and a CTL field (R130). -/
def State.pmActive (s : State) : Bool :=
  (field s.ibox.icsr 8 2 != 0#2) && (field s.ibox.pmctr 10 6 != 0#6)

/-- So many cycles pass in the mode of `before`: the cycle counter, the performance counters, and what is left of the timeout
pulse (R60, R130, R975). -/
def State.elapse (before s : State) (cycles retired : Nat) : State :=
  let s1 := if s.mbox.ccEna then { s with mbox := { s.mbox with ccLo := s.mbox.ccLo + BitVec.ofNat 32 cycles } } else s
  let s2 := if s.pmActive && !before.countingKilled s.ibox.pmctr then
      ((s1.countOne cycles retired 0).countOne cycles retired 1).countOne cycles retired 2
    else s1
  { s2 with pulse := if s.pulse = 0 then 0 else s.pulse - cycles, tally := [] }

/-- The counters after one instruction that ran in the mode of `before`: it takes any number of cycles, and the timeout counter
starts again (R61). -/
def State.count (before s : State) : State :=
  let t := State.elapse before s (Config.cycles s.freeCount) (if s.ended = .fault then 0 else 1)
  { t with
    stalled := 0
    freeCount := if s.mbox.ccEna || s.pmActive || s.pulse != 0 then s.freeCount + 1 else s.freeCount }

end Sys2Proof.Machine
end

