-- ==== Sys2Proof/Machine/Ipr.lean ====
section
/-! DEFINITION. The internal processor registers of the Ibox (R100 to R131, R166) and of the Mbox and Dcache (R200 to R226):
what HW_MFPR reads of each, what reading it does, and what HW_MTPR writes. -/

namespace Sys2Proof.Machine

/-- The registers of Table 5-1 (R46, R47). -/
inductive Ipr where
  | isr | itbTag | itbPte | itbAsn | itbPteTemp | itbIa | itbIap | itbIs | sirr | astrr | aster | excAddr | excSum
  | excMask | palBase | icm | iplr | intid | ifaultVaForm | ivptbr | hwintClr | slXmit | slRcv | icsr | icFlushCtl
  | icperrStat | pmctr | palTemp (k : Fin 24)
  | dtbAsn | dtbCm | dtbTag | dtbPte | dtbPteTemp | mmStat | va | vaForm | mvptbr | dtbIap | dtbIa | dtbIs | altMode
  | cc | ccCtl | mcsr | dcFlush | dcPerrStat | dcTestCtl | dcTestTag | dcTestTagTemp | dcMode | mafMode
  deriving DecidableEq, Repr

/-- The indexes of the Ibox registers from 100 hex up (R46). -/
def iboxIprs : List (Option Ipr) :=
  [some .isr, some .itbTag, some .itbPte, some .itbAsn, some .itbPteTemp, some .itbIa, some .itbIap, some .itbIs,
   some .sirr, some .astrr, some .aster, some .excAddr, some .excSum, some .excMask, some .palBase, some .icm,
   some .iplr, some .intid, some .ifaultVaForm, some .ivptbr, none, some .hwintClr, some .slXmit, some .slRcv,
   some .icsr, some .icFlushCtl, some .icperrStat, none, some .pmctr]

/-- The indexes of the Mbox registers from 200 hex up (R47). -/
def mboxIprs : List (Option Ipr) :=
  [some .dtbAsn, some .dtbCm, some .dtbTag, some .dtbPte, some .dtbPteTemp, some .mmStat, some .va, some .vaForm,
   some .mvptbr, some .dtbIap, some .dtbIa, some .dtbIs, some .altMode, some .cc, some .ccCtl, some .mcsr,
   some .dcFlush, none, some .dcPerrStat, some .dcTestCtl, some .dcTestTag, some .dcTestTagTemp, some .dcMode,
   some .mafMode]

/-- The register an index names (R46, R47); bits <15:10> must be zero (D4). -/
def iprOf (index : BitVec 16) : Option Ipr :=
  let n := index.toNat
  if n < 0x100 then none
  else if h : 0x140 ≤ n ∧ n < 0x158 then some (.palTemp ⟨n - 0x140, by omega⟩)
  else if n < 0x200 then (iboxIprs[n - 0x100]?).join
  else (mboxIprs[n - 0x200]?).join

/-! ## Formats -/

/-- The DTB or ITB entry that a memory-format PTE and a tag make (R102, R203, R204). -/
def itbEntryOf (tag : BitVec 30) (asn : BitVec 7) (v : Word) : ItbEntry :=
  { valid := true, tag := tag, asn := asn, asm := v.getLsbD 4, gh := field v 5 2, re := field v 8 4,
    pfn := field v 32 27 }

def dtbEntryOf (tag : BitVec 30) (asn : BitVec 7) (p : Word) : DtbEntry :=
  { valid := true, tag := tag, asn := asn, asm := p.getLsbD 4, gh := field p 5 2, faultRd := p.getLsbD 1,
    faultWr := p.getLsbD 2, re := field p 8 4, we := field p 12 4, pfn := field p 32 27 }

/-- The read format of an ITB entry (R103): PFN <58:32>, the thermometer code of GH <31:29>, ASM <13>, the read enables
<12:9>. -/
def itbReadFormat (e : ItbEntry) : Word :=
  place e.pfn 32 ||| placeBit (e.gh == 3#2) 31 ||| placeBit (e.gh == 2#2 || e.gh == 3#2) 30 |||
  placeBit (e.gh != 0#2) 29 ||| placeBit e.asm 13 ||| place e.re 9

/-- The read format of a DTB entry: the memory-format positions (R205, D6). -/
def dtbReadFormat (e : DtbEntry) : Word :=
  placeBit e.faultRd 1 ||| placeBit e.faultWr 2 ||| placeBit e.asm 4 ||| place e.gh 5 ||| place e.re 8 |||
  place e.we 12 ||| place e.pfn 32

/-- The address of the PTE of a virtual address in the linear page table: the NT form has VA<31:13> (R108, R208). -/
def vaFormat (nt : Bool) (base : BitVec 34) (va : Word) : Word :=
  if nt then place base 30 ||| place (field va 13 19) 3
  else place (base.extractLsb' 3 31) 33 ||| place (vpnOf va) 3

/-- ICSR<SPE<0>>, the Ibox's NT mode bit (R166). -/
def State.iboxNt (s : State) : Bool := s.icsrBit 28

/-- MCSR<SP<0>>, the Mbox's NT mode bit (R208). -/
def State.mboxNt (s : State) : Bool := s.mbox.mcsr.getLsbD 1

/-- The bits of ICSR that software writes (R166). -/
def icsrWritable : Word := 0xBF7FF00300#64

/-! ## Reading -/

/-- The bits of a register that the spec states, and which they are; the others are UNPREDICTABLE (R100, R200). A
write-only register states none. -/
def State.iprView (s : State) : Ipr → Word × Word
  | .isr => (s.isr, 0x7F8FFFFFF#64)
  | .itbPte => (0#64, ~~~0#64)
  | .itbAsn => (place s.ibox.itbAsn 4, 0x7F0#64)
  | .itbPteTemp => (s.ibox.itbPteTemp, ~~~0#64)
  | .sirr => (place s.ibox.sirr 4, ~~~0#64)
  | .astrr => (place s.ibox.astrr 0, 0xF#64)
  | .aster => (place s.ibox.aster 0, 0xF#64)
  | .excAddr => (s.ibox.excAddr, ~~~0#64)
  | .excSum => (place s.ibox.excSum 10, ~~~0#64)
  | .excMask => (s.ibox.excMask, ~~~0#64)
  | .palBase => (place s.ibox.palBase 14, ~~~0#64)
  | .icm => (place s.ibox.icm 3, ~~~0#64)
  | .iplr => (place s.ibox.iplr 0, ~~~0#64)
  | .intid => (BitVec.ofNat 64 s.intid, 0x1F#64)
  | .ifaultVaForm => (s.ibox.ifaultVaForm, ~~~0#64)
  | .ivptbr => (place s.ibox.ivptbr 30, if s.iboxNt then ~~~0#64 else ~~~0x1C0000000#64)
  | .slRcv => (placeBit s.pins.sromData 6, 0x40#64)
  | .icsr => (s.ibox.icsr, 0xFF7FF00300#64)
  | .icperrStat => (place s.ibox.icperrStat 11, 0x3800#64)
  | .pmctr => (s.ibox.pmctr, ~~~0#64)
  | .palTemp k => (s.palTemps[k], ~~~0#64)
  | .dtbPte => (0#64, ~~~0#64)
  | .dtbPteTemp => (s.mbox.dtbPteTemp, ~~~0#64)
  | .mmStat => (place s.mbox.mmStat 0, 0x1FFFF#64)
  | .va => (s.mbox.va, ~~~0#64)
  | .vaForm => (vaFormat s.mboxNt s.mbox.mvptbr s.mbox.va, ~~~0#64)
  | .mcsr => (place s.mbox.mcsr 0, 0x3F#64)
  | .dcPerrStat => (place s.mbox.dcPerrStat 0, 0x3F#64)
  | .dcTestCtl => (place s.mbox.dcTestCtl 0, 0x1FFF#64)
  | .dcTestTagTemp => (s.mbox.dcTestTagTemp, 0x7FFFFFF87C#64)
  | .dcMode => (place s.mbox.dcMode 0, 0xF#64)
  | .mafMode => (place s.mbox.mafMode 0 ||| placeBit (!s.maf.isEmpty || !s.loadsWaiting.isEmpty) 6 ||| placeBit (!s.wb.isEmpty) 7, 0xFF#64)
  | .itbTag | .itbIa | .itbIap | .itbIs | .hwintClr | .slXmit | .icFlushCtl | .dtbAsn | .dtbCm | .dtbTag | .mvptbr
  | .dtbIap | .dtbIa | .dtbIs | .altMode | .cc | .ccCtl | .dcFlush | .dcTestTag => (0#64, 0#64)

/-- DC_TEST_CTL<12:5>: the index the Dcache test registers look at (R220). -/
def State.dcTestIndex (s : State) : Nat := (s.mbox.dcTestCtl.extractLsb' 5 8).toNat

/-- The data parity bits of the two longwords of quadword `q` of a block; the sense is taken to be even, as that of the tags is
(DESIGN CHOICE, notes/assumptions/13.md). -/
def DcLine.dataParity (l : DcLine) (q : Nat) : BitVec 2 :=
  BitVec.ofBool (parityOf (hexLong l.data (2 * q + 1)) != l.badData.getLsbD (2 * q + 1)) ++
    BitVec.ofBool (parityOf (hexLong l.data (2 * q)) != l.badData.getLsbD (2 * q))

/-- What a read of DC_TEST_TAG puts in DC_TEST_TAG_TEMP: tag, tag parity and valid bits of the bank that BANK0 selects, and the
data parity bits of both banks for the quadword INDEX<4:3> (R220 to R222). -/
def State.dcTestView (s : State) : Word :=
  let a := dcGet s.dcTestIndex s.dcache.bank0
  let b := dcGet s.dcTestIndex s.dcache.bank1
  let l := if s.mbox.dcTestCtl.getLsbD 0 then a else b
  let q := (s.mbox.dcTestCtl.extractLsb' 3 2).toNat
  placeBit l.parity 2 ||| place (a.dataParity q) 3 ||| place (b.dataParity q) 5 ||| placeBit l.valid0 11 |||
  placeBit l.valid1 12 ||| place l.tag 13

/-- What reading a register does (R103, R205, R207, R221); most do nothing. -/
def State.iprAfterRead (s : State) : Ipr → State
  | .itbPte =>
    { s with
      ibox := { s.ibox with itbPteTemp := itbReadFormat s.itb.entries[s.itb.next] }
      itb := { s.itb with next := s.itb.next + 1 } }
  | .dtbPte =>
    { s with
      mbox := { s.mbox with dtbPteTemp := dtbReadFormat s.dtb.entries[s.dtb.next] }
      dtb := { s.dtb with next := s.dtb.next + 1 } }
  | .va => { s with mbox := { s.mbox with mmLock := false } }
  | .dcTestTag => { s with mbox := { s.mbox with dcTestTagTemp := s.dcTestView } }
  | _ => s

/-- The value HW_MFPR returns. -/
def State.iprRead (s : State) (r : Ipr) : Word := mergeBits (s.iprView r).1 (s.iprView r).2 s.freeNow

/-! ## Writing -/

/-- Put an entry where the ITB pointer stands and advance it (R102). -/
def Itb.fill (t : Itb) (e : ItbEntry) : Itb := ⟨t.entries.set t.next e, t.next + 1⟩

/-- Put an entry where the DTB pointer stands and advance it (R203). -/
def Dtb.fill (t : Dtb) (e : DtbEntry) : Dtb := ⟨t.entries.set t.next e, t.next + 1⟩

/-- Clear the valid bits of the ITB entries that `p` picks. -/
def Itb.drop (t : Itb) (p : ItbEntry → Bool) : Itb :=
  { t with entries := t.entries.map fun e => if p e then { e with valid := false } else e }

/-- Clear the valid bits of the DTB entries that `p` picks. -/
def Dtb.drop (t : Dtb) (p : DtbEntry → Bool) : Dtb :=
  { t with entries := t.entries.map fun e => if p e then { e with valid := false } else e }

/-- ICSR (R166): a zero in the must-be-one bit <37> leaves that bit UNPREDICTABLE; <38> is read-only. -/
def State.writeIcsr (s : State) (v : Word) : Res State :=
  if Config.ntOnlyPart && !v.getLsbD 28 then .refused .ntModeRequired
  else
    let w := (v &&& icsrWritable) ||| (s.ibox.icsr &&& 0x4000000000#64)
    .next (if v.getLsbD 37 then { s with ibox := { s.ibox with icsr := w } }
      else { s with ibox := { s.ibox with icsr := w ||| (s.freeNow &&& 0x2000000000#64) } }.drawn)

/-- MCSR (R214). -/
def State.writeMcsr (s : State) (v : Word) : Res State :=
  if v.getLsbD 3 || v.getLsbD 5 then .refused .mustBeZeroBit
  else if Config.ntOnlyPart && !v.getLsbD 1 then .refused .ntModeRequired
  else .next { s with mbox := { s.mbox with mcsr := v.setWidth 6 } }

/-- DC_PERR_STAT, write-one-to-clear (R210). -/
def dcPerrWrite (stat : BitVec 6) (v : Word) : BitVec 6 :=
  let a := if v.getLsbD 1 then stat &&& 1#6 else stat
  if v.getLsbD 0 then a &&& ~~~1#6 else a

/-- A write of DC_TEST_TAG into one bank: tag, parity and valid bits; the data and their parity stay (R221). -/
def dcTestWrite (i : Nat) (v : Word) (b : List DcLine) : List DcLine :=
  dcPut { dcGet i b with
    tag := field v 13 26, parity := v.getLsbD 2, valid0 := v.getLsbD 11, valid1 := v.getLsbD 12 } b

/-- How many instructions, that of the flush among them, run before the refill buffer holds no block from before the flush: it
is followed by 44 (R53, R111, R371). -/
def flushDrain : Nat := 45

/-- A write of IC_FLUSH_CTL: every Icache block is gone; each block of the refill buffer may be gone at once or stay (R980 clears
the refill buffer, R111 does not: notes/assumptions/12.md). -/
def State.icFlush (s : State) : State :=
  let kept := (s.icache.refill.zipIdx.filter fun p => Config.survives s.freeCount p.2).map fun p => { p.1 with old := true }
  State.drawn { s with icache := ⟨[], kept, flushDrain⟩ }

/-- A change of the ITB or of ITB_ASN, to be followed by HW_REI_STALL (R683). -/
def State.itbChange (s : State) (t : Itb) : State := { s with itb := t, itbPending := true }

/-- The effect of HW_MTPR on each register; a write to a read-only register is ignored (R100, R200, D4). -/
def State.iprWrite (s : State) (r : Ipr) (v : Word) : Res State :=
  match r with
  | .itbTag => .next { s with ibox := { s.ibox with itbTag := vpnOf v } }
  | .itbPte => .next (s.itbChange (s.itb.fill (itbEntryOf s.ibox.itbTag s.ibox.itbAsn v)))
  | .itbAsn => .next { s with ibox := { s.ibox with itbAsn := field v 4 7 }, itbPending := true }
  | .itbIa => .next (s.itbChange { s.itb.drop (fun _ => true) with next := 0 })
  | .itbIap => .next (s.itbChange (s.itb.drop fun e => !e.asm))
  | .itbIs => .next (s.itbChange (s.itb.drop fun e => e.matches (vpnOf v) s.ibox.itbAsn))
  | .sirr => .next { s with ibox := { s.ibox with sirr := field v 4 15 } }
  | .astrr => .next { s with ibox := { s.ibox with astrr := field v 0 4 } }
  | .aster => .next { s with ibox := { s.ibox with aster := field v 0 4 } }
  | .excAddr => .next (s.setExcAddr v)
  | .excSum => .next { s with ibox := { s.ibox with excSum := 0#7, swcBlocked := false, excMask := 0#64 } }
  | .palBase => .next { s with ibox := { s.ibox with palBase := field v 14 50 } }
  | .icm => .next { s with ibox := { s.ibox with icm := field v 3 2 } }
  | .iplr => .next { s with ibox := { s.ibox with iplr := field v 0 5 } }
  | .ivptbr => .next { s with ibox := { s.ibox with ivptbr := field v 30 34 } }
  | .hwintClr => .next { s with ibox := { s.ibox with
      pcReq := s.ibox.pcReq &&& ~~~field v 27 3
      crdReq := s.ibox.crdReq && !v.getLsbD 32
      sliReq := s.ibox.sliReq && !v.getLsbD 33 } }
  | .slXmit => .next { s with ibox := { s.ibox with slXmit := v.getLsbD 7 } }
  | .icsr => s.writeIcsr v
  | .icFlushCtl => .next s.icFlush
  | .icperrStat => .next { s with ibox := { s.ibox with icperrStat := s.ibox.icperrStat &&& ~~~field v 11 3 } }
  | .pmctr => .next { s with ibox := { s.ibox with pmctr := v } }
  | .palTemp k => .next { s with palTemps := s.palTemps.set k v }
  | .dtbAsn => .next { s with mbox := { s.mbox with dtbAsn := field v 57 7 } }
  | .dtbCm => .next { s with mbox := { s.mbox with dtbCm := field v 3 2 } }
  | .dtbTag => .next { s with dtb := s.dtb.fill (dtbEntryOf (vpnOf v) s.mbox.dtbAsn s.mbox.dtbPteHold) }
  | .dtbPte => .next { s with mbox := { s.mbox with dtbPteHold := v } }
  | .mvptbr => .next { s with mbox := { s.mbox with mvptbr := field v 30 34 } }
  | .dtbIap => .next { s with dtb := s.dtb.drop fun e => !e.asm }
  | .dtbIa => .next { s with dtb := { s.dtb.drop (fun _ => true) with next := 0 } }
  | .dtbIs => .next { s with dtb := s.dtb.drop fun e => e.matches (vpnOf v) s.mbox.dtbAsn }
  | .altMode => .next { s with mbox := { s.mbox with altMode := field v 3 2 } }
  | .cc => .next { s with mbox := { s.mbox with ccHi := field v 32 32 } }
  | .ccCtl => .next { s with mbox := { s.mbox with ccLo := field v 4 28 ++ 0#4, ccEna := v.getLsbD 32 } }
  | .mcsr => s.writeMcsr v
  | .dcFlush => .next s.dcFlush
  | .dcPerrStat => .next { s with mbox := { s.mbox with dcPerrStat := dcPerrWrite s.mbox.dcPerrStat v } }
  | .dcTestCtl => .next { s with mbox := { s.mbox with dcTestCtl := field v 0 13 } }
  | .dcTestTag => .next { s with dcache :=
      ⟨if s.mbox.dcTestCtl.getLsbD 0 then dcTestWrite s.dcTestIndex v s.dcache.bank0 else s.dcache.bank0,
       if s.mbox.dcTestCtl.getLsbD 1 then dcTestWrite s.dcTestIndex v s.dcache.bank1 else s.dcache.bank1⟩ }
  | .dcMode => .next { s with mbox := { s.mbox with dcMode := field v 0 4 } }
  | .mafMode => .next { s with mbox := { s.mbox with mafMode := field v 0 6 } }
  | .isr | .itbPteTemp | .excMask | .intid | .ifaultVaForm | .slRcv | .dtbPteTemp | .mmStat | .va | .vaForm
  | .dcTestTagTemp => .next s

end Sys2Proof.Machine
end

