-- ==== Sys2Proof/Machine/IntArith.lean ====
section
/-! DEFINITION. Integer arithmetic (42_integer_arithmetic.md): the results and overflow conditions, and the meaning of each
instruction. -/

namespace Sys2Proof.Machine

/-! ## Results -/

/-- ADDL, S4ADDL and S8ADDL: `sext((a << k) + b)<31:0>` (R571, R575, R577). -/
def addLong (k : Nat) (a b : Word) : Word := sextLong ((a <<< k) + b)

/-- ADDQ, S4ADDQ and S8ADDQ: `(a << k) + b` (R573, R576, R578). -/
def addQuad (k : Nat) (a b : Word) : Word := (a <<< k) + b

/-- SUBL, S4SUBL and S8SUBL (R579, R583, R585). -/
def subLong (k : Nat) (a b : Word) : Word := sextLong ((a <<< k) - b)

/-- SUBQ, S4SUBQ and S8SUBQ (R581, R584, R586). -/
def subQuad (k : Nat) (a b : Word) : Word := (a <<< k) - b

/-- MULL (R592). -/
def mulLong (a b : Word) : Word := sextLong (a * b)

/-- UMULH: bits <127:64> of the unsigned product (R596). -/
def mulHigh (a b : Word) : Word := ((a.setWidth 128 * b.setWidth 128) >>> 64).setWidth 64

/-! ## Overflow conditions -/

/-- The signed value of the low longword (R572). -/
def longInt (a : Word) : Int := (a.setWidth 32).toInt

/-- Outside -2^31 to 2^31 - 1 (R572). -/
def outsideLong (n : Int) : Bool := decide (n < -(2 ^ 31)) || decide (2 ^ 31 ≤ n)

/-- ADDL/V (R572). -/
def addLongOvf (a b : Word) : Bool := outsideLong (longInt a + longInt b)

/-- ADDQ/V: like signs, and the sum's sign differs (R574). -/
def addQuadOvf (a b : Word) : Bool := a.msb == b.msb && (a + b).msb != a.msb

/-- SUBL/V (R580). -/
def subLongOvf (a b : Word) : Bool := outsideLong (longInt a - longInt b)

/-- SUBQ/V: unlike signs, and the difference's sign differs from the minuend's (R582). -/
def subQuadOvf (a b : Word) : Bool := a.msb != b.msb && (a - b).msb != a.msb

/-- MULL/V (R593). -/
def mulLongOvf (a b : Word) : Bool := outsideLong (longInt a * longInt b)

/-- MULQ/V: the exact signed product does not fit 64 bits (R595). -/
def mulQuadOvf (a b : Word) : Bool := outsideQuad (a.toInt * b.toInt)

/-! ## The two shapes -/

/-- An Operate instruction that cannot trap: `R[rc] <- f(Rav, Rbv)` (R570). -/
def State.intOp (s : State) (f : Word → Word → Word) (ra : RegNum) (rb : RegOrLit) (rc : RegNum) : State :=
  s.finishInt rc (f (s.readInt ra) (s.operand rb)) false

/-- A /V instruction (R597). -/
def State.intOpV (s : State) (f : Word → Word → Word) (ovf : Word → Word → Bool) (ra : RegNum) (rb : RegOrLit)
    (rc : RegNum) : State :=
  s.finishInt rc (f (s.readInt ra) (s.operand rb)) (ovf (s.readInt ra) (s.operand rb))

/-! ## The instructions -/

/-- ADDL: add longword (R571). -/
def execAddl (ra : RegNum) (rb : RegOrLit) (rc : RegNum) (s : State) : Res State :=
  .next (s.intOp (addLong 0) ra rb rc)

/-- ADDL_V: add longword with overflow trap (R572). -/
def execAddlV (ra : RegNum) (rb : RegOrLit) (rc : RegNum) (s : State) : Res State :=
  .next (s.intOpV (addLong 0) addLongOvf ra rb rc)

/-- ADDQ: add quadword (R573). -/
def execAddq (ra : RegNum) (rb : RegOrLit) (rc : RegNum) (s : State) : Res State :=
  .next (s.intOp (addQuad 0) ra rb rc)

/-- ADDQ_V: add quadword with overflow trap (R574). -/
def execAddqV (ra : RegNum) (rb : RegOrLit) (rc : RegNum) (s : State) : Res State :=
  .next (s.intOpV (addQuad 0) addQuadOvf ra rb rc)

/-- S4ADDL: scaled add longword by 4 (R575). -/
def execS4addl (ra : RegNum) (rb : RegOrLit) (rc : RegNum) (s : State) : Res State :=
  .next (s.intOp (addLong 2) ra rb rc)

/-- S4ADDQ: scaled add quadword by 4 (R576). -/
def execS4addq (ra : RegNum) (rb : RegOrLit) (rc : RegNum) (s : State) : Res State :=
  .next (s.intOp (addQuad 2) ra rb rc)

/-- S8ADDL: scaled add longword by 8 (R577). -/
def execS8addl (ra : RegNum) (rb : RegOrLit) (rc : RegNum) (s : State) : Res State :=
  .next (s.intOp (addLong 3) ra rb rc)

/-- S8ADDQ: scaled add quadword by 8 (R578). -/
def execS8addq (ra : RegNum) (rb : RegOrLit) (rc : RegNum) (s : State) : Res State :=
  .next (s.intOp (addQuad 3) ra rb rc)

/-- SUBL: subtract longword (R579). -/
def execSubl (ra : RegNum) (rb : RegOrLit) (rc : RegNum) (s : State) : Res State :=
  .next (s.intOp (subLong 0) ra rb rc)

/-- SUBL_V: subtract longword with overflow trap (R580). -/
def execSublV (ra : RegNum) (rb : RegOrLit) (rc : RegNum) (s : State) : Res State :=
  .next (s.intOpV (subLong 0) subLongOvf ra rb rc)

/-- SUBQ: subtract quadword (R581). -/
def execSubq (ra : RegNum) (rb : RegOrLit) (rc : RegNum) (s : State) : Res State :=
  .next (s.intOp (subQuad 0) ra rb rc)

/-- SUBQ_V: subtract quadword with overflow trap (R582). -/
def execSubqV (ra : RegNum) (rb : RegOrLit) (rc : RegNum) (s : State) : Res State :=
  .next (s.intOpV (subQuad 0) subQuadOvf ra rb rc)

/-- S4SUBL: scaled subtract longword by 4 (R583). -/
def execS4subl (ra : RegNum) (rb : RegOrLit) (rc : RegNum) (s : State) : Res State :=
  .next (s.intOp (subLong 2) ra rb rc)

/-- S4SUBQ: scaled subtract quadword by 4 (R584). -/
def execS4subq (ra : RegNum) (rb : RegOrLit) (rc : RegNum) (s : State) : Res State :=
  .next (s.intOp (subQuad 2) ra rb rc)

/-- S8SUBL: scaled subtract longword by 8 (R585). -/
def execS8subl (ra : RegNum) (rb : RegOrLit) (rc : RegNum) (s : State) : Res State :=
  .next (s.intOp (subLong 3) ra rb rc)

/-- S8SUBQ: scaled subtract quadword by 8 (R586). -/
def execS8subq (ra : RegNum) (rb : RegOrLit) (rc : RegNum) (s : State) : Res State :=
  .next (s.intOp (subQuad 3) ra rb rc)

/-- CMPEQ: compare signed quadword equal (R587). -/
def execCmpeq (ra : RegNum) (rb : RegOrLit) (rc : RegNum) (s : State) : Res State :=
  .next (s.intOp (fun a b => ofBool64 (a == b)) ra rb rc)

/-- CMPLT: compare signed less than (R588). -/
def execCmplt (ra : RegNum) (rb : RegOrLit) (rc : RegNum) (s : State) : Res State :=
  .next (s.intOp (fun a b => ofBool64 (a.slt b)) ra rb rc)

/-- CMPLE: compare signed less than or equal (R589). -/
def execCmple (ra : RegNum) (rb : RegOrLit) (rc : RegNum) (s : State) : Res State :=
  .next (s.intOp (fun a b => ofBool64 (a.sle b)) ra rb rc)

/-- CMPULT: compare unsigned less than (R590). -/
def execCmpult (ra : RegNum) (rb : RegOrLit) (rc : RegNum) (s : State) : Res State :=
  .next (s.intOp (fun a b => ofBool64 (a.ult b)) ra rb rc)

/-- CMPULE: compare unsigned less than or equal (R591). -/
def execCmpule (ra : RegNum) (rb : RegOrLit) (rc : RegNum) (s : State) : Res State :=
  .next (s.intOp (fun a b => ofBool64 (a.ule b)) ra rb rc)

/-- MULL: multiply longword (R592). -/
def execMull (ra : RegNum) (rb : RegOrLit) (rc : RegNum) (s : State) : Res State :=
  .next (s.intOp mulLong ra rb rc)

/-- MULL_V: multiply longword with overflow trap (R593). -/
def execMullV (ra : RegNum) (rb : RegOrLit) (rc : RegNum) (s : State) : Res State :=
  .next (s.intOpV mulLong mulLongOvf ra rb rc)

/-- MULQ: multiply quadword (R594). -/
def execMulq (ra : RegNum) (rb : RegOrLit) (rc : RegNum) (s : State) : Res State :=
  .next (s.intOp (fun a b => a * b) ra rb rc)

/-- MULQ_V: multiply quadword with overflow trap (R595). -/
def execMulqV (ra : RegNum) (rb : RegOrLit) (rc : RegNum) (s : State) : Res State :=
  .next (s.intOpV (fun a b => a * b) mulQuadOvf ra rb rc)

/-- UMULH: unsigned multiply quadword high (R596). -/
def execUmulh (ra : RegNum) (rb : RegOrLit) (rc : RegNum) (s : State) : Res State :=
  .next (s.intOp mulHigh ra rb rc)

end Sys2Proof.Machine
end

