-- ==== Sys2Proof/Machine/Logical.lean ====
section
/-! DEFINITION. Logical, conditional move and shift instructions (43_logical_shift.md). -/

namespace Sys2Proof.Machine

/-- AND: logical product (R601). -/
def execAnd (ra : RegNum) (rb : RegOrLit) (rc : RegNum) (s : State) : Res State :=
  .next (s.intOp (fun a b => a &&& b) ra rb rc)

/-- BIC: bit clear (R602). -/
def execBic (ra : RegNum) (rb : RegOrLit) (rc : RegNum) (s : State) : Res State :=
  .next (s.intOp (fun a b => a &&& ~~~b) ra rb rc)

/-- BIS: logical sum (R603). -/
def execBis (ra : RegNum) (rb : RegOrLit) (rc : RegNum) (s : State) : Res State :=
  .next (s.intOp (fun a b => a ||| b) ra rb rc)

/-- ORNOT: logical sum with complement (R604). -/
def execOrnot (ra : RegNum) (rb : RegOrLit) (rc : RegNum) (s : State) : Res State :=
  .next (s.intOp (fun a b => a ||| ~~~b) ra rb rc)

/-- XOR: logical difference (R605). -/
def execXor (ra : RegNum) (rb : RegOrLit) (rc : RegNum) (s : State) : Res State :=
  .next (s.intOp (fun a b => a ^^^ b) ra rb rc)

/-- EQV: logical equivalence (R606). -/
def execEqv (ra : RegNum) (rb : RegOrLit) (rc : RegNum) (s : State) : Res State :=
  .next (s.intOp (fun a b => a ^^^ ~~~b) ra rb rc)

/-- A conditional move: `if cond(Rav) then R[rc] <- Rbv`, otherwise Rc is unchanged (43_logical_shift.md, section 3). -/
def State.cmov (s : State) (cond : Word → Bool) (ra : RegNum) (rb : RegOrLit) (rc : RegNum) : State :=
  if cond (s.readInt ra) then (s.writeInt rc (s.operand rb)).advance else s.advance

/-- CMOVEQ: move if Rav is zero (R607). -/
def execCmoveq (ra : RegNum) (rb : RegOrLit) (rc : RegNum) (s : State) : Res State :=
  .next (s.cmov (fun a => a == 0#64) ra rb rc)

/-- CMOVNE: move if Rav is not zero (R608). -/
def execCmovne (ra : RegNum) (rb : RegOrLit) (rc : RegNum) (s : State) : Res State :=
  .next (s.cmov (fun a => a != 0#64) ra rb rc)

/-- CMOVLT: move if Rav is negative (R609). -/
def execCmovlt (ra : RegNum) (rb : RegOrLit) (rc : RegNum) (s : State) : Res State :=
  .next (s.cmov (fun a => a.msb) ra rb rc)

/-- CMOVGE: move if Rav is not negative (R610). -/
def execCmovge (ra : RegNum) (rb : RegOrLit) (rc : RegNum) (s : State) : Res State :=
  .next (s.cmov (fun a => !a.msb) ra rb rc)

/-- CMOVLE: move if Rav is negative or zero (R611). -/
def execCmovle (ra : RegNum) (rb : RegOrLit) (rc : RegNum) (s : State) : Res State :=
  .next (s.cmov (fun a => a.msb || a == 0#64) ra rb rc)

/-- CMOVGT: move if Rav is positive (R612). -/
def execCmovgt (ra : RegNum) (rb : RegOrLit) (rc : RegNum) (s : State) : Res State :=
  .next (s.cmov (fun a => !a.msb && a != 0#64) ra rb rc)

/-- CMOVLBS: move if Rav is odd (R613). -/
def execCmovlbs (ra : RegNum) (rb : RegOrLit) (rc : RegNum) (s : State) : Res State :=
  .next (s.cmov (fun a => a.getLsbD 0) ra rb rc)

/-- CMOVLBC: move if Rav is even (R614). -/
def execCmovlbc (ra : RegNum) (rb : RegOrLit) (rc : RegNum) (s : State) : Res State :=
  .next (s.cmov (fun a => !a.getLsbD 0) ra rb rc)

/-- SLL: shift left logical (R615). -/
def execSll (ra : RegNum) (rb : RegOrLit) (rc : RegNum) (s : State) : Res State :=
  .next (s.intOp (fun a b => a <<< shiftCount b) ra rb rc)

/-- SRL: shift right logical (R616). -/
def execSrl (ra : RegNum) (rb : RegOrLit) (rc : RegNum) (s : State) : Res State :=
  .next (s.intOp (fun a b => a >>> shiftCount b) ra rb rc)

/-- SRA: shift right arithmetic (R617). -/
def execSra (ra : RegNum) (rb : RegOrLit) (rc : RegNum) (s : State) : Res State :=
  .next (s.intOp (fun a b => a.sshiftRight (shiftCount b)) ra rb rc)

end Sys2Proof.Machine
end

