-- ==== Sys2Proof/Machine/ByteOps.lean ====
section
/-! DEFINITION. Byte manipulation (44_byte_manipulation.md). -/

namespace Sys2Proof.Machine

/-- Eight bits widened to a mask of eight bytes: byte i is all ones where bit i is set (R630). -/
def byteMask (m : BitVec 8) : Word :=
  (List.range 8).foldl (fun w i => if m.getLsbD i then w ||| (0xFF#64 <<< (8 * i)) else w) 0#64

/-- `BYTE_ZAP(v, m)`: byte i of the result is zero where m<i> is set (R630). -/
def byteZap (v : Word) (m : BitVec 8) : Word := v &&& ~~~byteMask m

/-- The size letters of the byte instructions. -/
inductive ByteSize where
  | b | w | l | q
  deriving DecidableEq, Repr

/-- `sizemask_x` (R630). -/
def ByteSize.mask : ByteSize → BitVec 8
  | .b => 0x01#8
  | .w => 0x03#8
  | .l => 0x0F#8
  | .q => 0xFF#8

/-- `bm`: the size mask shifted to the byte offset, 16 bits (R630). -/
def ByteSize.span (x : ByteSize) (o : Nat) : BitVec 16 := x.mask.setWidth 16 <<< o

/-- The bytes of the datum in this quadword, bm<7:0>. -/
def ByteSize.low (x : ByteSize) (o : Nat) : BitVec 8 := (x.span o).setWidth 8

/-- The bytes of the datum in the next quadword, bm<15:8>. -/
def ByteSize.high (x : ByteSize) (o : Nat) : BitVec 8 := (x.span o).extractLsb' 8 8

/-- EXTxL (R632 to R635). -/
def extLow (x : ByteSize) (a : Word) (o : Nat) : Word := byteZap (a >>> (8 * o)) (~~~x.mask)

/-- EXTxH (R636 to R638). -/
def extHigh (x : ByteSize) (a : Word) (o : Nat) : Word := byteZap (a <<< ((64 - 8 * o) % 64)) (~~~x.mask)

/-- INSxL (R639 to R642). -/
def insLow (x : ByteSize) (a : Word) (o : Nat) : Word := byteZap (a <<< (8 * o)) (~~~x.low o)

/-- INSxH (R643 to R645). -/
def insHigh (x : ByteSize) (a : Word) (o : Nat) : Word := byteZap (a >>> ((64 - 8 * o) % 64)) (~~~x.high o)

/-- MSKxL (R646 to R649). -/
def mskLow (x : ByteSize) (a : Word) (o : Nat) : Word := byteZap a (x.low o)

/-- MSKxH (R650 to R652). -/
def mskHigh (x : ByteSize) (a : Word) (o : Nat) : Word := byteZap a (x.high o)

/-- CMPBGE: bit i says that byte i of Rav is at least byte i of Rbv, unsigned (R631). -/
def cmpBytes (a b : Word) : Word :=
  (List.range 8).foldl (fun r i => if (byteOf b i).ule (byteOf a i) then r ||| (1#64 <<< i) else r) 0#64

/-- A byte instruction: Rbv gives the byte offset, complemented in big-endian mode (R630, R655). -/
def State.byteOp (s : State) (f : Word → Nat → Word) (ra : RegNum) (rb : RegOrLit) (rc : RegNum) : State :=
  s.finishInt rc (f (s.readInt ra) (s.byteOffset (s.operand rb))) false

/-- CMPBGE: compare byte (R631). -/
def execCmpbge (ra : RegNum) (rb : RegOrLit) (rc : RegNum) (s : State) : Res State :=
  .next (s.intOp cmpBytes ra rb rc)

/-- EXTBL: extract byte low (R632). -/
def execExtbl (ra : RegNum) (rb : RegOrLit) (rc : RegNum) (s : State) : Res State :=
  .next (s.byteOp (extLow .b) ra rb rc)

/-- EXTWL: extract word low (R633). -/
def execExtwl (ra : RegNum) (rb : RegOrLit) (rc : RegNum) (s : State) : Res State :=
  .next (s.byteOp (extLow .w) ra rb rc)

/-- EXTLL: extract longword low (R634). -/
def execExtll (ra : RegNum) (rb : RegOrLit) (rc : RegNum) (s : State) : Res State :=
  .next (s.byteOp (extLow .l) ra rb rc)

/-- EXTQL: extract quadword low (R635). -/
def execExtql (ra : RegNum) (rb : RegOrLit) (rc : RegNum) (s : State) : Res State :=
  .next (s.byteOp (extLow .q) ra rb rc)

/-- EXTWH: extract word high (R636). -/
def execExtwh (ra : RegNum) (rb : RegOrLit) (rc : RegNum) (s : State) : Res State :=
  .next (s.byteOp (extHigh .w) ra rb rc)

/-- EXTLH: extract longword high (R637). -/
def execExtlh (ra : RegNum) (rb : RegOrLit) (rc : RegNum) (s : State) : Res State :=
  .next (s.byteOp (extHigh .l) ra rb rc)

/-- EXTQH: extract quadword high (R638). -/
def execExtqh (ra : RegNum) (rb : RegOrLit) (rc : RegNum) (s : State) : Res State :=
  .next (s.byteOp (extHigh .q) ra rb rc)

/-- INSBL: insert byte low (R639). -/
def execInsbl (ra : RegNum) (rb : RegOrLit) (rc : RegNum) (s : State) : Res State :=
  .next (s.byteOp (insLow .b) ra rb rc)

/-- INSWL: insert word low (R640). -/
def execInswl (ra : RegNum) (rb : RegOrLit) (rc : RegNum) (s : State) : Res State :=
  .next (s.byteOp (insLow .w) ra rb rc)

/-- INSLL: insert longword low (R641). -/
def execInsll (ra : RegNum) (rb : RegOrLit) (rc : RegNum) (s : State) : Res State :=
  .next (s.byteOp (insLow .l) ra rb rc)

/-- INSQL: insert quadword low (R642). -/
def execInsql (ra : RegNum) (rb : RegOrLit) (rc : RegNum) (s : State) : Res State :=
  .next (s.byteOp (insLow .q) ra rb rc)

/-- INSWH: insert word high (R643). -/
def execInswh (ra : RegNum) (rb : RegOrLit) (rc : RegNum) (s : State) : Res State :=
  .next (s.byteOp (insHigh .w) ra rb rc)

/-- INSLH: insert longword high (R644). -/
def execInslh (ra : RegNum) (rb : RegOrLit) (rc : RegNum) (s : State) : Res State :=
  .next (s.byteOp (insHigh .l) ra rb rc)

/-- INSQH: insert quadword high (R645). -/
def execInsqh (ra : RegNum) (rb : RegOrLit) (rc : RegNum) (s : State) : Res State :=
  .next (s.byteOp (insHigh .q) ra rb rc)

/-- MSKBL: mask byte low (R646). -/
def execMskbl (ra : RegNum) (rb : RegOrLit) (rc : RegNum) (s : State) : Res State :=
  .next (s.byteOp (mskLow .b) ra rb rc)

/-- MSKWL: mask word low (R647). -/
def execMskwl (ra : RegNum) (rb : RegOrLit) (rc : RegNum) (s : State) : Res State :=
  .next (s.byteOp (mskLow .w) ra rb rc)

/-- MSKLL: mask longword low (R648). -/
def execMskll (ra : RegNum) (rb : RegOrLit) (rc : RegNum) (s : State) : Res State :=
  .next (s.byteOp (mskLow .l) ra rb rc)

/-- MSKQL: mask quadword low (R649). -/
def execMskql (ra : RegNum) (rb : RegOrLit) (rc : RegNum) (s : State) : Res State :=
  .next (s.byteOp (mskLow .q) ra rb rc)

/-- MSKWH: mask word high (R650). -/
def execMskwh (ra : RegNum) (rb : RegOrLit) (rc : RegNum) (s : State) : Res State :=
  .next (s.byteOp (mskHigh .w) ra rb rc)

/-- MSKLH: mask longword high (R651). -/
def execMsklh (ra : RegNum) (rb : RegOrLit) (rc : RegNum) (s : State) : Res State :=
  .next (s.byteOp (mskHigh .l) ra rb rc)

/-- MSKQH: mask quadword high (R652). -/
def execMskqh (ra : RegNum) (rb : RegOrLit) (rc : RegNum) (s : State) : Res State :=
  .next (s.byteOp (mskHigh .q) ra rb rc)

/-- ZAP: zero bytes (R653). -/
def execZap (ra : RegNum) (rb : RegOrLit) (rc : RegNum) (s : State) : Res State :=
  .next (s.intOp (fun a b => byteZap a (b.setWidth 8)) ra rb rc)

/-- ZAPNOT: zero bytes not (R654). -/
def execZapnot (ra : RegNum) (rb : RegOrLit) (rc : RegNum) (s : State) : Res State :=
  .next (s.intOp (fun a b => byteZap a (~~~(b.setWidth 8))) ra rb rc)

end Sys2Proof.Machine
end

