-- ==== Sys2Proof/Machine/Control.lean ====
section
/-! DEFINITION. Branches and jumps (41_control_instructions.md). -/

namespace Sys2Proof.Machine

/-- `R[ra] <- pc + 4`, with the PALmode flag in bit 0 (R547, R567, D2). -/
def State.link (s : State) (ra : RegNum) : State := s.writeInt ra (s.pcView s.nextPc)

/-- BR and BSR: the link, then the target (R547, R548). -/
def State.branchLink (s : State) (ra : RegNum) (disp : BitVec 21) : State :=
  (s.link ra).jumpTo (s.branchTarget disp)

/-- A conditional branch (41_control_instructions.md, sections 3 and 4). -/
def State.branchIf (s : State) (taken : Bool) (disp : BitVec 21) : State :=
  if taken then s.jumpTo (s.branchTarget disp) else s.advance

/-- The four jumps: Rbv is read before Ra is written; its bits <1:0> are ignored (R563 to R567). -/
def State.jumpLink (s : State) (ra rb : RegNum) : State := (s.link ra).jumpTo (s.readInt rb)

/-- BR: unconditional branch (R547). -/
def execBr (ra : RegNum) (disp : BitVec 21) (s : State) : Res State :=
  .next (s.branchLink ra disp)

/-- BSR: branch to subroutine; the return stack has no architectural effect (R548). -/
def execBsr (ra : RegNum) (disp : BitVec 21) (s : State) : Res State :=
  .next (s.branchLink ra disp)

/-- BEQ: branch if Rav is zero (R549). -/
def execBeq (ra : RegNum) (disp : BitVec 21) (s : State) : Res State :=
  .next (s.branchIf (s.readInt ra == 0#64) disp)

/-- BNE: branch if Rav is not zero (R550). -/
def execBne (ra : RegNum) (disp : BitVec 21) (s : State) : Res State :=
  .next (s.branchIf (s.readInt ra != 0#64) disp)

/-- BLT: branch if Rav is negative (R551). -/
def execBlt (ra : RegNum) (disp : BitVec 21) (s : State) : Res State :=
  .next (s.branchIf ((s.readInt ra).msb) disp)

/-- BLE: branch if Rav is negative or zero (R552). -/
def execBle (ra : RegNum) (disp : BitVec 21) (s : State) : Res State :=
  .next (s.branchIf ((s.readInt ra).msb || s.readInt ra == 0#64) disp)

/-- BGT: branch if Rav is positive (R553). -/
def execBgt (ra : RegNum) (disp : BitVec 21) (s : State) : Res State :=
  .next (s.branchIf (!(s.readInt ra).msb && s.readInt ra != 0#64) disp)

/-- BGE: branch if Rav is not negative (R554). -/
def execBge (ra : RegNum) (disp : BitVec 21) (s : State) : Res State :=
  .next (s.branchIf (!(s.readInt ra).msb) disp)

/-- BLBC: branch if Rav is even (R555). -/
def execBlbc (ra : RegNum) (disp : BitVec 21) (s : State) : Res State :=
  .next (s.branchIf (!(s.readInt ra).getLsbD 0) disp)

/-- BLBS: branch if Rav is odd (R556). -/
def execBlbs (ra : RegNum) (disp : BitVec 21) (s : State) : Res State :=
  .next (s.branchIf ((s.readInt ra).getLsbD 0) disp)

/-- The bit-pattern test of FBEQ and FCMOVEQ: zero (R557). -/
def fpEq (w : Word) : Bool := fpZero w

/-- The bit-pattern test of FBNE and FCMOVNE: not zero (R558). -/
def fpNe (w : Word) : Bool := !fpZero w

/-- The bit-pattern test of FBLT and FCMOVLT: less than zero (R559). -/
def fpLt (w : Word) : Bool := fpSign w && !fpZero w

/-- The bit-pattern test of FBLE and FCMOVLE: less than or equal to zero (R560). -/
def fpLe (w : Word) : Bool := fpSign w || fpZero w

/-- The bit-pattern test of FBGT and FCMOVGT: greater than zero (R561). -/
def fpGt (w : Word) : Bool := !fpSign w && !fpZero w

/-- The bit-pattern test of FBGE and FCMOVGE: greater than or equal to zero (R562). -/
def fpGe (w : Word) : Bool := !fpSign w || fpZero w

/-- FBEQ: floating branch if zero; FEN if disabled (R557, R569). -/
def execFbeq (ra : RegNum) (disp : BitVec 21) (s : State) : Res State :=
  s.fpGate fun s => .next (s.branchIf (fpEq (s.readFp ra)) disp)

/-- FBNE: floating branch if not zero; FEN if disabled (R558, R569). -/
def execFbne (ra : RegNum) (disp : BitVec 21) (s : State) : Res State :=
  s.fpGate fun s => .next (s.branchIf (fpNe (s.readFp ra)) disp)

/-- FBLT: floating branch if less than zero; FEN if disabled (R559, R569). -/
def execFblt (ra : RegNum) (disp : BitVec 21) (s : State) : Res State :=
  s.fpGate fun s => .next (s.branchIf (fpLt (s.readFp ra)) disp)

/-- FBLE: floating branch if less than or equal to zero; FEN if disabled (R560, R569). -/
def execFble (ra : RegNum) (disp : BitVec 21) (s : State) : Res State :=
  s.fpGate fun s => .next (s.branchIf (fpLe (s.readFp ra)) disp)

/-- FBGT: floating branch if greater than zero; FEN if disabled (R561, R569). -/
def execFbgt (ra : RegNum) (disp : BitVec 21) (s : State) : Res State :=
  s.fpGate fun s => .next (s.branchIf (fpGt (s.readFp ra)) disp)

/-- FBGE: floating branch if greater than or equal to zero; FEN if disabled (R562, R569). -/
def execFbge (ra : RegNum) (disp : BitVec 21) (s : State) : Res State :=
  s.fpGate fun s => .next (s.branchIf (fpGe (s.readFp ra)) disp)

/-- JMP: jump; the hint has no architectural effect (R563). -/
def execJmp (ra rb : RegNum) (_hint : BitVec 14) (s : State) : Res State :=
  .next (s.jumpLink ra rb)

/-- JSR: jump to subroutine; the hint has no architectural effect (R564). -/
def execJsr (ra rb : RegNum) (_hint : BitVec 14) (s : State) : Res State :=
  .next (s.jumpLink ra rb)

/-- RET: return from subroutine; the hint has no architectural effect (R565). -/
def execRet (ra rb : RegNum) (_hint : BitVec 14) (s : State) : Res State :=
  .next (s.jumpLink ra rb)

/-- JSR_COROUTINE: jump to subroutine return; the hint has no architectural effect (R566). -/
def execJsrCoroutine (ra rb : RegNum) (_hint : BitVec 14) (s : State) : Res State :=
  .next (s.jumpLink ra rb)

end Sys2Proof.Machine
end

