-- ==== Sys2Proof/Machine/LoadStore.lean ====
section
/-! DEFINITION. Address computations, loads and stores (40_memory_instructions.md). -/

namespace Sys2Proof.Machine

/-! ## The instructions -/

/-- LDA: load address (R521). -/
def execLda (ra rb : RegNum) (disp : BitVec 16) (s : State) : Res State :=
  .next (s.writeInt ra (s.effAddr rb disp)).advance

/-- LDAH: load address high (R522). -/
def execLdah (ra rb : RegNum) (disp : BitVec 16) (s : State) : Res State :=
  .next (s.writeInt ra (s.readInt rb + (disp.signExtend 64 <<< 16))).advance

/-- LDL: load sign-extended longword (R523). -/
def execLdl (ra rb : RegNum) (disp : BitVec 16) (s : State) : Res State :=
  s.loadInt (Ref.plain (s.effAddr rb disp) false false ra 0x28#6) false

/-- LDQ: load quadword (R524). -/
def execLdq (ra rb : RegNum) (disp : BitVec 16) (s : State) : Res State :=
  s.loadInt (Ref.plain (s.effAddr rb disp) true false ra 0x29#6) false

/-- LDQ_U: load the aligned quadword that holds the addressed byte; with Ra = 31 it does nothing at all (R525, R541). -/
def execLdqU (ra rb : RegNum) (disp : BitVec 16) (s : State) : Res State :=
  if ra = 31#5 then .next s.advance
  else s.loadInt (Ref.unaligned (s.effAddr rb disp) false ra 0x0B#6) false

/-- LDL_L: load longword and take the lock (R526, R360). -/
def execLdlL (ra rb : RegNum) (disp : BitVec 16) (s : State) : Res State :=
  s.loadInt (Ref.plain (s.effAddr rb disp) false false ra 0x2A#6) true

/-- LDQ_L: load quadword and take the lock (R527, R360). -/
def execLdqL (ra rb : RegNum) (disp : BitVec 16) (s : State) : Res State :=
  s.loadInt (Ref.plain (s.effAddr rb disp) true false ra 0x2B#6) true

/-- STL: store longword (R528). -/
def execStl (ra rb : RegNum) (disp : BitVec 16) (s : State) : Res State :=
  s.store (Ref.plain (s.effAddr rb disp) false true ra 0x2C#6) (s.readInt ra)

/-- STQ: store quadword (R529). -/
def execStq (ra rb : RegNum) (disp : BitVec 16) (s : State) : Res State :=
  s.store (Ref.plain (s.effAddr rb disp) true true ra 0x2D#6) (s.readInt ra)

/-- STQ_U: store the aligned quadword that holds the addressed byte (R530). -/
def execStqU (ra rb : RegNum) (disp : BitVec 16) (s : State) : Res State :=
  s.store (Ref.unaligned (s.effAddr rb disp) true ra 0x0F#6) (s.readInt ra)

/-- STL_C: store longword if the lock flag is set; Ra receives the success (R531, R363, R364). -/
def execStlC (ra rb : RegNum) (disp : BitVec 16) (s : State) : Res State :=
  s.storeCond (Ref.plain (s.effAddr rb disp) false true ra 0x2E#6) (s.readInt ra)

/-- STQ_C: store quadword if the lock flag is set (R532, R363, R364). -/
def execStqC (ra rb : RegNum) (disp : BitVec 16) (s : State) : Res State :=
  s.storeCond (Ref.plain (s.effAddr rb disp) true true ra 0x2F#6) (s.readInt ra)

/-- LDF: load F_floating (R533, R542). -/
def execLdf (ra rb : RegNum) (disp : BitVec 16) (s : State) : Res State :=
  s.fpGate fun s => s.loadFp (Ref.plain (s.effAddr rb disp) false false ra 0x20#6) .f

/-- LDG: load G_floating (R534, R542). -/
def execLdg (ra rb : RegNum) (disp : BitVec 16) (s : State) : Res State :=
  s.fpGate fun s => s.loadFp (Ref.plain (s.effAddr rb disp) true false ra 0x21#6) .g

/-- LDS: load S_floating (R535, R542). -/
def execLds (ra rb : RegNum) (disp : BitVec 16) (s : State) : Res State :=
  s.fpGate fun s => s.loadFp (Ref.plain (s.effAddr rb disp) false false ra 0x22#6) .s

/-- LDT: load T_floating (R536, R542). -/
def execLdt (ra rb : RegNum) (disp : BitVec 16) (s : State) : Res State :=
  s.fpGate fun s => s.loadFp (Ref.plain (s.effAddr rb disp) true false ra 0x23#6) .t

/-- STF: store F_floating (R537, R542). -/
def execStf (ra rb : RegNum) (disp : BitVec 16) (s : State) : Res State :=
  s.fpGate fun s => s.store (Ref.plain (s.effAddr rb disp) false true ra 0x24#6) (toMemF (s.readFp ra))

/-- STG: store G_floating (R538, R542). -/
def execStg (ra rb : RegNum) (disp : BitVec 16) (s : State) : Res State :=
  s.fpGate fun s => s.store (Ref.plain (s.effAddr rb disp) true true ra 0x25#6) (swapWords (s.readFp ra))

/-- STS: store S_floating (R539, R542). -/
def execSts (ra rb : RegNum) (disp : BitVec 16) (s : State) : Res State :=
  s.fpGate fun s => s.store (Ref.plain (s.effAddr rb disp) false true ra 0x26#6) (toMemS (s.readFp ra))

/-- STT: store T_floating (R540, R542). -/
def execStt (ra rb : RegNum) (disp : BitVec 16) (s : State) : Res State :=
  s.fpGate fun s => s.store (Ref.plain (s.effAddr rb disp) true true ra 0x27#6) (s.readFp ra)

end Sys2Proof.Machine
end

