-- ==== Sys2Proof/Machine/FpIeee.lean ====
section
/-! DEFINITION. IEEE floating-point instructions, opcode 16 (45_floating_point.md, section 6): each names its operation and the
qualifiers of its function code. -/

namespace Sys2Proof.Machine

/-- ADDx, SUBx, MULx, DIVx (R850 to R857). -/
def State.ieeeArith (s : State) (op : FpBinary) (single : Bool) (q : Quals) (fa fb fc : RegNum) : State :=
  s.finishFp fc q.soft (ieeeBinary op single q s.fpControl (s.readFp fa) (s.readFp fb))

/-- CMPTxx (R858 to R861). -/
def State.ieeeCmp (s : State) (op : FpCompare) (q : Quals) (fa fb fc : RegNum) : State :=
  s.finishFp fc q.soft (ieeeCompare op (s.readFp fa) (s.readFp fb))

/-- A conversion of Fb (R862 to R866). -/
def State.ieeeCvt (s : State) (f : Quals → FpControl → Word → FpOutcome) (q : Quals) (fb fc : RegNum) : State :=
  s.finishFp fc q.soft (f q s.fpControl (s.readFp fb))

/-- ADDS (R850). -/
def execAdds (fa fb fc : RegNum) (s : State) : Res State :=
  s.fpGate fun s => .next (s.ieeeArith .add true ⟨.normal, false, false, false⟩ fa fb fc)

/-- ADDS_C (R850). -/
def execAddsC (fa fb fc : RegNum) (s : State) : Res State :=
  s.fpGate fun s => .next (s.ieeeArith .add true ⟨.chopped, false, false, false⟩ fa fb fc)

/-- ADDS_M (R850). -/
def execAddsM (fa fb fc : RegNum) (s : State) : Res State :=
  s.fpGate fun s => .next (s.ieeeArith .add true ⟨.minus, false, false, false⟩ fa fb fc)

/-- ADDS_D (R850). -/
def execAddsD (fa fb fc : RegNum) (s : State) : Res State :=
  s.fpGate fun s => .next (s.ieeeArith .add true ⟨.dynamic, false, false, false⟩ fa fb fc)

/-- ADDS_U (R850). -/
def execAddsU (fa fb fc : RegNum) (s : State) : Res State :=
  s.fpGate fun s => .next (s.ieeeArith .add true ⟨.normal, true, false, false⟩ fa fb fc)

/-- ADDS_UC (R850). -/
def execAddsUc (fa fb fc : RegNum) (s : State) : Res State :=
  s.fpGate fun s => .next (s.ieeeArith .add true ⟨.chopped, true, false, false⟩ fa fb fc)

/-- ADDS_UM (R850). -/
def execAddsUm (fa fb fc : RegNum) (s : State) : Res State :=
  s.fpGate fun s => .next (s.ieeeArith .add true ⟨.minus, true, false, false⟩ fa fb fc)

/-- ADDS_UD (R850). -/
def execAddsUd (fa fb fc : RegNum) (s : State) : Res State :=
  s.fpGate fun s => .next (s.ieeeArith .add true ⟨.dynamic, true, false, false⟩ fa fb fc)

/-- ADDS_SU (R850). -/
def execAddsSu (fa fb fc : RegNum) (s : State) : Res State :=
  s.fpGate fun s => .next (s.ieeeArith .add true ⟨.normal, true, true, false⟩ fa fb fc)

/-- ADDS_SUC (R850). -/
def execAddsSuc (fa fb fc : RegNum) (s : State) : Res State :=
  s.fpGate fun s => .next (s.ieeeArith .add true ⟨.chopped, true, true, false⟩ fa fb fc)

/-- ADDS_SUM (R850). -/
def execAddsSum (fa fb fc : RegNum) (s : State) : Res State :=
  s.fpGate fun s => .next (s.ieeeArith .add true ⟨.minus, true, true, false⟩ fa fb fc)

/-- ADDS_SUD (R850). -/
def execAddsSud (fa fb fc : RegNum) (s : State) : Res State :=
  s.fpGate fun s => .next (s.ieeeArith .add true ⟨.dynamic, true, true, false⟩ fa fb fc)

/-- ADDS_SUI (R850). -/
def execAddsSui (fa fb fc : RegNum) (s : State) : Res State :=
  s.fpGate fun s => .next (s.ieeeArith .add true ⟨.normal, true, true, true⟩ fa fb fc)

/-- ADDS_SUIC (R850). -/
def execAddsSuic (fa fb fc : RegNum) (s : State) : Res State :=
  s.fpGate fun s => .next (s.ieeeArith .add true ⟨.chopped, true, true, true⟩ fa fb fc)

/-- ADDS_SUIM (R850). -/
def execAddsSuim (fa fb fc : RegNum) (s : State) : Res State :=
  s.fpGate fun s => .next (s.ieeeArith .add true ⟨.minus, true, true, true⟩ fa fb fc)

/-- ADDS_SUID (R850). -/
def execAddsSuid (fa fb fc : RegNum) (s : State) : Res State :=
  s.fpGate fun s => .next (s.ieeeArith .add true ⟨.dynamic, true, true, true⟩ fa fb fc)

/-- ADDT (R851). -/
def execAddt (fa fb fc : RegNum) (s : State) : Res State :=
  s.fpGate fun s => .next (s.ieeeArith .add false ⟨.normal, false, false, false⟩ fa fb fc)

/-- ADDT_C (R851). -/
def execAddtC (fa fb fc : RegNum) (s : State) : Res State :=
  s.fpGate fun s => .next (s.ieeeArith .add false ⟨.chopped, false, false, false⟩ fa fb fc)

/-- ADDT_M (R851). -/
def execAddtM (fa fb fc : RegNum) (s : State) : Res State :=
  s.fpGate fun s => .next (s.ieeeArith .add false ⟨.minus, false, false, false⟩ fa fb fc)

/-- ADDT_D (R851). -/
def execAddtD (fa fb fc : RegNum) (s : State) : Res State :=
  s.fpGate fun s => .next (s.ieeeArith .add false ⟨.dynamic, false, false, false⟩ fa fb fc)

/-- ADDT_U (R851). -/
def execAddtU (fa fb fc : RegNum) (s : State) : Res State :=
  s.fpGate fun s => .next (s.ieeeArith .add false ⟨.normal, true, false, false⟩ fa fb fc)

/-- ADDT_UC (R851). -/
def execAddtUc (fa fb fc : RegNum) (s : State) : Res State :=
  s.fpGate fun s => .next (s.ieeeArith .add false ⟨.chopped, true, false, false⟩ fa fb fc)

/-- ADDT_UM (R851). -/
def execAddtUm (fa fb fc : RegNum) (s : State) : Res State :=
  s.fpGate fun s => .next (s.ieeeArith .add false ⟨.minus, true, false, false⟩ fa fb fc)

/-- ADDT_UD (R851). -/
def execAddtUd (fa fb fc : RegNum) (s : State) : Res State :=
  s.fpGate fun s => .next (s.ieeeArith .add false ⟨.dynamic, true, false, false⟩ fa fb fc)

/-- ADDT_SU (R851). -/
def execAddtSu (fa fb fc : RegNum) (s : State) : Res State :=
  s.fpGate fun s => .next (s.ieeeArith .add false ⟨.normal, true, true, false⟩ fa fb fc)

/-- ADDT_SUC (R851). -/
def execAddtSuc (fa fb fc : RegNum) (s : State) : Res State :=
  s.fpGate fun s => .next (s.ieeeArith .add false ⟨.chopped, true, true, false⟩ fa fb fc)

/-- ADDT_SUM (R851). -/
def execAddtSum (fa fb fc : RegNum) (s : State) : Res State :=
  s.fpGate fun s => .next (s.ieeeArith .add false ⟨.minus, true, true, false⟩ fa fb fc)

/-- ADDT_SUD (R851). -/
def execAddtSud (fa fb fc : RegNum) (s : State) : Res State :=
  s.fpGate fun s => .next (s.ieeeArith .add false ⟨.dynamic, true, true, false⟩ fa fb fc)

/-- ADDT_SUI (R851). -/
def execAddtSui (fa fb fc : RegNum) (s : State) : Res State :=
  s.fpGate fun s => .next (s.ieeeArith .add false ⟨.normal, true, true, true⟩ fa fb fc)

/-- ADDT_SUIC (R851). -/
def execAddtSuic (fa fb fc : RegNum) (s : State) : Res State :=
  s.fpGate fun s => .next (s.ieeeArith .add false ⟨.chopped, true, true, true⟩ fa fb fc)

/-- ADDT_SUIM (R851). -/
def execAddtSuim (fa fb fc : RegNum) (s : State) : Res State :=
  s.fpGate fun s => .next (s.ieeeArith .add false ⟨.minus, true, true, true⟩ fa fb fc)

/-- ADDT_SUID (R851). -/
def execAddtSuid (fa fb fc : RegNum) (s : State) : Res State :=
  s.fpGate fun s => .next (s.ieeeArith .add false ⟨.dynamic, true, true, true⟩ fa fb fc)

/-- SUBS (R852). -/
def execSubs (fa fb fc : RegNum) (s : State) : Res State :=
  s.fpGate fun s => .next (s.ieeeArith .sub true ⟨.normal, false, false, false⟩ fa fb fc)

/-- SUBS_C (R852). -/
def execSubsC (fa fb fc : RegNum) (s : State) : Res State :=
  s.fpGate fun s => .next (s.ieeeArith .sub true ⟨.chopped, false, false, false⟩ fa fb fc)

/-- SUBS_M (R852). -/
def execSubsM (fa fb fc : RegNum) (s : State) : Res State :=
  s.fpGate fun s => .next (s.ieeeArith .sub true ⟨.minus, false, false, false⟩ fa fb fc)

/-- SUBS_D (R852). -/
def execSubsD (fa fb fc : RegNum) (s : State) : Res State :=
  s.fpGate fun s => .next (s.ieeeArith .sub true ⟨.dynamic, false, false, false⟩ fa fb fc)

/-- SUBS_U (R852). -/
def execSubsU (fa fb fc : RegNum) (s : State) : Res State :=
  s.fpGate fun s => .next (s.ieeeArith .sub true ⟨.normal, true, false, false⟩ fa fb fc)

/-- SUBS_UC (R852). -/
def execSubsUc (fa fb fc : RegNum) (s : State) : Res State :=
  s.fpGate fun s => .next (s.ieeeArith .sub true ⟨.chopped, true, false, false⟩ fa fb fc)

/-- SUBS_UM (R852). -/
def execSubsUm (fa fb fc : RegNum) (s : State) : Res State :=
  s.fpGate fun s => .next (s.ieeeArith .sub true ⟨.minus, true, false, false⟩ fa fb fc)

/-- SUBS_UD (R852). -/
def execSubsUd (fa fb fc : RegNum) (s : State) : Res State :=
  s.fpGate fun s => .next (s.ieeeArith .sub true ⟨.dynamic, true, false, false⟩ fa fb fc)

/-- SUBS_SU (R852). -/
def execSubsSu (fa fb fc : RegNum) (s : State) : Res State :=
  s.fpGate fun s => .next (s.ieeeArith .sub true ⟨.normal, true, true, false⟩ fa fb fc)

/-- SUBS_SUC (R852). -/
def execSubsSuc (fa fb fc : RegNum) (s : State) : Res State :=
  s.fpGate fun s => .next (s.ieeeArith .sub true ⟨.chopped, true, true, false⟩ fa fb fc)

/-- SUBS_SUM (R852). -/
def execSubsSum (fa fb fc : RegNum) (s : State) : Res State :=
  s.fpGate fun s => .next (s.ieeeArith .sub true ⟨.minus, true, true, false⟩ fa fb fc)

/-- SUBS_SUD (R852). -/
def execSubsSud (fa fb fc : RegNum) (s : State) : Res State :=
  s.fpGate fun s => .next (s.ieeeArith .sub true ⟨.dynamic, true, true, false⟩ fa fb fc)

/-- SUBS_SUI (R852). -/
def execSubsSui (fa fb fc : RegNum) (s : State) : Res State :=
  s.fpGate fun s => .next (s.ieeeArith .sub true ⟨.normal, true, true, true⟩ fa fb fc)

/-- SUBS_SUIC (R852). -/
def execSubsSuic (fa fb fc : RegNum) (s : State) : Res State :=
  s.fpGate fun s => .next (s.ieeeArith .sub true ⟨.chopped, true, true, true⟩ fa fb fc)

/-- SUBS_SUIM (R852). -/
def execSubsSuim (fa fb fc : RegNum) (s : State) : Res State :=
  s.fpGate fun s => .next (s.ieeeArith .sub true ⟨.minus, true, true, true⟩ fa fb fc)

/-- SUBS_SUID (R852). -/
def execSubsSuid (fa fb fc : RegNum) (s : State) : Res State :=
  s.fpGate fun s => .next (s.ieeeArith .sub true ⟨.dynamic, true, true, true⟩ fa fb fc)

/-- SUBT (R853). -/
def execSubt (fa fb fc : RegNum) (s : State) : Res State :=
  s.fpGate fun s => .next (s.ieeeArith .sub false ⟨.normal, false, false, false⟩ fa fb fc)

/-- SUBT_C (R853). -/
def execSubtC (fa fb fc : RegNum) (s : State) : Res State :=
  s.fpGate fun s => .next (s.ieeeArith .sub false ⟨.chopped, false, false, false⟩ fa fb fc)

/-- SUBT_M (R853). -/
def execSubtM (fa fb fc : RegNum) (s : State) : Res State :=
  s.fpGate fun s => .next (s.ieeeArith .sub false ⟨.minus, false, false, false⟩ fa fb fc)

/-- SUBT_D (R853). -/
def execSubtD (fa fb fc : RegNum) (s : State) : Res State :=
  s.fpGate fun s => .next (s.ieeeArith .sub false ⟨.dynamic, false, false, false⟩ fa fb fc)

/-- SUBT_U (R853). -/
def execSubtU (fa fb fc : RegNum) (s : State) : Res State :=
  s.fpGate fun s => .next (s.ieeeArith .sub false ⟨.normal, true, false, false⟩ fa fb fc)

/-- SUBT_UC (R853). -/
def execSubtUc (fa fb fc : RegNum) (s : State) : Res State :=
  s.fpGate fun s => .next (s.ieeeArith .sub false ⟨.chopped, true, false, false⟩ fa fb fc)

/-- SUBT_UM (R853). -/
def execSubtUm (fa fb fc : RegNum) (s : State) : Res State :=
  s.fpGate fun s => .next (s.ieeeArith .sub false ⟨.minus, true, false, false⟩ fa fb fc)

/-- SUBT_UD (R853). -/
def execSubtUd (fa fb fc : RegNum) (s : State) : Res State :=
  s.fpGate fun s => .next (s.ieeeArith .sub false ⟨.dynamic, true, false, false⟩ fa fb fc)

/-- SUBT_SU (R853). -/
def execSubtSu (fa fb fc : RegNum) (s : State) : Res State :=
  s.fpGate fun s => .next (s.ieeeArith .sub false ⟨.normal, true, true, false⟩ fa fb fc)

/-- SUBT_SUC (R853). -/
def execSubtSuc (fa fb fc : RegNum) (s : State) : Res State :=
  s.fpGate fun s => .next (s.ieeeArith .sub false ⟨.chopped, true, true, false⟩ fa fb fc)

/-- SUBT_SUM (R853). -/
def execSubtSum (fa fb fc : RegNum) (s : State) : Res State :=
  s.fpGate fun s => .next (s.ieeeArith .sub false ⟨.minus, true, true, false⟩ fa fb fc)

/-- SUBT_SUD (R853). -/
def execSubtSud (fa fb fc : RegNum) (s : State) : Res State :=
  s.fpGate fun s => .next (s.ieeeArith .sub false ⟨.dynamic, true, true, false⟩ fa fb fc)

/-- SUBT_SUI (R853). -/
def execSubtSui (fa fb fc : RegNum) (s : State) : Res State :=
  s.fpGate fun s => .next (s.ieeeArith .sub false ⟨.normal, true, true, true⟩ fa fb fc)

/-- SUBT_SUIC (R853). -/
def execSubtSuic (fa fb fc : RegNum) (s : State) : Res State :=
  s.fpGate fun s => .next (s.ieeeArith .sub false ⟨.chopped, true, true, true⟩ fa fb fc)

/-- SUBT_SUIM (R853). -/
def execSubtSuim (fa fb fc : RegNum) (s : State) : Res State :=
  s.fpGate fun s => .next (s.ieeeArith .sub false ⟨.minus, true, true, true⟩ fa fb fc)

/-- SUBT_SUID (R853). -/
def execSubtSuid (fa fb fc : RegNum) (s : State) : Res State :=
  s.fpGate fun s => .next (s.ieeeArith .sub false ⟨.dynamic, true, true, true⟩ fa fb fc)

/-- MULS (R854). -/
def execMuls (fa fb fc : RegNum) (s : State) : Res State :=
  s.fpGate fun s => .next (s.ieeeArith .mul true ⟨.normal, false, false, false⟩ fa fb fc)

/-- MULS_C (R854). -/
def execMulsC (fa fb fc : RegNum) (s : State) : Res State :=
  s.fpGate fun s => .next (s.ieeeArith .mul true ⟨.chopped, false, false, false⟩ fa fb fc)

/-- MULS_M (R854). -/
def execMulsM (fa fb fc : RegNum) (s : State) : Res State :=
  s.fpGate fun s => .next (s.ieeeArith .mul true ⟨.minus, false, false, false⟩ fa fb fc)

/-- MULS_D (R854). -/
def execMulsD (fa fb fc : RegNum) (s : State) : Res State :=
  s.fpGate fun s => .next (s.ieeeArith .mul true ⟨.dynamic, false, false, false⟩ fa fb fc)

/-- MULS_U (R854). -/
def execMulsU (fa fb fc : RegNum) (s : State) : Res State :=
  s.fpGate fun s => .next (s.ieeeArith .mul true ⟨.normal, true, false, false⟩ fa fb fc)

/-- MULS_UC (R854). -/
def execMulsUc (fa fb fc : RegNum) (s : State) : Res State :=
  s.fpGate fun s => .next (s.ieeeArith .mul true ⟨.chopped, true, false, false⟩ fa fb fc)

/-- MULS_UM (R854). -/
def execMulsUm (fa fb fc : RegNum) (s : State) : Res State :=
  s.fpGate fun s => .next (s.ieeeArith .mul true ⟨.minus, true, false, false⟩ fa fb fc)

/-- MULS_UD (R854). -/
def execMulsUd (fa fb fc : RegNum) (s : State) : Res State :=
  s.fpGate fun s => .next (s.ieeeArith .mul true ⟨.dynamic, true, false, false⟩ fa fb fc)

/-- MULS_SU (R854). -/
def execMulsSu (fa fb fc : RegNum) (s : State) : Res State :=
  s.fpGate fun s => .next (s.ieeeArith .mul true ⟨.normal, true, true, false⟩ fa fb fc)

/-- MULS_SUC (R854). -/
def execMulsSuc (fa fb fc : RegNum) (s : State) : Res State :=
  s.fpGate fun s => .next (s.ieeeArith .mul true ⟨.chopped, true, true, false⟩ fa fb fc)

/-- MULS_SUM (R854). -/
def execMulsSum (fa fb fc : RegNum) (s : State) : Res State :=
  s.fpGate fun s => .next (s.ieeeArith .mul true ⟨.minus, true, true, false⟩ fa fb fc)

/-- MULS_SUD (R854). -/
def execMulsSud (fa fb fc : RegNum) (s : State) : Res State :=
  s.fpGate fun s => .next (s.ieeeArith .mul true ⟨.dynamic, true, true, false⟩ fa fb fc)

/-- MULS_SUI (R854). -/
def execMulsSui (fa fb fc : RegNum) (s : State) : Res State :=
  s.fpGate fun s => .next (s.ieeeArith .mul true ⟨.normal, true, true, true⟩ fa fb fc)

/-- MULS_SUIC (R854). -/
def execMulsSuic (fa fb fc : RegNum) (s : State) : Res State :=
  s.fpGate fun s => .next (s.ieeeArith .mul true ⟨.chopped, true, true, true⟩ fa fb fc)

/-- MULS_SUIM (R854). -/
def execMulsSuim (fa fb fc : RegNum) (s : State) : Res State :=
  s.fpGate fun s => .next (s.ieeeArith .mul true ⟨.minus, true, true, true⟩ fa fb fc)

/-- MULS_SUID (R854). -/
def execMulsSuid (fa fb fc : RegNum) (s : State) : Res State :=
  s.fpGate fun s => .next (s.ieeeArith .mul true ⟨.dynamic, true, true, true⟩ fa fb fc)

/-- MULT (R855). -/
def execMult (fa fb fc : RegNum) (s : State) : Res State :=
  s.fpGate fun s => .next (s.ieeeArith .mul false ⟨.normal, false, false, false⟩ fa fb fc)

/-- MULT_C (R855). -/
def execMultC (fa fb fc : RegNum) (s : State) : Res State :=
  s.fpGate fun s => .next (s.ieeeArith .mul false ⟨.chopped, false, false, false⟩ fa fb fc)

/-- MULT_M (R855). -/
def execMultM (fa fb fc : RegNum) (s : State) : Res State :=
  s.fpGate fun s => .next (s.ieeeArith .mul false ⟨.minus, false, false, false⟩ fa fb fc)

/-- MULT_D (R855). -/
def execMultD (fa fb fc : RegNum) (s : State) : Res State :=
  s.fpGate fun s => .next (s.ieeeArith .mul false ⟨.dynamic, false, false, false⟩ fa fb fc)

/-- MULT_U (R855). -/
def execMultU (fa fb fc : RegNum) (s : State) : Res State :=
  s.fpGate fun s => .next (s.ieeeArith .mul false ⟨.normal, true, false, false⟩ fa fb fc)

/-- MULT_UC (R855). -/
def execMultUc (fa fb fc : RegNum) (s : State) : Res State :=
  s.fpGate fun s => .next (s.ieeeArith .mul false ⟨.chopped, true, false, false⟩ fa fb fc)

/-- MULT_UM (R855). -/
def execMultUm (fa fb fc : RegNum) (s : State) : Res State :=
  s.fpGate fun s => .next (s.ieeeArith .mul false ⟨.minus, true, false, false⟩ fa fb fc)

/-- MULT_UD (R855). -/
def execMultUd (fa fb fc : RegNum) (s : State) : Res State :=
  s.fpGate fun s => .next (s.ieeeArith .mul false ⟨.dynamic, true, false, false⟩ fa fb fc)

/-- MULT_SU (R855). -/
def execMultSu (fa fb fc : RegNum) (s : State) : Res State :=
  s.fpGate fun s => .next (s.ieeeArith .mul false ⟨.normal, true, true, false⟩ fa fb fc)

/-- MULT_SUC (R855). -/
def execMultSuc (fa fb fc : RegNum) (s : State) : Res State :=
  s.fpGate fun s => .next (s.ieeeArith .mul false ⟨.chopped, true, true, false⟩ fa fb fc)

/-- MULT_SUM (R855). -/
def execMultSum (fa fb fc : RegNum) (s : State) : Res State :=
  s.fpGate fun s => .next (s.ieeeArith .mul false ⟨.minus, true, true, false⟩ fa fb fc)

/-- MULT_SUD (R855). -/
def execMultSud (fa fb fc : RegNum) (s : State) : Res State :=
  s.fpGate fun s => .next (s.ieeeArith .mul false ⟨.dynamic, true, true, false⟩ fa fb fc)

/-- MULT_SUI (R855). -/
def execMultSui (fa fb fc : RegNum) (s : State) : Res State :=
  s.fpGate fun s => .next (s.ieeeArith .mul false ⟨.normal, true, true, true⟩ fa fb fc)

/-- MULT_SUIC (R855). -/
def execMultSuic (fa fb fc : RegNum) (s : State) : Res State :=
  s.fpGate fun s => .next (s.ieeeArith .mul false ⟨.chopped, true, true, true⟩ fa fb fc)

/-- MULT_SUIM (R855). -/
def execMultSuim (fa fb fc : RegNum) (s : State) : Res State :=
  s.fpGate fun s => .next (s.ieeeArith .mul false ⟨.minus, true, true, true⟩ fa fb fc)

/-- MULT_SUID (R855). -/
def execMultSuid (fa fb fc : RegNum) (s : State) : Res State :=
  s.fpGate fun s => .next (s.ieeeArith .mul false ⟨.dynamic, true, true, true⟩ fa fb fc)

/-- DIVS (R856). -/
def execDivs (fa fb fc : RegNum) (s : State) : Res State :=
  s.fpGate fun s => .next (s.ieeeArith .div true ⟨.normal, false, false, false⟩ fa fb fc)

/-- DIVS_C (R856). -/
def execDivsC (fa fb fc : RegNum) (s : State) : Res State :=
  s.fpGate fun s => .next (s.ieeeArith .div true ⟨.chopped, false, false, false⟩ fa fb fc)

/-- DIVS_M (R856). -/
def execDivsM (fa fb fc : RegNum) (s : State) : Res State :=
  s.fpGate fun s => .next (s.ieeeArith .div true ⟨.minus, false, false, false⟩ fa fb fc)

/-- DIVS_D (R856). -/
def execDivsD (fa fb fc : RegNum) (s : State) : Res State :=
  s.fpGate fun s => .next (s.ieeeArith .div true ⟨.dynamic, false, false, false⟩ fa fb fc)

/-- DIVS_U (R856). -/
def execDivsU (fa fb fc : RegNum) (s : State) : Res State :=
  s.fpGate fun s => .next (s.ieeeArith .div true ⟨.normal, true, false, false⟩ fa fb fc)

/-- DIVS_UC (R856). -/
def execDivsUc (fa fb fc : RegNum) (s : State) : Res State :=
  s.fpGate fun s => .next (s.ieeeArith .div true ⟨.chopped, true, false, false⟩ fa fb fc)

/-- DIVS_UM (R856). -/
def execDivsUm (fa fb fc : RegNum) (s : State) : Res State :=
  s.fpGate fun s => .next (s.ieeeArith .div true ⟨.minus, true, false, false⟩ fa fb fc)

/-- DIVS_UD (R856). -/
def execDivsUd (fa fb fc : RegNum) (s : State) : Res State :=
  s.fpGate fun s => .next (s.ieeeArith .div true ⟨.dynamic, true, false, false⟩ fa fb fc)

/-- DIVS_SU (R856). -/
def execDivsSu (fa fb fc : RegNum) (s : State) : Res State :=
  s.fpGate fun s => .next (s.ieeeArith .div true ⟨.normal, true, true, false⟩ fa fb fc)

/-- DIVS_SUC (R856). -/
def execDivsSuc (fa fb fc : RegNum) (s : State) : Res State :=
  s.fpGate fun s => .next (s.ieeeArith .div true ⟨.chopped, true, true, false⟩ fa fb fc)

/-- DIVS_SUM (R856). -/
def execDivsSum (fa fb fc : RegNum) (s : State) : Res State :=
  s.fpGate fun s => .next (s.ieeeArith .div true ⟨.minus, true, true, false⟩ fa fb fc)

/-- DIVS_SUD (R856). -/
def execDivsSud (fa fb fc : RegNum) (s : State) : Res State :=
  s.fpGate fun s => .next (s.ieeeArith .div true ⟨.dynamic, true, true, false⟩ fa fb fc)

/-- DIVS_SUI (R856). -/
def execDivsSui (fa fb fc : RegNum) (s : State) : Res State :=
  s.fpGate fun s => .next (s.ieeeArith .div true ⟨.normal, true, true, true⟩ fa fb fc)

/-- DIVS_SUIC (R856). -/
def execDivsSuic (fa fb fc : RegNum) (s : State) : Res State :=
  s.fpGate fun s => .next (s.ieeeArith .div true ⟨.chopped, true, true, true⟩ fa fb fc)

/-- DIVS_SUIM (R856). -/
def execDivsSuim (fa fb fc : RegNum) (s : State) : Res State :=
  s.fpGate fun s => .next (s.ieeeArith .div true ⟨.minus, true, true, true⟩ fa fb fc)

/-- DIVS_SUID (R856). -/
def execDivsSuid (fa fb fc : RegNum) (s : State) : Res State :=
  s.fpGate fun s => .next (s.ieeeArith .div true ⟨.dynamic, true, true, true⟩ fa fb fc)

/-- DIVT (R857). -/
def execDivt (fa fb fc : RegNum) (s : State) : Res State :=
  s.fpGate fun s => .next (s.ieeeArith .div false ⟨.normal, false, false, false⟩ fa fb fc)

/-- DIVT_C (R857). -/
def execDivtC (fa fb fc : RegNum) (s : State) : Res State :=
  s.fpGate fun s => .next (s.ieeeArith .div false ⟨.chopped, false, false, false⟩ fa fb fc)

/-- DIVT_M (R857). -/
def execDivtM (fa fb fc : RegNum) (s : State) : Res State :=
  s.fpGate fun s => .next (s.ieeeArith .div false ⟨.minus, false, false, false⟩ fa fb fc)

/-- DIVT_D (R857). -/
def execDivtD (fa fb fc : RegNum) (s : State) : Res State :=
  s.fpGate fun s => .next (s.ieeeArith .div false ⟨.dynamic, false, false, false⟩ fa fb fc)

/-- DIVT_U (R857). -/
def execDivtU (fa fb fc : RegNum) (s : State) : Res State :=
  s.fpGate fun s => .next (s.ieeeArith .div false ⟨.normal, true, false, false⟩ fa fb fc)

/-- DIVT_UC (R857). -/
def execDivtUc (fa fb fc : RegNum) (s : State) : Res State :=
  s.fpGate fun s => .next (s.ieeeArith .div false ⟨.chopped, true, false, false⟩ fa fb fc)

/-- DIVT_UM (R857). -/
def execDivtUm (fa fb fc : RegNum) (s : State) : Res State :=
  s.fpGate fun s => .next (s.ieeeArith .div false ⟨.minus, true, false, false⟩ fa fb fc)

/-- DIVT_UD (R857). -/
def execDivtUd (fa fb fc : RegNum) (s : State) : Res State :=
  s.fpGate fun s => .next (s.ieeeArith .div false ⟨.dynamic, true, false, false⟩ fa fb fc)

/-- DIVT_SU (R857). -/
def execDivtSu (fa fb fc : RegNum) (s : State) : Res State :=
  s.fpGate fun s => .next (s.ieeeArith .div false ⟨.normal, true, true, false⟩ fa fb fc)

/-- DIVT_SUC (R857). -/
def execDivtSuc (fa fb fc : RegNum) (s : State) : Res State :=
  s.fpGate fun s => .next (s.ieeeArith .div false ⟨.chopped, true, true, false⟩ fa fb fc)

/-- DIVT_SUM (R857). -/
def execDivtSum (fa fb fc : RegNum) (s : State) : Res State :=
  s.fpGate fun s => .next (s.ieeeArith .div false ⟨.minus, true, true, false⟩ fa fb fc)

/-- DIVT_SUD (R857). -/
def execDivtSud (fa fb fc : RegNum) (s : State) : Res State :=
  s.fpGate fun s => .next (s.ieeeArith .div false ⟨.dynamic, true, true, false⟩ fa fb fc)

/-- DIVT_SUI (R857). -/
def execDivtSui (fa fb fc : RegNum) (s : State) : Res State :=
  s.fpGate fun s => .next (s.ieeeArith .div false ⟨.normal, true, true, true⟩ fa fb fc)

/-- DIVT_SUIC (R857). -/
def execDivtSuic (fa fb fc : RegNum) (s : State) : Res State :=
  s.fpGate fun s => .next (s.ieeeArith .div false ⟨.chopped, true, true, true⟩ fa fb fc)

/-- DIVT_SUIM (R857). -/
def execDivtSuim (fa fb fc : RegNum) (s : State) : Res State :=
  s.fpGate fun s => .next (s.ieeeArith .div false ⟨.minus, true, true, true⟩ fa fb fc)

/-- DIVT_SUID (R857). -/
def execDivtSuid (fa fb fc : RegNum) (s : State) : Res State :=
  s.fpGate fun s => .next (s.ieeeArith .div false ⟨.dynamic, true, true, true⟩ fa fb fc)

/-- CMPTEQ (R858). -/
def execCmpteq (fa fb fc : RegNum) (s : State) : Res State :=
  s.fpGate fun s => .next (s.ieeeCmp .eq ⟨.normal, false, false, false⟩ fa fb fc)

/-- CMPTEQ_SU (R858). -/
def execCmpteqSu (fa fb fc : RegNum) (s : State) : Res State :=
  s.fpGate fun s => .next (s.ieeeCmp .eq ⟨.normal, true, true, false⟩ fa fb fc)

/-- CMPTLT (R859). -/
def execCmptlt (fa fb fc : RegNum) (s : State) : Res State :=
  s.fpGate fun s => .next (s.ieeeCmp .lt ⟨.normal, false, false, false⟩ fa fb fc)

/-- CMPTLT_SU (R859). -/
def execCmptltSu (fa fb fc : RegNum) (s : State) : Res State :=
  s.fpGate fun s => .next (s.ieeeCmp .lt ⟨.normal, true, true, false⟩ fa fb fc)

/-- CMPTLE (R860). -/
def execCmptle (fa fb fc : RegNum) (s : State) : Res State :=
  s.fpGate fun s => .next (s.ieeeCmp .le ⟨.normal, false, false, false⟩ fa fb fc)

/-- CMPTLE_SU (R860). -/
def execCmptleSu (fa fb fc : RegNum) (s : State) : Res State :=
  s.fpGate fun s => .next (s.ieeeCmp .le ⟨.normal, true, true, false⟩ fa fb fc)

/-- CMPTUN (R861). -/
def execCmptun (fa fb fc : RegNum) (s : State) : Res State :=
  s.fpGate fun s => .next (s.ieeeCmp .un ⟨.normal, false, false, false⟩ fa fb fc)

/-- CMPTUN_SU (R861). -/
def execCmptunSu (fa fb fc : RegNum) (s : State) : Res State :=
  s.fpGate fun s => .next (s.ieeeCmp .un ⟨.normal, true, true, false⟩ fa fb fc)

/-- CVTQS (R862). -/
def execCvtqs (_fa fb fc : RegNum) (s : State) : Res State :=
  s.fpGate fun s => .next (s.ieeeCvt (ieeeFromInt .s) ⟨.normal, false, false, false⟩ fb fc)

/-- CVTQS_C (R862). -/
def execCvtqsC (_fa fb fc : RegNum) (s : State) : Res State :=
  s.fpGate fun s => .next (s.ieeeCvt (ieeeFromInt .s) ⟨.chopped, false, false, false⟩ fb fc)

/-- CVTQS_M (R862). -/
def execCvtqsM (_fa fb fc : RegNum) (s : State) : Res State :=
  s.fpGate fun s => .next (s.ieeeCvt (ieeeFromInt .s) ⟨.minus, false, false, false⟩ fb fc)

/-- CVTQS_D (R862). -/
def execCvtqsD (_fa fb fc : RegNum) (s : State) : Res State :=
  s.fpGate fun s => .next (s.ieeeCvt (ieeeFromInt .s) ⟨.dynamic, false, false, false⟩ fb fc)

/-- CVTQS_SUI (R862). -/
def execCvtqsSui (_fa fb fc : RegNum) (s : State) : Res State :=
  s.fpGate fun s => .next (s.ieeeCvt (ieeeFromInt .s) ⟨.normal, true, true, true⟩ fb fc)

/-- CVTQS_SUIC (R862). -/
def execCvtqsSuic (_fa fb fc : RegNum) (s : State) : Res State :=
  s.fpGate fun s => .next (s.ieeeCvt (ieeeFromInt .s) ⟨.chopped, true, true, true⟩ fb fc)

/-- CVTQS_SUIM (R862). -/
def execCvtqsSuim (_fa fb fc : RegNum) (s : State) : Res State :=
  s.fpGate fun s => .next (s.ieeeCvt (ieeeFromInt .s) ⟨.minus, true, true, true⟩ fb fc)

/-- CVTQS_SUID (R862). -/
def execCvtqsSuid (_fa fb fc : RegNum) (s : State) : Res State :=
  s.fpGate fun s => .next (s.ieeeCvt (ieeeFromInt .s) ⟨.dynamic, true, true, true⟩ fb fc)

/-- CVTQT (R863). -/
def execCvtqt (_fa fb fc : RegNum) (s : State) : Res State :=
  s.fpGate fun s => .next (s.ieeeCvt (ieeeFromInt .t) ⟨.normal, false, false, false⟩ fb fc)

/-- CVTQT_C (R863). -/
def execCvtqtC (_fa fb fc : RegNum) (s : State) : Res State :=
  s.fpGate fun s => .next (s.ieeeCvt (ieeeFromInt .t) ⟨.chopped, false, false, false⟩ fb fc)

/-- CVTQT_M (R863). -/
def execCvtqtM (_fa fb fc : RegNum) (s : State) : Res State :=
  s.fpGate fun s => .next (s.ieeeCvt (ieeeFromInt .t) ⟨.minus, false, false, false⟩ fb fc)

/-- CVTQT_D (R863). -/
def execCvtqtD (_fa fb fc : RegNum) (s : State) : Res State :=
  s.fpGate fun s => .next (s.ieeeCvt (ieeeFromInt .t) ⟨.dynamic, false, false, false⟩ fb fc)

/-- CVTQT_SUI (R863). -/
def execCvtqtSui (_fa fb fc : RegNum) (s : State) : Res State :=
  s.fpGate fun s => .next (s.ieeeCvt (ieeeFromInt .t) ⟨.normal, true, true, true⟩ fb fc)

/-- CVTQT_SUIC (R863). -/
def execCvtqtSuic (_fa fb fc : RegNum) (s : State) : Res State :=
  s.fpGate fun s => .next (s.ieeeCvt (ieeeFromInt .t) ⟨.chopped, true, true, true⟩ fb fc)

/-- CVTQT_SUIM (R863). -/
def execCvtqtSuim (_fa fb fc : RegNum) (s : State) : Res State :=
  s.fpGate fun s => .next (s.ieeeCvt (ieeeFromInt .t) ⟨.minus, true, true, true⟩ fb fc)

/-- CVTQT_SUID (R863). -/
def execCvtqtSuid (_fa fb fc : RegNum) (s : State) : Res State :=
  s.fpGate fun s => .next (s.ieeeCvt (ieeeFromInt .t) ⟨.dynamic, true, true, true⟩ fb fc)

/-- CVTTS (R864). -/
def execCvtts (_fa fb fc : RegNum) (s : State) : Res State :=
  s.fpGate fun s => .next (s.ieeeCvt ieeeNarrow ⟨.normal, false, false, false⟩ fb fc)

/-- CVTTS_C (R864). -/
def execCvttsC (_fa fb fc : RegNum) (s : State) : Res State :=
  s.fpGate fun s => .next (s.ieeeCvt ieeeNarrow ⟨.chopped, false, false, false⟩ fb fc)

/-- CVTTS_M (R864). -/
def execCvttsM (_fa fb fc : RegNum) (s : State) : Res State :=
  s.fpGate fun s => .next (s.ieeeCvt ieeeNarrow ⟨.minus, false, false, false⟩ fb fc)

/-- CVTTS_D (R864). -/
def execCvttsD (_fa fb fc : RegNum) (s : State) : Res State :=
  s.fpGate fun s => .next (s.ieeeCvt ieeeNarrow ⟨.dynamic, false, false, false⟩ fb fc)

/-- CVTTS_U (R864). -/
def execCvttsU (_fa fb fc : RegNum) (s : State) : Res State :=
  s.fpGate fun s => .next (s.ieeeCvt ieeeNarrow ⟨.normal, true, false, false⟩ fb fc)

/-- CVTTS_UC (R864). -/
def execCvttsUc (_fa fb fc : RegNum) (s : State) : Res State :=
  s.fpGate fun s => .next (s.ieeeCvt ieeeNarrow ⟨.chopped, true, false, false⟩ fb fc)

/-- CVTTS_UM (R864). -/
def execCvttsUm (_fa fb fc : RegNum) (s : State) : Res State :=
  s.fpGate fun s => .next (s.ieeeCvt ieeeNarrow ⟨.minus, true, false, false⟩ fb fc)

/-- CVTTS_UD (R864). -/
def execCvttsUd (_fa fb fc : RegNum) (s : State) : Res State :=
  s.fpGate fun s => .next (s.ieeeCvt ieeeNarrow ⟨.dynamic, true, false, false⟩ fb fc)

/-- CVTTS_SU (R864). -/
def execCvttsSu (_fa fb fc : RegNum) (s : State) : Res State :=
  s.fpGate fun s => .next (s.ieeeCvt ieeeNarrow ⟨.normal, true, true, false⟩ fb fc)

/-- CVTTS_SUC (R864). -/
def execCvttsSuc (_fa fb fc : RegNum) (s : State) : Res State :=
  s.fpGate fun s => .next (s.ieeeCvt ieeeNarrow ⟨.chopped, true, true, false⟩ fb fc)

/-- CVTTS_SUM (R864). -/
def execCvttsSum (_fa fb fc : RegNum) (s : State) : Res State :=
  s.fpGate fun s => .next (s.ieeeCvt ieeeNarrow ⟨.minus, true, true, false⟩ fb fc)

/-- CVTTS_SUD (R864). -/
def execCvttsSud (_fa fb fc : RegNum) (s : State) : Res State :=
  s.fpGate fun s => .next (s.ieeeCvt ieeeNarrow ⟨.dynamic, true, true, false⟩ fb fc)

/-- CVTTS_SUI (R864). -/
def execCvttsSui (_fa fb fc : RegNum) (s : State) : Res State :=
  s.fpGate fun s => .next (s.ieeeCvt ieeeNarrow ⟨.normal, true, true, true⟩ fb fc)

/-- CVTTS_SUIC (R864). -/
def execCvttsSuic (_fa fb fc : RegNum) (s : State) : Res State :=
  s.fpGate fun s => .next (s.ieeeCvt ieeeNarrow ⟨.chopped, true, true, true⟩ fb fc)

/-- CVTTS_SUIM (R864). -/
def execCvttsSuim (_fa fb fc : RegNum) (s : State) : Res State :=
  s.fpGate fun s => .next (s.ieeeCvt ieeeNarrow ⟨.minus, true, true, true⟩ fb fc)

/-- CVTTS_SUID (R864). -/
def execCvttsSuid (_fa fb fc : RegNum) (s : State) : Res State :=
  s.fpGate fun s => .next (s.ieeeCvt ieeeNarrow ⟨.dynamic, true, true, true⟩ fb fc)

/-- CVTST (R866). -/
def execCvtst (_fa fb fc : RegNum) (s : State) : Res State :=
  s.fpGate fun s => .next (s.ieeeCvt (fun _ _ b => ieeeWiden b) ⟨.normal, false, false, false⟩ fb fc)

/-- CVTST_S (R866). -/
def execCvtstS (_fa fb fc : RegNum) (s : State) : Res State :=
  s.fpGate fun s => .next (s.ieeeCvt (fun _ _ b => ieeeWiden b) ⟨.normal, false, true, false⟩ fb fc)

/-- CVTTQ (R865). -/
def execCvttq (_fa fb fc : RegNum) (s : State) : Res State :=
  s.fpGate fun s => .next (s.ieeeCvt ieeeToInt ⟨.normal, false, false, false⟩ fb fc)

/-- CVTTQ_C (R865). -/
def execCvttqC (_fa fb fc : RegNum) (s : State) : Res State :=
  s.fpGate fun s => .next (s.ieeeCvt ieeeToInt ⟨.chopped, false, false, false⟩ fb fc)

/-- CVTTQ_V (R865). -/
def execCvttqV (_fa fb fc : RegNum) (s : State) : Res State :=
  s.fpGate fun s => .next (s.ieeeCvt ieeeToInt ⟨.normal, true, false, false⟩ fb fc)

/-- CVTTQ_VC (R865). -/
def execCvttqVc (_fa fb fc : RegNum) (s : State) : Res State :=
  s.fpGate fun s => .next (s.ieeeCvt ieeeToInt ⟨.chopped, true, false, false⟩ fb fc)

/-- CVTTQ_SV (R865). -/
def execCvttqSv (_fa fb fc : RegNum) (s : State) : Res State :=
  s.fpGate fun s => .next (s.ieeeCvt ieeeToInt ⟨.normal, true, true, false⟩ fb fc)

/-- CVTTQ_SVC (R865). -/
def execCvttqSvc (_fa fb fc : RegNum) (s : State) : Res State :=
  s.fpGate fun s => .next (s.ieeeCvt ieeeToInt ⟨.chopped, true, true, false⟩ fb fc)

/-- CVTTQ_SVI (R865). -/
def execCvttqSvi (_fa fb fc : RegNum) (s : State) : Res State :=
  s.fpGate fun s => .next (s.ieeeCvt ieeeToInt ⟨.normal, true, true, true⟩ fb fc)

/-- CVTTQ_SVIC (R865). -/
def execCvttqSvic (_fa fb fc : RegNum) (s : State) : Res State :=
  s.fpGate fun s => .next (s.ieeeCvt ieeeToInt ⟨.chopped, true, true, true⟩ fb fc)

/-- CVTTQ_D (R865). -/
def execCvttqD (_fa fb fc : RegNum) (s : State) : Res State :=
  s.fpGate fun s => .next (s.ieeeCvt ieeeToInt ⟨.dynamic, false, false, false⟩ fb fc)

/-- CVTTQ_VD (R865). -/
def execCvttqVd (_fa fb fc : RegNum) (s : State) : Res State :=
  s.fpGate fun s => .next (s.ieeeCvt ieeeToInt ⟨.dynamic, true, false, false⟩ fb fc)

/-- CVTTQ_SVD (R865). -/
def execCvttqSvd (_fa fb fc : RegNum) (s : State) : Res State :=
  s.fpGate fun s => .next (s.ieeeCvt ieeeToInt ⟨.dynamic, true, true, false⟩ fb fc)

/-- CVTTQ_SVID (R865). -/
def execCvttqSvid (_fa fb fc : RegNum) (s : State) : Res State :=
  s.fpGate fun s => .next (s.ieeeCvt ieeeToInt ⟨.dynamic, true, true, true⟩ fb fc)

/-- CVTTQ_M (R865). -/
def execCvttqM (_fa fb fc : RegNum) (s : State) : Res State :=
  s.fpGate fun s => .next (s.ieeeCvt ieeeToInt ⟨.minus, false, false, false⟩ fb fc)

/-- CVTTQ_VM (R865). -/
def execCvttqVm (_fa fb fc : RegNum) (s : State) : Res State :=
  s.fpGate fun s => .next (s.ieeeCvt ieeeToInt ⟨.minus, true, false, false⟩ fb fc)

/-- CVTTQ_SVM (R865). -/
def execCvttqSvm (_fa fb fc : RegNum) (s : State) : Res State :=
  s.fpGate fun s => .next (s.ieeeCvt ieeeToInt ⟨.minus, true, true, false⟩ fb fc)

/-- CVTTQ_SVIM (R865). -/
def execCvttqSvim (_fa fb fc : RegNum) (s : State) : Res State :=
  s.fpGate fun s => .next (s.ieeeCvt ieeeToInt ⟨.minus, true, true, true⟩ fb fc)

end Sys2Proof.Machine
end

