-- ==== Sys2Proof/Machine/FpVax.lean ====
section
/-! DEFINITION. VAX floating-point instructions, opcode 15 (45_floating_point.md, section 7): each names its operation and the
qualifiers of its function code. -/

namespace Sys2Proof.Machine

/-- ADDx, SUBx, MULx, DIVx (R870 to R877). -/
def State.vaxArith (s : State) (op : FpBinary) (single : Bool) (q : Quals) (fa fb fc : RegNum) : State :=
  s.finishFp fc q.soft (vaxBinary op single q s.fpControl (s.readFp fa) (s.readFp fb))

/-- CMPGxx (R878 to R880). -/
def State.vaxCmp (s : State) (op : FpCompare) (q : Quals) (fa fb fc : RegNum) : State :=
  s.finishFp fc q.soft (vaxCompare op (s.readFp fa) (s.readFp fb))

/-- A conversion of Fb (R881 to R886). -/
def State.vaxCvt (s : State) (f : Quals → FpControl → Word → FpOutcome) (q : Quals) (fb fc : RegNum) : State :=
  s.finishFp fc q.soft (f q s.fpControl (s.readFp fb))

/-- ADDF (R870). -/
def execAddf (fa fb fc : RegNum) (s : State) : Res State :=
  s.fpGate fun s => .next (s.vaxArith .add true ⟨.normal, false, false, false⟩ fa fb fc)

/-- ADDF_C (R870). -/
def execAddfC (fa fb fc : RegNum) (s : State) : Res State :=
  s.fpGate fun s => .next (s.vaxArith .add true ⟨.chopped, false, false, false⟩ fa fb fc)

/-- ADDF_U (R870). -/
def execAddfU (fa fb fc : RegNum) (s : State) : Res State :=
  s.fpGate fun s => .next (s.vaxArith .add true ⟨.normal, true, false, false⟩ fa fb fc)

/-- ADDF_UC (R870). -/
def execAddfUc (fa fb fc : RegNum) (s : State) : Res State :=
  s.fpGate fun s => .next (s.vaxArith .add true ⟨.chopped, true, false, false⟩ fa fb fc)

/-- ADDF_S (R870). -/
def execAddfS (fa fb fc : RegNum) (s : State) : Res State :=
  s.fpGate fun s => .next (s.vaxArith .add true ⟨.normal, false, true, false⟩ fa fb fc)

/-- ADDF_SC (R870). -/
def execAddfSc (fa fb fc : RegNum) (s : State) : Res State :=
  s.fpGate fun s => .next (s.vaxArith .add true ⟨.chopped, false, true, false⟩ fa fb fc)

/-- ADDF_SU (R870). -/
def execAddfSu (fa fb fc : RegNum) (s : State) : Res State :=
  s.fpGate fun s => .next (s.vaxArith .add true ⟨.normal, true, true, false⟩ fa fb fc)

/-- ADDF_SUC (R870). -/
def execAddfSuc (fa fb fc : RegNum) (s : State) : Res State :=
  s.fpGate fun s => .next (s.vaxArith .add true ⟨.chopped, true, true, false⟩ fa fb fc)

/-- ADDG (R871). -/
def execAddg (fa fb fc : RegNum) (s : State) : Res State :=
  s.fpGate fun s => .next (s.vaxArith .add false ⟨.normal, false, false, false⟩ fa fb fc)

/-- ADDG_C (R871). -/
def execAddgC (fa fb fc : RegNum) (s : State) : Res State :=
  s.fpGate fun s => .next (s.vaxArith .add false ⟨.chopped, false, false, false⟩ fa fb fc)

/-- ADDG_U (R871). -/
def execAddgU (fa fb fc : RegNum) (s : State) : Res State :=
  s.fpGate fun s => .next (s.vaxArith .add false ⟨.normal, true, false, false⟩ fa fb fc)

/-- ADDG_UC (R871). -/
def execAddgUc (fa fb fc : RegNum) (s : State) : Res State :=
  s.fpGate fun s => .next (s.vaxArith .add false ⟨.chopped, true, false, false⟩ fa fb fc)

/-- ADDG_S (R871). -/
def execAddgS (fa fb fc : RegNum) (s : State) : Res State :=
  s.fpGate fun s => .next (s.vaxArith .add false ⟨.normal, false, true, false⟩ fa fb fc)

/-- ADDG_SC (R871). -/
def execAddgSc (fa fb fc : RegNum) (s : State) : Res State :=
  s.fpGate fun s => .next (s.vaxArith .add false ⟨.chopped, false, true, false⟩ fa fb fc)

/-- ADDG_SU (R871). -/
def execAddgSu (fa fb fc : RegNum) (s : State) : Res State :=
  s.fpGate fun s => .next (s.vaxArith .add false ⟨.normal, true, true, false⟩ fa fb fc)

/-- ADDG_SUC (R871). -/
def execAddgSuc (fa fb fc : RegNum) (s : State) : Res State :=
  s.fpGate fun s => .next (s.vaxArith .add false ⟨.chopped, true, true, false⟩ fa fb fc)

/-- SUBF (R872). -/
def execSubf (fa fb fc : RegNum) (s : State) : Res State :=
  s.fpGate fun s => .next (s.vaxArith .sub true ⟨.normal, false, false, false⟩ fa fb fc)

/-- SUBF_C (R872). -/
def execSubfC (fa fb fc : RegNum) (s : State) : Res State :=
  s.fpGate fun s => .next (s.vaxArith .sub true ⟨.chopped, false, false, false⟩ fa fb fc)

/-- SUBF_U (R872). -/
def execSubfU (fa fb fc : RegNum) (s : State) : Res State :=
  s.fpGate fun s => .next (s.vaxArith .sub true ⟨.normal, true, false, false⟩ fa fb fc)

/-- SUBF_UC (R872). -/
def execSubfUc (fa fb fc : RegNum) (s : State) : Res State :=
  s.fpGate fun s => .next (s.vaxArith .sub true ⟨.chopped, true, false, false⟩ fa fb fc)

/-- SUBF_S (R872). -/
def execSubfS (fa fb fc : RegNum) (s : State) : Res State :=
  s.fpGate fun s => .next (s.vaxArith .sub true ⟨.normal, false, true, false⟩ fa fb fc)

/-- SUBF_SC (R872). -/
def execSubfSc (fa fb fc : RegNum) (s : State) : Res State :=
  s.fpGate fun s => .next (s.vaxArith .sub true ⟨.chopped, false, true, false⟩ fa fb fc)

/-- SUBF_SU (R872). -/
def execSubfSu (fa fb fc : RegNum) (s : State) : Res State :=
  s.fpGate fun s => .next (s.vaxArith .sub true ⟨.normal, true, true, false⟩ fa fb fc)

/-- SUBF_SUC (R872). -/
def execSubfSuc (fa fb fc : RegNum) (s : State) : Res State :=
  s.fpGate fun s => .next (s.vaxArith .sub true ⟨.chopped, true, true, false⟩ fa fb fc)

/-- SUBG (R873). -/
def execSubg (fa fb fc : RegNum) (s : State) : Res State :=
  s.fpGate fun s => .next (s.vaxArith .sub false ⟨.normal, false, false, false⟩ fa fb fc)

/-- SUBG_C (R873). -/
def execSubgC (fa fb fc : RegNum) (s : State) : Res State :=
  s.fpGate fun s => .next (s.vaxArith .sub false ⟨.chopped, false, false, false⟩ fa fb fc)

/-- SUBG_U (R873). -/
def execSubgU (fa fb fc : RegNum) (s : State) : Res State :=
  s.fpGate fun s => .next (s.vaxArith .sub false ⟨.normal, true, false, false⟩ fa fb fc)

/-- SUBG_UC (R873). -/
def execSubgUc (fa fb fc : RegNum) (s : State) : Res State :=
  s.fpGate fun s => .next (s.vaxArith .sub false ⟨.chopped, true, false, false⟩ fa fb fc)

/-- SUBG_S (R873). -/
def execSubgS (fa fb fc : RegNum) (s : State) : Res State :=
  s.fpGate fun s => .next (s.vaxArith .sub false ⟨.normal, false, true, false⟩ fa fb fc)

/-- SUBG_SC (R873). -/
def execSubgSc (fa fb fc : RegNum) (s : State) : Res State :=
  s.fpGate fun s => .next (s.vaxArith .sub false ⟨.chopped, false, true, false⟩ fa fb fc)

/-- SUBG_SU (R873). -/
def execSubgSu (fa fb fc : RegNum) (s : State) : Res State :=
  s.fpGate fun s => .next (s.vaxArith .sub false ⟨.normal, true, true, false⟩ fa fb fc)

/-- SUBG_SUC (R873). -/
def execSubgSuc (fa fb fc : RegNum) (s : State) : Res State :=
  s.fpGate fun s => .next (s.vaxArith .sub false ⟨.chopped, true, true, false⟩ fa fb fc)

/-- MULF (R874). -/
def execMulf (fa fb fc : RegNum) (s : State) : Res State :=
  s.fpGate fun s => .next (s.vaxArith .mul true ⟨.normal, false, false, false⟩ fa fb fc)

/-- MULF_C (R874). -/
def execMulfC (fa fb fc : RegNum) (s : State) : Res State :=
  s.fpGate fun s => .next (s.vaxArith .mul true ⟨.chopped, false, false, false⟩ fa fb fc)

/-- MULF_U (R874). -/
def execMulfU (fa fb fc : RegNum) (s : State) : Res State :=
  s.fpGate fun s => .next (s.vaxArith .mul true ⟨.normal, true, false, false⟩ fa fb fc)

/-- MULF_UC (R874). -/
def execMulfUc (fa fb fc : RegNum) (s : State) : Res State :=
  s.fpGate fun s => .next (s.vaxArith .mul true ⟨.chopped, true, false, false⟩ fa fb fc)

/-- MULF_S (R874). -/
def execMulfS (fa fb fc : RegNum) (s : State) : Res State :=
  s.fpGate fun s => .next (s.vaxArith .mul true ⟨.normal, false, true, false⟩ fa fb fc)

/-- MULF_SC (R874). -/
def execMulfSc (fa fb fc : RegNum) (s : State) : Res State :=
  s.fpGate fun s => .next (s.vaxArith .mul true ⟨.chopped, false, true, false⟩ fa fb fc)

/-- MULF_SU (R874). -/
def execMulfSu (fa fb fc : RegNum) (s : State) : Res State :=
  s.fpGate fun s => .next (s.vaxArith .mul true ⟨.normal, true, true, false⟩ fa fb fc)

/-- MULF_SUC (R874). -/
def execMulfSuc (fa fb fc : RegNum) (s : State) : Res State :=
  s.fpGate fun s => .next (s.vaxArith .mul true ⟨.chopped, true, true, false⟩ fa fb fc)

/-- MULG (R875). -/
def execMulg (fa fb fc : RegNum) (s : State) : Res State :=
  s.fpGate fun s => .next (s.vaxArith .mul false ⟨.normal, false, false, false⟩ fa fb fc)

/-- MULG_C (R875). -/
def execMulgC (fa fb fc : RegNum) (s : State) : Res State :=
  s.fpGate fun s => .next (s.vaxArith .mul false ⟨.chopped, false, false, false⟩ fa fb fc)

/-- MULG_U (R875). -/
def execMulgU (fa fb fc : RegNum) (s : State) : Res State :=
  s.fpGate fun s => .next (s.vaxArith .mul false ⟨.normal, true, false, false⟩ fa fb fc)

/-- MULG_UC (R875). -/
def execMulgUc (fa fb fc : RegNum) (s : State) : Res State :=
  s.fpGate fun s => .next (s.vaxArith .mul false ⟨.chopped, true, false, false⟩ fa fb fc)

/-- MULG_S (R875). -/
def execMulgS (fa fb fc : RegNum) (s : State) : Res State :=
  s.fpGate fun s => .next (s.vaxArith .mul false ⟨.normal, false, true, false⟩ fa fb fc)

/-- MULG_SC (R875). -/
def execMulgSc (fa fb fc : RegNum) (s : State) : Res State :=
  s.fpGate fun s => .next (s.vaxArith .mul false ⟨.chopped, false, true, false⟩ fa fb fc)

/-- MULG_SU (R875). -/
def execMulgSu (fa fb fc : RegNum) (s : State) : Res State :=
  s.fpGate fun s => .next (s.vaxArith .mul false ⟨.normal, true, true, false⟩ fa fb fc)

/-- MULG_SUC (R875). -/
def execMulgSuc (fa fb fc : RegNum) (s : State) : Res State :=
  s.fpGate fun s => .next (s.vaxArith .mul false ⟨.chopped, true, true, false⟩ fa fb fc)

/-- DIVF (R876). -/
def execDivf (fa fb fc : RegNum) (s : State) : Res State :=
  s.fpGate fun s => .next (s.vaxArith .div true ⟨.normal, false, false, false⟩ fa fb fc)

/-- DIVF_C (R876). -/
def execDivfC (fa fb fc : RegNum) (s : State) : Res State :=
  s.fpGate fun s => .next (s.vaxArith .div true ⟨.chopped, false, false, false⟩ fa fb fc)

/-- DIVF_U (R876). -/
def execDivfU (fa fb fc : RegNum) (s : State) : Res State :=
  s.fpGate fun s => .next (s.vaxArith .div true ⟨.normal, true, false, false⟩ fa fb fc)

/-- DIVF_UC (R876). -/
def execDivfUc (fa fb fc : RegNum) (s : State) : Res State :=
  s.fpGate fun s => .next (s.vaxArith .div true ⟨.chopped, true, false, false⟩ fa fb fc)

/-- DIVF_S (R876). -/
def execDivfS (fa fb fc : RegNum) (s : State) : Res State :=
  s.fpGate fun s => .next (s.vaxArith .div true ⟨.normal, false, true, false⟩ fa fb fc)

/-- DIVF_SC (R876). -/
def execDivfSc (fa fb fc : RegNum) (s : State) : Res State :=
  s.fpGate fun s => .next (s.vaxArith .div true ⟨.chopped, false, true, false⟩ fa fb fc)

/-- DIVF_SU (R876). -/
def execDivfSu (fa fb fc : RegNum) (s : State) : Res State :=
  s.fpGate fun s => .next (s.vaxArith .div true ⟨.normal, true, true, false⟩ fa fb fc)

/-- DIVF_SUC (R876). -/
def execDivfSuc (fa fb fc : RegNum) (s : State) : Res State :=
  s.fpGate fun s => .next (s.vaxArith .div true ⟨.chopped, true, true, false⟩ fa fb fc)

/-- DIVG (R877). -/
def execDivg (fa fb fc : RegNum) (s : State) : Res State :=
  s.fpGate fun s => .next (s.vaxArith .div false ⟨.normal, false, false, false⟩ fa fb fc)

/-- DIVG_C (R877). -/
def execDivgC (fa fb fc : RegNum) (s : State) : Res State :=
  s.fpGate fun s => .next (s.vaxArith .div false ⟨.chopped, false, false, false⟩ fa fb fc)

/-- DIVG_U (R877). -/
def execDivgU (fa fb fc : RegNum) (s : State) : Res State :=
  s.fpGate fun s => .next (s.vaxArith .div false ⟨.normal, true, false, false⟩ fa fb fc)

/-- DIVG_UC (R877). -/
def execDivgUc (fa fb fc : RegNum) (s : State) : Res State :=
  s.fpGate fun s => .next (s.vaxArith .div false ⟨.chopped, true, false, false⟩ fa fb fc)

/-- DIVG_S (R877). -/
def execDivgS (fa fb fc : RegNum) (s : State) : Res State :=
  s.fpGate fun s => .next (s.vaxArith .div false ⟨.normal, false, true, false⟩ fa fb fc)

/-- DIVG_SC (R877). -/
def execDivgSc (fa fb fc : RegNum) (s : State) : Res State :=
  s.fpGate fun s => .next (s.vaxArith .div false ⟨.chopped, false, true, false⟩ fa fb fc)

/-- DIVG_SU (R877). -/
def execDivgSu (fa fb fc : RegNum) (s : State) : Res State :=
  s.fpGate fun s => .next (s.vaxArith .div false ⟨.normal, true, true, false⟩ fa fb fc)

/-- DIVG_SUC (R877). -/
def execDivgSuc (fa fb fc : RegNum) (s : State) : Res State :=
  s.fpGate fun s => .next (s.vaxArith .div false ⟨.chopped, true, true, false⟩ fa fb fc)

/-- CMPGEQ (R878). -/
def execCmpgeq (fa fb fc : RegNum) (s : State) : Res State :=
  s.fpGate fun s => .next (s.vaxCmp .eq ⟨.normal, false, false, false⟩ fa fb fc)

/-- CMPGEQ_S (R878). -/
def execCmpgeqS (fa fb fc : RegNum) (s : State) : Res State :=
  s.fpGate fun s => .next (s.vaxCmp .eq ⟨.normal, false, true, false⟩ fa fb fc)

/-- CMPGLT (R879). -/
def execCmpglt (fa fb fc : RegNum) (s : State) : Res State :=
  s.fpGate fun s => .next (s.vaxCmp .lt ⟨.normal, false, false, false⟩ fa fb fc)

/-- CMPGLT_S (R879). -/
def execCmpgltS (fa fb fc : RegNum) (s : State) : Res State :=
  s.fpGate fun s => .next (s.vaxCmp .lt ⟨.normal, false, true, false⟩ fa fb fc)

/-- CMPGLE (R880). -/
def execCmpgle (fa fb fc : RegNum) (s : State) : Res State :=
  s.fpGate fun s => .next (s.vaxCmp .le ⟨.normal, false, false, false⟩ fa fb fc)

/-- CMPGLE_S (R880). -/
def execCmpgleS (fa fb fc : RegNum) (s : State) : Res State :=
  s.fpGate fun s => .next (s.vaxCmp .le ⟨.normal, false, true, false⟩ fa fb fc)

/-- CVTGF (R881). -/
def execCvtgf (_fa fb fc : RegNum) (s : State) : Res State :=
  s.fpGate fun s => .next (s.vaxCvt (vaxFromG .f) ⟨.normal, false, false, false⟩ fb fc)

/-- CVTGF_C (R881). -/
def execCvtgfC (_fa fb fc : RegNum) (s : State) : Res State :=
  s.fpGate fun s => .next (s.vaxCvt (vaxFromG .f) ⟨.chopped, false, false, false⟩ fb fc)

/-- CVTGF_U (R881). -/
def execCvtgfU (_fa fb fc : RegNum) (s : State) : Res State :=
  s.fpGate fun s => .next (s.vaxCvt (vaxFromG .f) ⟨.normal, true, false, false⟩ fb fc)

/-- CVTGF_UC (R881). -/
def execCvtgfUc (_fa fb fc : RegNum) (s : State) : Res State :=
  s.fpGate fun s => .next (s.vaxCvt (vaxFromG .f) ⟨.chopped, true, false, false⟩ fb fc)

/-- CVTGF_S (R881). -/
def execCvtgfS (_fa fb fc : RegNum) (s : State) : Res State :=
  s.fpGate fun s => .next (s.vaxCvt (vaxFromG .f) ⟨.normal, false, true, false⟩ fb fc)

/-- CVTGF_SC (R881). -/
def execCvtgfSc (_fa fb fc : RegNum) (s : State) : Res State :=
  s.fpGate fun s => .next (s.vaxCvt (vaxFromG .f) ⟨.chopped, false, true, false⟩ fb fc)

/-- CVTGF_SU (R881). -/
def execCvtgfSu (_fa fb fc : RegNum) (s : State) : Res State :=
  s.fpGate fun s => .next (s.vaxCvt (vaxFromG .f) ⟨.normal, true, true, false⟩ fb fc)

/-- CVTGF_SUC (R881). -/
def execCvtgfSuc (_fa fb fc : RegNum) (s : State) : Res State :=
  s.fpGate fun s => .next (s.vaxCvt (vaxFromG .f) ⟨.chopped, true, true, false⟩ fb fc)

/-- CVTGD (R882). -/
def execCvtgd (_fa fb fc : RegNum) (s : State) : Res State :=
  s.fpGate fun s => .next (s.vaxCvt (vaxFromG .d) ⟨.normal, false, false, false⟩ fb fc)

/-- CVTGD_C (R882). -/
def execCvtgdC (_fa fb fc : RegNum) (s : State) : Res State :=
  s.fpGate fun s => .next (s.vaxCvt (vaxFromG .d) ⟨.chopped, false, false, false⟩ fb fc)

/-- CVTGD_U (R882). -/
def execCvtgdU (_fa fb fc : RegNum) (s : State) : Res State :=
  s.fpGate fun s => .next (s.vaxCvt (vaxFromG .d) ⟨.normal, true, false, false⟩ fb fc)

/-- CVTGD_UC (R882). -/
def execCvtgdUc (_fa fb fc : RegNum) (s : State) : Res State :=
  s.fpGate fun s => .next (s.vaxCvt (vaxFromG .d) ⟨.chopped, true, false, false⟩ fb fc)

/-- CVTGD_S (R882). -/
def execCvtgdS (_fa fb fc : RegNum) (s : State) : Res State :=
  s.fpGate fun s => .next (s.vaxCvt (vaxFromG .d) ⟨.normal, false, true, false⟩ fb fc)

/-- CVTGD_SC (R882). -/
def execCvtgdSc (_fa fb fc : RegNum) (s : State) : Res State :=
  s.fpGate fun s => .next (s.vaxCvt (vaxFromG .d) ⟨.chopped, false, true, false⟩ fb fc)

/-- CVTGD_SU (R882). -/
def execCvtgdSu (_fa fb fc : RegNum) (s : State) : Res State :=
  s.fpGate fun s => .next (s.vaxCvt (vaxFromG .d) ⟨.normal, true, true, false⟩ fb fc)

/-- CVTGD_SUC (R882). -/
def execCvtgdSuc (_fa fb fc : RegNum) (s : State) : Res State :=
  s.fpGate fun s => .next (s.vaxCvt (vaxFromG .d) ⟨.chopped, true, true, false⟩ fb fc)

/-- CVTQF (R884). -/
def execCvtqf (_fa fb fc : RegNum) (s : State) : Res State :=
  s.fpGate fun s => .next (s.vaxCvt (vaxFromInt .f) ⟨.normal, false, false, false⟩ fb fc)

/-- CVTQF_C (R884). -/
def execCvtqfC (_fa fb fc : RegNum) (s : State) : Res State :=
  s.fpGate fun s => .next (s.vaxCvt (vaxFromInt .f) ⟨.chopped, false, false, false⟩ fb fc)

/-- CVTQG (R885). -/
def execCvtqg (_fa fb fc : RegNum) (s : State) : Res State :=
  s.fpGate fun s => .next (s.vaxCvt (vaxFromInt .g) ⟨.normal, false, false, false⟩ fb fc)

/-- CVTQG_C (R885). -/
def execCvtqgC (_fa fb fc : RegNum) (s : State) : Res State :=
  s.fpGate fun s => .next (s.vaxCvt (vaxFromInt .g) ⟨.chopped, false, false, false⟩ fb fc)

/-- CVTDG (R886). -/
def execCvtdg (_fa fb fc : RegNum) (s : State) : Res State :=
  s.fpGate fun s => .next (s.vaxCvt vaxFromD ⟨.normal, false, false, false⟩ fb fc)

/-- CVTDG_C (R886). -/
def execCvtdgC (_fa fb fc : RegNum) (s : State) : Res State :=
  s.fpGate fun s => .next (s.vaxCvt vaxFromD ⟨.chopped, false, false, false⟩ fb fc)

/-- CVTDG_U (R886). -/
def execCvtdgU (_fa fb fc : RegNum) (s : State) : Res State :=
  s.fpGate fun s => .next (s.vaxCvt vaxFromD ⟨.normal, true, false, false⟩ fb fc)

/-- CVTDG_UC (R886). -/
def execCvtdgUc (_fa fb fc : RegNum) (s : State) : Res State :=
  s.fpGate fun s => .next (s.vaxCvt vaxFromD ⟨.chopped, true, false, false⟩ fb fc)

/-- CVTDG_S (R886). -/
def execCvtdgS (_fa fb fc : RegNum) (s : State) : Res State :=
  s.fpGate fun s => .next (s.vaxCvt vaxFromD ⟨.normal, false, true, false⟩ fb fc)

/-- CVTDG_SC (R886). -/
def execCvtdgSc (_fa fb fc : RegNum) (s : State) : Res State :=
  s.fpGate fun s => .next (s.vaxCvt vaxFromD ⟨.chopped, false, true, false⟩ fb fc)

/-- CVTDG_SU (R886). -/
def execCvtdgSu (_fa fb fc : RegNum) (s : State) : Res State :=
  s.fpGate fun s => .next (s.vaxCvt vaxFromD ⟨.normal, true, true, false⟩ fb fc)

/-- CVTDG_SUC (R886). -/
def execCvtdgSuc (_fa fb fc : RegNum) (s : State) : Res State :=
  s.fpGate fun s => .next (s.vaxCvt vaxFromD ⟨.chopped, true, true, false⟩ fb fc)

/-- CVTGQ (R883). -/
def execCvtgq (_fa fb fc : RegNum) (s : State) : Res State :=
  s.fpGate fun s => .next (s.vaxCvt vaxToInt ⟨.normal, false, false, false⟩ fb fc)

/-- CVTGQ_C (R883). -/
def execCvtgqC (_fa fb fc : RegNum) (s : State) : Res State :=
  s.fpGate fun s => .next (s.vaxCvt vaxToInt ⟨.chopped, false, false, false⟩ fb fc)

/-- CVTGQ_V (R883). -/
def execCvtgqV (_fa fb fc : RegNum) (s : State) : Res State :=
  s.fpGate fun s => .next (s.vaxCvt vaxToInt ⟨.normal, true, false, false⟩ fb fc)

/-- CVTGQ_VC (R883). -/
def execCvtgqVc (_fa fb fc : RegNum) (s : State) : Res State :=
  s.fpGate fun s => .next (s.vaxCvt vaxToInt ⟨.chopped, true, false, false⟩ fb fc)

/-- CVTGQ_S (R883). -/
def execCvtgqS (_fa fb fc : RegNum) (s : State) : Res State :=
  s.fpGate fun s => .next (s.vaxCvt vaxToInt ⟨.normal, false, true, false⟩ fb fc)

/-- CVTGQ_SC (R883). -/
def execCvtgqSc (_fa fb fc : RegNum) (s : State) : Res State :=
  s.fpGate fun s => .next (s.vaxCvt vaxToInt ⟨.chopped, false, true, false⟩ fb fc)

/-- CVTGQ_SV (R883). -/
def execCvtgqSv (_fa fb fc : RegNum) (s : State) : Res State :=
  s.fpGate fun s => .next (s.vaxCvt vaxToInt ⟨.normal, true, true, false⟩ fb fc)

/-- CVTGQ_SVC (R883). -/
def execCvtgqSvc (_fa fb fc : RegNum) (s : State) : Res State :=
  s.fpGate fun s => .next (s.vaxCvt vaxToInt ⟨.chopped, true, true, false⟩ fb fc)

end Sys2Proof.Machine
end

