-- ==== Sys2Proof/Machine/FpIndep.lean ====
section
/-! DEFINITION. Data-type-independent floating-point instructions, opcode 17 (45_floating_point.md, section 5). -/

namespace Sys2Proof.Machine

/-- CPYS (R830). -/
def copySign (a b : Word) : Word := field a 63 1 ++ field b 0 63

/-- CPYSN (R831). -/
def copySignNegate (a b : Word) : Word := (~~~field a 63 1) ++ field b 0 63

/-- CPYSE (R832). -/
def copySignExp (a b : Word) : Word := field a 52 12 ++ field b 0 52

/-- CVTLQ (R833). -/
def longToQuad (b : Word) : Word := (field b 62 2 ++ field b 29 30).signExtend 64

/-- An operation that sets no condition. -/
def State.fpCopy (s : State) (fc : RegNum) (v : Word) : State := s.finishFp fc false (.ok v)

/-- A floating conditional move: the bit-pattern test of the floating branches on Fav (R835 to R840). -/
def State.fcmov (s : State) (cond : Word → Bool) (fa fb fc : RegNum) : State :=
  if cond (s.readFp fa) then (s.writeFp fc (s.readFp fb)).advance else s.advance

/-- CVTQL with its qualifiers (R834). -/
def State.cvtql (s : State) (q : Quals) (fb fc : RegNum) : State := s.finishFp fc q.soft (quadToLong q (s.readFp fb))

/-- CPYS: copy sign (R830). -/
def execCpys (fa fb fc : RegNum) (s : State) : Res State :=
  s.fpGate fun s => .next (s.fpCopy fc (copySign (s.readFp fa) (s.readFp fb)))

/-- CPYSN: copy sign negate (R831). -/
def execCpysn (fa fb fc : RegNum) (s : State) : Res State :=
  s.fpGate fun s => .next (s.fpCopy fc (copySignNegate (s.readFp fa) (s.readFp fb)))

/-- CPYSE: copy sign and exponent (R832). -/
def execCpyse (fa fb fc : RegNum) (s : State) : Res State :=
  s.fpGate fun s => .next (s.fpCopy fc (copySignExp (s.readFp fa) (s.readFp fb)))

/-- CVTLQ: convert longword to quadword (R833). -/
def execCvtlq (_fa fb fc : RegNum) (s : State) : Res State :=
  s.fpGate fun s => .next (s.fpCopy fc (longToQuad (s.readFp fb)))

/-- CVTQL: convert quadword to longword (R834). -/
def execCvtql (_fa fb fc : RegNum) (s : State) : Res State :=
  s.fpGate fun s => .next (s.cvtql ⟨.normal, false, false, false⟩ fb fc)

/-- CVTQL_V: convert quadword to longword (R834). -/
def execCvtqlV (_fa fb fc : RegNum) (s : State) : Res State :=
  s.fpGate fun s => .next (s.cvtql ⟨.normal, true, false, false⟩ fb fc)

/-- CVTQL_SV: convert quadword to longword (R834). -/
def execCvtqlSv (_fa fb fc : RegNum) (s : State) : Res State :=
  s.fpGate fun s => .next (s.cvtql ⟨.normal, true, true, false⟩ fb fc)

/-- FCMOVEQ (R835). -/
def execFcmoveq (fa fb fc : RegNum) (s : State) : Res State :=
  s.fpGate fun s => .next (s.fcmov fpEq fa fb fc)

/-- FCMOVNE (R836). -/
def execFcmovne (fa fb fc : RegNum) (s : State) : Res State :=
  s.fpGate fun s => .next (s.fcmov fpNe fa fb fc)

/-- FCMOVLT (R837). -/
def execFcmovlt (fa fb fc : RegNum) (s : State) : Res State :=
  s.fpGate fun s => .next (s.fcmov fpLt fa fb fc)

/-- FCMOVGE (R838). -/
def execFcmovge (fa fb fc : RegNum) (s : State) : Res State :=
  s.fpGate fun s => .next (s.fcmov fpGe fa fb fc)

/-- FCMOVLE (R839). -/
def execFcmovle (fa fb fc : RegNum) (s : State) : Res State :=
  s.fpGate fun s => .next (s.fcmov fpLe fa fb fc)

/-- FCMOVGT (R840). -/
def execFcmovgt (fa fb fc : RegNum) (s : State) : Res State :=
  s.fpGate fun s => .next (s.fcmov fpGt fa fb fc)

/-- MT_FPCR: bits <62:52> are stored (R841, R39). -/
def execMtFpcr (fa _fb _fc : RegNum) (s : State) : Res State :=
  s.fpGate fun s => .next ({ s with fpcr := field (s.readFp fa) 52 11 }.advance)

/-- MF_FPCR (R842). -/
def execMfFpcr (fa _fb _fc : RegNum) (s : State) : Res State :=
  s.fpGate fun s => .next ((s.writeFp fa s.fpcrView).advance)

end Sys2Proof.Machine
end

