-- ==== Sys2Proof/Machine/Misc.lean ====
section
/-! DEFINITION. CALL_PAL and the instructions of opcode 18 (46_miscellaneous.md). -/

namespace Sys2Proof.Machine

/-- CALL_PAL dispatches on this function: 00 to 3F in kernel mode, 80 to BF in any (R660). -/
def State.palFunctionAllowed (s : State) (f : BitVec 26) : Bool :=
  let n := f.toNat
  decide (n ≤ 0xBF) && !(decide (0x40 ≤ n) && decide (n ≤ 0x7F)) && (decide (0x3F < n) || s.kernel)

/-- The offset of a function's entry: bit 13 set, bit 12 = f<7>, bits <11:6> = f<5:0> (R660, R686). -/
def palOffset (f : BitVec 26) : BitVec 14 := 1#1 ++ (f.extractLsb' 7 1 ++ (f.extractLsb' 0 6 ++ 0#6))

/-- CALL_PAL: OPCDEC, or PALcode entry with the address of the next instruction in EXC_ADDR (R660). The lock flag and the
interrupt flag are untouched. -/
def State.callPal (s : State) (f : BitVec 26) : State :=
  if s.palFunctionAllowed f then s.enterPal (palOffset f) s.nextPc else s.precise .opcdec

/-- The reference of FETCH and FETCH_M: a read of Rbv with no alignment requirement (R306 (d), R329a). -/
def fetchRef (va : Word) (ra : RegNum) : Ref := Ref.unaligned va false ra 0x18#6

/-- FETCH and FETCH_M: a command with the block address if the address can be read; no exception (R329a, D14). It waits its turn
in the write buffer (R341). The command is driven for an address of the register region too (DESIGN CHOICE: R329a and R665 except
no region, R303 and R320 keep accesses there off the pins; notes/assumptions/17.md). -/
def State.prefetch (s : State) (kind : WbKind) (ra rb : RegNum) : Res State :=
  match s.translate (fetchRef (s.readInt rb) ra) with
  | .ok pa hit => .next ((s.touchDtb hit).wbAllocate (granule pa) kind 0#8 0#256).advance
  | .except _ _ => .next s.advance
  | .multiple => .refused .tbMultipleMatch

/-- CALL_PAL (R660). -/
def execCallPal (f : BitVec 26) (s : State) : Res State :=
  .next (s.callPal f)

/-- CALL_PAL HALT: the hardware only dispatches (R687). -/
def execCallPalHalt (s : State) : Res State :=
  .next (s.callPal 0x00#26)

/-- CALL_PAL DRAINA (R687). -/
def execCallPalDraina (s : State) : Res State :=
  .next (s.callPal 0x02#26)

/-- CALL_PAL IMB (R687). -/
def execCallPalImb (s : State) : Res State :=
  .next (s.callPal 0x86#26)

/-- TRAPB: every earlier trap has been delivered already, so nothing is left to wait for (R664). -/
def execTrapb (_ra _rb : RegNum) (s : State) : Res State :=
  .next s.advance

/-- EXCB: a NOP where ARITH traps are delivered at once (R663). -/
def execExcb (_ra _rb : RegNum) (s : State) : Res State :=
  .next s.advance

/-- What software owes after an MB (R241). -/
def Owed.afterMb : Owed → Owed
  | .nothing | .mb | .mbBeforeStore => .nothing
  | .mbThenRead ei | .read ei => .read ei

/-- MB waits for the buffers to drain (R352, R661): Machine/Settle.lean. -/
def execMb (_ra _rb : RegNum) (s : State) : Res State :=
  .next (State.advance { s with mbWaits := true, afterMb := true, owed := s.owed.afterMb })

/-- WMB orders the entries of the write buffer (R353, R662). -/
def execWmb (_ra _rb : RegNum) (s : State) : Res State :=
  .next s.wbBarrier.advance

/-- FETCH (R665, R329a). -/
def execFetch (ra rb : RegNum) (s : State) : Res State :=
  s.prefetch .fetch ra rb

/-- FETCH_M (R666, R329a). -/
def execFetchM (ra rb : RegNum) (s : State) : Res State :=
  s.prefetch .fetchM ra rb

/-- RPCC: the cycle counter (R667, R218). -/
def execRpcc (ra _rb : RegNum) (s : State) : Res State :=
  .next (s.writeInt ra (s.mbox.ccHi ++ s.mbox.ccLo)).advance

/-- RC: read and clear the interrupt flag (R668). -/
def execRc (ra _rb : RegNum) (s : State) : Res State :=
  .next { (s.writeInt ra (ofBool64 s.intrFlag)) with intrFlag := false }.advance

/-- RS: read and set the interrupt flag (R669). -/
def execRs (ra _rb : RegNum) (s : State) : Res State :=
  .next { (s.writeInt ra (ofBool64 s.intrFlag)) with intrFlag := true }.advance

end Sys2Proof.Machine
end

