-- ==== Sys2Proof/Machine/PalOps.lean ====
section
/-! DEFINITION. The five PALcode instructions (47_palcode_instructions.md). -/

namespace Sys2Proof.Machine

/-- The privilege check of the PALcode-reserved opcodes, before everything else: OPCDEC outside PALmode unless ICSR<HWE> is
set and the mode is kernel (R680). -/
def State.palGate (s : State) (run : State → Res State) : Res State :=
  if s.palAllowed then run s else .next (s.precise .opcdec)

/-- The reference of HW_LD (R681, R313). -/
def hwLdRef (va : Word) (ra : RegNum) (phys alt wrtck quad vpte : Bool) : Ref :=
  ⟨va, quad, false, false, phys, alt, vpte, wrtck, ra, 0x1B#6⟩

/-- The reference of HW_ST (R682, R313). -/
def hwStRef (va : Word) (ra : RegNum) (phys alt quad : Bool) : Ref :=
  ⟨va, quad, true, false, phys, alt, false, false, ra, 0x1F#6⟩

/-- HW_MFPR of an index: a register's value and read side effects, or any value for an index that names none (R684, D4). -/
def State.mfpr (s : State) (ra : RegNum) (index : BitVec 16) : State :=
  match iprOf index with
  | some r => ((s.iprAfterRead r).writeInt ra (s.iprRead r)).drawn.advance
  | none => (s.writeInt ra s.freeNow).drawn.advance

/-- HW_MTPR of an index: the register's write, or UNDEFINED for an index that names none (R685, R45). -/
def State.mtpr (s : State) (ra : RegNum) (index : BitVec 16) : Res State :=
  match iprOf index with
  | some r => mapRes State.advance (s.iprWrite r (s.readInt ra))
  | none => .refused .undefinedIprIndex

/-- HW_MFPR; ra and rb must be the same, and ra is used (R684). -/
def execHwMfpr (ra _rb : RegNum) (index : BitVec 16) (s : State) : Res State :=
  s.palGate fun s => .next (s.mfpr ra index)

/-- HW_MTPR; ra and rb must be the same, and ra is used (R685). -/
def execHwMtpr (ra _rb : RegNum) (index : BitVec 16) (s : State) : Res State :=
  s.palGate fun s => s.mtpr ra index

/-- HW_LD (R681). -/
def execHwLd (ra rb : RegNum) (phys alt wrtck quad vpte lock : Bool) (disp : BitVec 10) (s : State) : Res State :=
  s.palGate fun s =>
    s.loadInt (hwLdRef (s.hwAddr rb disp) ra phys alt wrtck quad vpte) lock

/-- HW_ST (R682). -/
def execHwSt (ra rb : RegNum) (phys alt : Bool) (mbz13 : Bool) (quad : Bool) (mbz11 cond : Bool) (disp : BitVec 10) (s : State) : Res State :=
  s.palGate fun s =>
    if mbz13 || mbz11 then .refused .hwStMustBeZero
    else if cond then s.storeCond (hwStRef (s.hwAddr rb disp) ra phys alt quad) (s.readInt ra)
    else s.store (hwStRef (s.hwAddr rb disp) ra phys alt quad) (s.readInt ra)

/-- HW_REI_STALL synchronizes the Istream with what has been written into the ITB; after HW_REI without it Istream translation
is UNPREDICTABLE until the next HW_REI_STALL (R683). -/
def State.syncIstream (s : State) (stall : Bool) : State :=
  if stall then { s with itbPending := false, istreamLost := false }
  else { s with istreamLost := s.istreamLost || s.itbPending }

/-- HW_REI and HW_REI_STALL; the register fields and the bits below TYP are ignored (R683). -/
def execHwRei (_ra _rb : RegNum) (typ : BitVec 2) (_mbz : BitVec 14) (s : State) : Res State :=
  s.palGate fun s =>
    if typ = 0#2 ∨ typ = 1#2 then .refused .hwReiType else .next (s.syncIstream (typ == 3#2)).returnFromPal

end Sys2Proof.Machine
end

