-- ==== Sys2Proof/Machine/Reserved.lean ====
section
/-! DEFINITION. The thirteen reserved opcodes (R688): OPCDEC in every mode. -/

namespace Sys2Proof.Machine

/-- OPC01: reserved opcode, "Illegal opcode" (R688, R719, D16). -/
def execOpc01 (_rest : BitVec 26) (s : State) : Res State :=
  .next (s.precise .opcdec)

/-- OPC02: reserved opcode, "Illegal opcode" (R688, R719, D16). -/
def execOpc02 (_rest : BitVec 26) (s : State) : Res State :=
  .next (s.precise .opcdec)

/-- OPC03: reserved opcode, "Illegal opcode" (R688, R719, D16). -/
def execOpc03 (_rest : BitVec 26) (s : State) : Res State :=
  .next (s.precise .opcdec)

/-- OPC04: reserved opcode, "Illegal opcode" (R688, R719, D16). -/
def execOpc04 (_rest : BitVec 26) (s : State) : Res State :=
  .next (s.precise .opcdec)

/-- OPC05: reserved opcode, "Illegal opcode" (R688, R719, D16). -/
def execOpc05 (_rest : BitVec 26) (s : State) : Res State :=
  .next (s.precise .opcdec)

/-- OPC06: reserved opcode, "Illegal opcode" (R688, R719, D16). -/
def execOpc06 (_rest : BitVec 26) (s : State) : Res State :=
  .next (s.precise .opcdec)

/-- OPC07: reserved opcode, "Illegal opcode" (R688, R719, D16). -/
def execOpc07 (_rest : BitVec 26) (s : State) : Res State :=
  .next (s.precise .opcdec)

/-- OPC0A: reserved opcode, "Illegal opcode" (R688, R719, D16). -/
def execOpc0a (_rest : BitVec 26) (s : State) : Res State :=
  .next (s.precise .opcdec)

/-- OPC0C: reserved opcode, "Illegal opcode" (R688, R719, D16). -/
def execOpc0c (_rest : BitVec 26) (s : State) : Res State :=
  .next (s.precise .opcdec)

/-- OPC0D: reserved opcode, "Illegal opcode" (R688, R719, D16). -/
def execOpc0d (_rest : BitVec 26) (s : State) : Res State :=
  .next (s.precise .opcdec)

/-- OPC0E: reserved opcode, "Illegal opcode" (R688, R719, D16). -/
def execOpc0e (_rest : BitVec 26) (s : State) : Res State :=
  .next (s.precise .opcdec)

/-- OPC14: reserved opcode, "Illegal opcode" (R688, R719, D16). -/
def execOpc14 (_rest : BitVec 26) (s : State) : Res State :=
  .next (s.precise .opcdec)

/-- OPC1C: reserved opcode, "Illegal opcode" (R688, R719, D16). -/
def execOpc1c (_rest : BitVec 26) (s : State) : Res State :=
  .next (s.precise .opcdec)

end Sys2Proof.Machine
end

