-- ==== Sys2Proof/Machine/Dispatch.lean ====
section
/-! DEFINITION. One arm per instruction: a direct call of its meaning. -/

namespace Sys2Proof.Machine

def exec (i : Instr) (s : State) : Host.Outcome State Fault Refusal :=
  match i with
  | .lda ra rb disp => Sys2Proof.Machine.execLda ra rb disp s
  | .ldah ra rb disp => Sys2Proof.Machine.execLdah ra rb disp s
  | .ldl ra rb disp => Sys2Proof.Machine.execLdl ra rb disp s
  | .ldq ra rb disp => Sys2Proof.Machine.execLdq ra rb disp s
  | .ldqU ra rb disp => Sys2Proof.Machine.execLdqU ra rb disp s
  | .ldlL ra rb disp => Sys2Proof.Machine.execLdlL ra rb disp s
  | .ldqL ra rb disp => Sys2Proof.Machine.execLdqL ra rb disp s
  | .stl ra rb disp => Sys2Proof.Machine.execStl ra rb disp s
  | .stq ra rb disp => Sys2Proof.Machine.execStq ra rb disp s
  | .stqU ra rb disp => Sys2Proof.Machine.execStqU ra rb disp s
  | .stlC ra rb disp => Sys2Proof.Machine.execStlC ra rb disp s
  | .stqC ra rb disp => Sys2Proof.Machine.execStqC ra rb disp s
  | .ldf ra rb disp => Sys2Proof.Machine.execLdf ra rb disp s
  | .ldg ra rb disp => Sys2Proof.Machine.execLdg ra rb disp s
  | .lds ra rb disp => Sys2Proof.Machine.execLds ra rb disp s
  | .ldt ra rb disp => Sys2Proof.Machine.execLdt ra rb disp s
  | .stf ra rb disp => Sys2Proof.Machine.execStf ra rb disp s
  | .stg ra rb disp => Sys2Proof.Machine.execStg ra rb disp s
  | .sts ra rb disp => Sys2Proof.Machine.execSts ra rb disp s
  | .stt ra rb disp => Sys2Proof.Machine.execStt ra rb disp s
  | .br ra disp => Sys2Proof.Machine.execBr ra disp s
  | .bsr ra disp => Sys2Proof.Machine.execBsr ra disp s
  | .beq ra disp => Sys2Proof.Machine.execBeq ra disp s
  | .bne ra disp => Sys2Proof.Machine.execBne ra disp s
  | .blt ra disp => Sys2Proof.Machine.execBlt ra disp s
  | .ble ra disp => Sys2Proof.Machine.execBle ra disp s
  | .bgt ra disp => Sys2Proof.Machine.execBgt ra disp s
  | .bge ra disp => Sys2Proof.Machine.execBge ra disp s
  | .blbc ra disp => Sys2Proof.Machine.execBlbc ra disp s
  | .blbs ra disp => Sys2Proof.Machine.execBlbs ra disp s
  | .fbeq ra disp => Sys2Proof.Machine.execFbeq ra disp s
  | .fbne ra disp => Sys2Proof.Machine.execFbne ra disp s
  | .fblt ra disp => Sys2Proof.Machine.execFblt ra disp s
  | .fble ra disp => Sys2Proof.Machine.execFble ra disp s
  | .fbgt ra disp => Sys2Proof.Machine.execFbgt ra disp s
  | .fbge ra disp => Sys2Proof.Machine.execFbge ra disp s
  | .jmp ra rb hint => Sys2Proof.Machine.execJmp ra rb hint s
  | .jsr ra rb hint => Sys2Proof.Machine.execJsr ra rb hint s
  | .ret ra rb hint => Sys2Proof.Machine.execRet ra rb hint s
  | .jsrCoroutine ra rb hint => Sys2Proof.Machine.execJsrCoroutine ra rb hint s
  | .addl ra rb rc => Sys2Proof.Machine.execAddl ra rb rc s
  | .addlV ra rb rc => Sys2Proof.Machine.execAddlV ra rb rc s
  | .addq ra rb rc => Sys2Proof.Machine.execAddq ra rb rc s
  | .addqV ra rb rc => Sys2Proof.Machine.execAddqV ra rb rc s
  | .s4addl ra rb rc => Sys2Proof.Machine.execS4addl ra rb rc s
  | .s4addq ra rb rc => Sys2Proof.Machine.execS4addq ra rb rc s
  | .s8addl ra rb rc => Sys2Proof.Machine.execS8addl ra rb rc s
  | .s8addq ra rb rc => Sys2Proof.Machine.execS8addq ra rb rc s
  | .subl ra rb rc => Sys2Proof.Machine.execSubl ra rb rc s
  | .sublV ra rb rc => Sys2Proof.Machine.execSublV ra rb rc s
  | .subq ra rb rc => Sys2Proof.Machine.execSubq ra rb rc s
  | .subqV ra rb rc => Sys2Proof.Machine.execSubqV ra rb rc s
  | .s4subl ra rb rc => Sys2Proof.Machine.execS4subl ra rb rc s
  | .s4subq ra rb rc => Sys2Proof.Machine.execS4subq ra rb rc s
  | .s8subl ra rb rc => Sys2Proof.Machine.execS8subl ra rb rc s
  | .s8subq ra rb rc => Sys2Proof.Machine.execS8subq ra rb rc s
  | .cmpeq ra rb rc => Sys2Proof.Machine.execCmpeq ra rb rc s
  | .cmplt ra rb rc => Sys2Proof.Machine.execCmplt ra rb rc s
  | .cmple ra rb rc => Sys2Proof.Machine.execCmple ra rb rc s
  | .cmpult ra rb rc => Sys2Proof.Machine.execCmpult ra rb rc s
  | .cmpule ra rb rc => Sys2Proof.Machine.execCmpule ra rb rc s
  | .mull ra rb rc => Sys2Proof.Machine.execMull ra rb rc s
  | .mullV ra rb rc => Sys2Proof.Machine.execMullV ra rb rc s
  | .mulq ra rb rc => Sys2Proof.Machine.execMulq ra rb rc s
  | .mulqV ra rb rc => Sys2Proof.Machine.execMulqV ra rb rc s
  | .umulh ra rb rc => Sys2Proof.Machine.execUmulh ra rb rc s
  | .and ra rb rc => Sys2Proof.Machine.execAnd ra rb rc s
  | .bic ra rb rc => Sys2Proof.Machine.execBic ra rb rc s
  | .bis ra rb rc => Sys2Proof.Machine.execBis ra rb rc s
  | .ornot ra rb rc => Sys2Proof.Machine.execOrnot ra rb rc s
  | .xor ra rb rc => Sys2Proof.Machine.execXor ra rb rc s
  | .eqv ra rb rc => Sys2Proof.Machine.execEqv ra rb rc s
  | .cmoveq ra rb rc => Sys2Proof.Machine.execCmoveq ra rb rc s
  | .cmovne ra rb rc => Sys2Proof.Machine.execCmovne ra rb rc s
  | .cmovlt ra rb rc => Sys2Proof.Machine.execCmovlt ra rb rc s
  | .cmovge ra rb rc => Sys2Proof.Machine.execCmovge ra rb rc s
  | .cmovle ra rb rc => Sys2Proof.Machine.execCmovle ra rb rc s
  | .cmovgt ra rb rc => Sys2Proof.Machine.execCmovgt ra rb rc s
  | .cmovlbs ra rb rc => Sys2Proof.Machine.execCmovlbs ra rb rc s
  | .cmovlbc ra rb rc => Sys2Proof.Machine.execCmovlbc ra rb rc s
  | .sll ra rb rc => Sys2Proof.Machine.execSll ra rb rc s
  | .srl ra rb rc => Sys2Proof.Machine.execSrl ra rb rc s
  | .sra ra rb rc => Sys2Proof.Machine.execSra ra rb rc s
  | .cmpbge ra rb rc => Sys2Proof.Machine.execCmpbge ra rb rc s
  | .extbl ra rb rc => Sys2Proof.Machine.execExtbl ra rb rc s
  | .extwl ra rb rc => Sys2Proof.Machine.execExtwl ra rb rc s
  | .extll ra rb rc => Sys2Proof.Machine.execExtll ra rb rc s
  | .extql ra rb rc => Sys2Proof.Machine.execExtql ra rb rc s
  | .extwh ra rb rc => Sys2Proof.Machine.execExtwh ra rb rc s
  | .extlh ra rb rc => Sys2Proof.Machine.execExtlh ra rb rc s
  | .extqh ra rb rc => Sys2Proof.Machine.execExtqh ra rb rc s
  | .insbl ra rb rc => Sys2Proof.Machine.execInsbl ra rb rc s
  | .inswl ra rb rc => Sys2Proof.Machine.execInswl ra rb rc s
  | .insll ra rb rc => Sys2Proof.Machine.execInsll ra rb rc s
  | .insql ra rb rc => Sys2Proof.Machine.execInsql ra rb rc s
  | .inswh ra rb rc => Sys2Proof.Machine.execInswh ra rb rc s
  | .inslh ra rb rc => Sys2Proof.Machine.execInslh ra rb rc s
  | .insqh ra rb rc => Sys2Proof.Machine.execInsqh ra rb rc s
  | .mskbl ra rb rc => Sys2Proof.Machine.execMskbl ra rb rc s
  | .mskwl ra rb rc => Sys2Proof.Machine.execMskwl ra rb rc s
  | .mskll ra rb rc => Sys2Proof.Machine.execMskll ra rb rc s
  | .mskql ra rb rc => Sys2Proof.Machine.execMskql ra rb rc s
  | .mskwh ra rb rc => Sys2Proof.Machine.execMskwh ra rb rc s
  | .msklh ra rb rc => Sys2Proof.Machine.execMsklh ra rb rc s
  | .mskqh ra rb rc => Sys2Proof.Machine.execMskqh ra rb rc s
  | .zap ra rb rc => Sys2Proof.Machine.execZap ra rb rc s
  | .zapnot ra rb rc => Sys2Proof.Machine.execZapnot ra rb rc s
  | .callPal f => Sys2Proof.Machine.execCallPal f s
  | .mb ra rb => Sys2Proof.Machine.execMb ra rb s
  | .wmb ra rb => Sys2Proof.Machine.execWmb ra rb s
  | .excb ra rb => Sys2Proof.Machine.execExcb ra rb s
  | .trapb ra rb => Sys2Proof.Machine.execTrapb ra rb s
  | .fetch ra rb => Sys2Proof.Machine.execFetch ra rb s
  | .fetchM ra rb => Sys2Proof.Machine.execFetchM ra rb s
  | .rpcc ra rb => Sys2Proof.Machine.execRpcc ra rb s
  | .rc ra rb => Sys2Proof.Machine.execRc ra rb s
  | .rs ra rb => Sys2Proof.Machine.execRs ra rb s
  | .hwMfpr ra rb index => Sys2Proof.Machine.execHwMfpr ra rb index s
  | .hwLd ra rb phys alt wrtck quad vpte lock disp => Sys2Proof.Machine.execHwLd ra rb phys alt wrtck quad vpte lock disp s
  | .hwMtpr ra rb index => Sys2Proof.Machine.execHwMtpr ra rb index s
  | .hwRei ra rb typ mbz => Sys2Proof.Machine.execHwRei ra rb typ mbz s
  | .hwSt ra rb phys alt mbz13 quad mbz11 cond disp => Sys2Proof.Machine.execHwSt ra rb phys alt mbz13 quad mbz11 cond disp s
  | .callPalHalt => Sys2Proof.Machine.execCallPalHalt s
  | .callPalDraina => Sys2Proof.Machine.execCallPalDraina s
  | .callPalImb => Sys2Proof.Machine.execCallPalImb s
  | .opc01 rest => Sys2Proof.Machine.execOpc01 rest s
  | .opc02 rest => Sys2Proof.Machine.execOpc02 rest s
  | .opc03 rest => Sys2Proof.Machine.execOpc03 rest s
  | .opc04 rest => Sys2Proof.Machine.execOpc04 rest s
  | .opc05 rest => Sys2Proof.Machine.execOpc05 rest s
  | .opc06 rest => Sys2Proof.Machine.execOpc06 rest s
  | .opc07 rest => Sys2Proof.Machine.execOpc07 rest s
  | .opc0a rest => Sys2Proof.Machine.execOpc0a rest s
  | .opc0c rest => Sys2Proof.Machine.execOpc0c rest s
  | .opc0d rest => Sys2Proof.Machine.execOpc0d rest s
  | .opc0e rest => Sys2Proof.Machine.execOpc0e rest s
  | .opc14 rest => Sys2Proof.Machine.execOpc14 rest s
  | .opc1c rest => Sys2Proof.Machine.execOpc1c rest s
  | .cpys fa fb fc => Sys2Proof.Machine.execCpys fa fb fc s
  | .cpysn fa fb fc => Sys2Proof.Machine.execCpysn fa fb fc s
  | .cpyse fa fb fc => Sys2Proof.Machine.execCpyse fa fb fc s
  | .cvtlq fa fb fc => Sys2Proof.Machine.execCvtlq fa fb fc s
  | .cvtql fa fb fc => Sys2Proof.Machine.execCvtql fa fb fc s
  | .cvtqlV fa fb fc => Sys2Proof.Machine.execCvtqlV fa fb fc s
  | .cvtqlSv fa fb fc => Sys2Proof.Machine.execCvtqlSv fa fb fc s
  | .fcmoveq fa fb fc => Sys2Proof.Machine.execFcmoveq fa fb fc s
  | .fcmovne fa fb fc => Sys2Proof.Machine.execFcmovne fa fb fc s
  | .fcmovlt fa fb fc => Sys2Proof.Machine.execFcmovlt fa fb fc s
  | .fcmovge fa fb fc => Sys2Proof.Machine.execFcmovge fa fb fc s
  | .fcmovle fa fb fc => Sys2Proof.Machine.execFcmovle fa fb fc s
  | .fcmovgt fa fb fc => Sys2Proof.Machine.execFcmovgt fa fb fc s
  | .mtFpcr fa fb fc => Sys2Proof.Machine.execMtFpcr fa fb fc s
  | .mfFpcr fa fb fc => Sys2Proof.Machine.execMfFpcr fa fb fc s
  | .adds fa fb fc => Sys2Proof.Machine.execAdds fa fb fc s
  | .addsC fa fb fc => Sys2Proof.Machine.execAddsC fa fb fc s
  | .addsM fa fb fc => Sys2Proof.Machine.execAddsM fa fb fc s
  | .addsD fa fb fc => Sys2Proof.Machine.execAddsD fa fb fc s
  | .addsU fa fb fc => Sys2Proof.Machine.execAddsU fa fb fc s
  | .addsUc fa fb fc => Sys2Proof.Machine.execAddsUc fa fb fc s
  | .addsUm fa fb fc => Sys2Proof.Machine.execAddsUm fa fb fc s
  | .addsUd fa fb fc => Sys2Proof.Machine.execAddsUd fa fb fc s
  | .addsSu fa fb fc => Sys2Proof.Machine.execAddsSu fa fb fc s
  | .addsSuc fa fb fc => Sys2Proof.Machine.execAddsSuc fa fb fc s
  | .addsSum fa fb fc => Sys2Proof.Machine.execAddsSum fa fb fc s
  | .addsSud fa fb fc => Sys2Proof.Machine.execAddsSud fa fb fc s
  | .addsSui fa fb fc => Sys2Proof.Machine.execAddsSui fa fb fc s
  | .addsSuic fa fb fc => Sys2Proof.Machine.execAddsSuic fa fb fc s
  | .addsSuim fa fb fc => Sys2Proof.Machine.execAddsSuim fa fb fc s
  | .addsSuid fa fb fc => Sys2Proof.Machine.execAddsSuid fa fb fc s
  | .addt fa fb fc => Sys2Proof.Machine.execAddt fa fb fc s
  | .addtC fa fb fc => Sys2Proof.Machine.execAddtC fa fb fc s
  | .addtM fa fb fc => Sys2Proof.Machine.execAddtM fa fb fc s
  | .addtD fa fb fc => Sys2Proof.Machine.execAddtD fa fb fc s
  | .addtU fa fb fc => Sys2Proof.Machine.execAddtU fa fb fc s
  | .addtUc fa fb fc => Sys2Proof.Machine.execAddtUc fa fb fc s
  | .addtUm fa fb fc => Sys2Proof.Machine.execAddtUm fa fb fc s
  | .addtUd fa fb fc => Sys2Proof.Machine.execAddtUd fa fb fc s
  | .addtSu fa fb fc => Sys2Proof.Machine.execAddtSu fa fb fc s
  | .addtSuc fa fb fc => Sys2Proof.Machine.execAddtSuc fa fb fc s
  | .addtSum fa fb fc => Sys2Proof.Machine.execAddtSum fa fb fc s
  | .addtSud fa fb fc => Sys2Proof.Machine.execAddtSud fa fb fc s
  | .addtSui fa fb fc => Sys2Proof.Machine.execAddtSui fa fb fc s
  | .addtSuic fa fb fc => Sys2Proof.Machine.execAddtSuic fa fb fc s
  | .addtSuim fa fb fc => Sys2Proof.Machine.execAddtSuim fa fb fc s
  | .addtSuid fa fb fc => Sys2Proof.Machine.execAddtSuid fa fb fc s
  | .subs fa fb fc => Sys2Proof.Machine.execSubs fa fb fc s
  | .subsC fa fb fc => Sys2Proof.Machine.execSubsC fa fb fc s
  | .subsM fa fb fc => Sys2Proof.Machine.execSubsM fa fb fc s
  | .subsD fa fb fc => Sys2Proof.Machine.execSubsD fa fb fc s
  | .subsU fa fb fc => Sys2Proof.Machine.execSubsU fa fb fc s
  | .subsUc fa fb fc => Sys2Proof.Machine.execSubsUc fa fb fc s
  | .subsUm fa fb fc => Sys2Proof.Machine.execSubsUm fa fb fc s
  | .subsUd fa fb fc => Sys2Proof.Machine.execSubsUd fa fb fc s
  | .subsSu fa fb fc => Sys2Proof.Machine.execSubsSu fa fb fc s
  | .subsSuc fa fb fc => Sys2Proof.Machine.execSubsSuc fa fb fc s
  | .subsSum fa fb fc => Sys2Proof.Machine.execSubsSum fa fb fc s
  | .subsSud fa fb fc => Sys2Proof.Machine.execSubsSud fa fb fc s
  | .subsSui fa fb fc => Sys2Proof.Machine.execSubsSui fa fb fc s
  | .subsSuic fa fb fc => Sys2Proof.Machine.execSubsSuic fa fb fc s
  | .subsSuim fa fb fc => Sys2Proof.Machine.execSubsSuim fa fb fc s
  | .subsSuid fa fb fc => Sys2Proof.Machine.execSubsSuid fa fb fc s
  | .subt fa fb fc => Sys2Proof.Machine.execSubt fa fb fc s
  | .subtC fa fb fc => Sys2Proof.Machine.execSubtC fa fb fc s
  | .subtM fa fb fc => Sys2Proof.Machine.execSubtM fa fb fc s
  | .subtD fa fb fc => Sys2Proof.Machine.execSubtD fa fb fc s
  | .subtU fa fb fc => Sys2Proof.Machine.execSubtU fa fb fc s
  | .subtUc fa fb fc => Sys2Proof.Machine.execSubtUc fa fb fc s
  | .subtUm fa fb fc => Sys2Proof.Machine.execSubtUm fa fb fc s
  | .subtUd fa fb fc => Sys2Proof.Machine.execSubtUd fa fb fc s
  | .subtSu fa fb fc => Sys2Proof.Machine.execSubtSu fa fb fc s
  | .subtSuc fa fb fc => Sys2Proof.Machine.execSubtSuc fa fb fc s
  | .subtSum fa fb fc => Sys2Proof.Machine.execSubtSum fa fb fc s
  | .subtSud fa fb fc => Sys2Proof.Machine.execSubtSud fa fb fc s
  | .subtSui fa fb fc => Sys2Proof.Machine.execSubtSui fa fb fc s
  | .subtSuic fa fb fc => Sys2Proof.Machine.execSubtSuic fa fb fc s
  | .subtSuim fa fb fc => Sys2Proof.Machine.execSubtSuim fa fb fc s
  | .subtSuid fa fb fc => Sys2Proof.Machine.execSubtSuid fa fb fc s
  | .muls fa fb fc => Sys2Proof.Machine.execMuls fa fb fc s
  | .mulsC fa fb fc => Sys2Proof.Machine.execMulsC fa fb fc s
  | .mulsM fa fb fc => Sys2Proof.Machine.execMulsM fa fb fc s
  | .mulsD fa fb fc => Sys2Proof.Machine.execMulsD fa fb fc s
  | .mulsU fa fb fc => Sys2Proof.Machine.execMulsU fa fb fc s
  | .mulsUc fa fb fc => Sys2Proof.Machine.execMulsUc fa fb fc s
  | .mulsUm fa fb fc => Sys2Proof.Machine.execMulsUm fa fb fc s
  | .mulsUd fa fb fc => Sys2Proof.Machine.execMulsUd fa fb fc s
  | .mulsSu fa fb fc => Sys2Proof.Machine.execMulsSu fa fb fc s
  | .mulsSuc fa fb fc => Sys2Proof.Machine.execMulsSuc fa fb fc s
  | .mulsSum fa fb fc => Sys2Proof.Machine.execMulsSum fa fb fc s
  | .mulsSud fa fb fc => Sys2Proof.Machine.execMulsSud fa fb fc s
  | .mulsSui fa fb fc => Sys2Proof.Machine.execMulsSui fa fb fc s
  | .mulsSuic fa fb fc => Sys2Proof.Machine.execMulsSuic fa fb fc s
  | .mulsSuim fa fb fc => Sys2Proof.Machine.execMulsSuim fa fb fc s
  | .mulsSuid fa fb fc => Sys2Proof.Machine.execMulsSuid fa fb fc s
  | .mult fa fb fc => Sys2Proof.Machine.execMult fa fb fc s
  | .multC fa fb fc => Sys2Proof.Machine.execMultC fa fb fc s
  | .multM fa fb fc => Sys2Proof.Machine.execMultM fa fb fc s
  | .multD fa fb fc => Sys2Proof.Machine.execMultD fa fb fc s
  | .multU fa fb fc => Sys2Proof.Machine.execMultU fa fb fc s
  | .multUc fa fb fc => Sys2Proof.Machine.execMultUc fa fb fc s
  | .multUm fa fb fc => Sys2Proof.Machine.execMultUm fa fb fc s
  | .multUd fa fb fc => Sys2Proof.Machine.execMultUd fa fb fc s
  | .multSu fa fb fc => Sys2Proof.Machine.execMultSu fa fb fc s
  | .multSuc fa fb fc => Sys2Proof.Machine.execMultSuc fa fb fc s
  | .multSum fa fb fc => Sys2Proof.Machine.execMultSum fa fb fc s
  | .multSud fa fb fc => Sys2Proof.Machine.execMultSud fa fb fc s
  | .multSui fa fb fc => Sys2Proof.Machine.execMultSui fa fb fc s
  | .multSuic fa fb fc => Sys2Proof.Machine.execMultSuic fa fb fc s
  | .multSuim fa fb fc => Sys2Proof.Machine.execMultSuim fa fb fc s
  | .multSuid fa fb fc => Sys2Proof.Machine.execMultSuid fa fb fc s
  | .divs fa fb fc => Sys2Proof.Machine.execDivs fa fb fc s
  | .divsC fa fb fc => Sys2Proof.Machine.execDivsC fa fb fc s
  | .divsM fa fb fc => Sys2Proof.Machine.execDivsM fa fb fc s
  | .divsD fa fb fc => Sys2Proof.Machine.execDivsD fa fb fc s
  | .divsU fa fb fc => Sys2Proof.Machine.execDivsU fa fb fc s
  | .divsUc fa fb fc => Sys2Proof.Machine.execDivsUc fa fb fc s
  | .divsUm fa fb fc => Sys2Proof.Machine.execDivsUm fa fb fc s
  | .divsUd fa fb fc => Sys2Proof.Machine.execDivsUd fa fb fc s
  | .divsSu fa fb fc => Sys2Proof.Machine.execDivsSu fa fb fc s
  | .divsSuc fa fb fc => Sys2Proof.Machine.execDivsSuc fa fb fc s
  | .divsSum fa fb fc => Sys2Proof.Machine.execDivsSum fa fb fc s
  | .divsSud fa fb fc => Sys2Proof.Machine.execDivsSud fa fb fc s
  | .divsSui fa fb fc => Sys2Proof.Machine.execDivsSui fa fb fc s
  | .divsSuic fa fb fc => Sys2Proof.Machine.execDivsSuic fa fb fc s
  | .divsSuim fa fb fc => Sys2Proof.Machine.execDivsSuim fa fb fc s
  | .divsSuid fa fb fc => Sys2Proof.Machine.execDivsSuid fa fb fc s
  | .divt fa fb fc => Sys2Proof.Machine.execDivt fa fb fc s
  | .divtC fa fb fc => Sys2Proof.Machine.execDivtC fa fb fc s
  | .divtM fa fb fc => Sys2Proof.Machine.execDivtM fa fb fc s
  | .divtD fa fb fc => Sys2Proof.Machine.execDivtD fa fb fc s
  | .divtU fa fb fc => Sys2Proof.Machine.execDivtU fa fb fc s
  | .divtUc fa fb fc => Sys2Proof.Machine.execDivtUc fa fb fc s
  | .divtUm fa fb fc => Sys2Proof.Machine.execDivtUm fa fb fc s
  | .divtUd fa fb fc => Sys2Proof.Machine.execDivtUd fa fb fc s
  | .divtSu fa fb fc => Sys2Proof.Machine.execDivtSu fa fb fc s
  | .divtSuc fa fb fc => Sys2Proof.Machine.execDivtSuc fa fb fc s
  | .divtSum fa fb fc => Sys2Proof.Machine.execDivtSum fa fb fc s
  | .divtSud fa fb fc => Sys2Proof.Machine.execDivtSud fa fb fc s
  | .divtSui fa fb fc => Sys2Proof.Machine.execDivtSui fa fb fc s
  | .divtSuic fa fb fc => Sys2Proof.Machine.execDivtSuic fa fb fc s
  | .divtSuim fa fb fc => Sys2Proof.Machine.execDivtSuim fa fb fc s
  | .divtSuid fa fb fc => Sys2Proof.Machine.execDivtSuid fa fb fc s
  | .cmpteq fa fb fc => Sys2Proof.Machine.execCmpteq fa fb fc s
  | .cmpteqSu fa fb fc => Sys2Proof.Machine.execCmpteqSu fa fb fc s
  | .cmptlt fa fb fc => Sys2Proof.Machine.execCmptlt fa fb fc s
  | .cmptltSu fa fb fc => Sys2Proof.Machine.execCmptltSu fa fb fc s
  | .cmptle fa fb fc => Sys2Proof.Machine.execCmptle fa fb fc s
  | .cmptleSu fa fb fc => Sys2Proof.Machine.execCmptleSu fa fb fc s
  | .cmptun fa fb fc => Sys2Proof.Machine.execCmptun fa fb fc s
  | .cmptunSu fa fb fc => Sys2Proof.Machine.execCmptunSu fa fb fc s
  | .cvtqs fa fb fc => Sys2Proof.Machine.execCvtqs fa fb fc s
  | .cvtqsC fa fb fc => Sys2Proof.Machine.execCvtqsC fa fb fc s
  | .cvtqsM fa fb fc => Sys2Proof.Machine.execCvtqsM fa fb fc s
  | .cvtqsD fa fb fc => Sys2Proof.Machine.execCvtqsD fa fb fc s
  | .cvtqsSui fa fb fc => Sys2Proof.Machine.execCvtqsSui fa fb fc s
  | .cvtqsSuic fa fb fc => Sys2Proof.Machine.execCvtqsSuic fa fb fc s
  | .cvtqsSuim fa fb fc => Sys2Proof.Machine.execCvtqsSuim fa fb fc s
  | .cvtqsSuid fa fb fc => Sys2Proof.Machine.execCvtqsSuid fa fb fc s
  | .cvtqt fa fb fc => Sys2Proof.Machine.execCvtqt fa fb fc s
  | .cvtqtC fa fb fc => Sys2Proof.Machine.execCvtqtC fa fb fc s
  | .cvtqtM fa fb fc => Sys2Proof.Machine.execCvtqtM fa fb fc s
  | .cvtqtD fa fb fc => Sys2Proof.Machine.execCvtqtD fa fb fc s
  | .cvtqtSui fa fb fc => Sys2Proof.Machine.execCvtqtSui fa fb fc s
  | .cvtqtSuic fa fb fc => Sys2Proof.Machine.execCvtqtSuic fa fb fc s
  | .cvtqtSuim fa fb fc => Sys2Proof.Machine.execCvtqtSuim fa fb fc s
  | .cvtqtSuid fa fb fc => Sys2Proof.Machine.execCvtqtSuid fa fb fc s
  | .cvtts fa fb fc => Sys2Proof.Machine.execCvtts fa fb fc s
  | .cvttsC fa fb fc => Sys2Proof.Machine.execCvttsC fa fb fc s
  | .cvttsM fa fb fc => Sys2Proof.Machine.execCvttsM fa fb fc s
  | .cvttsD fa fb fc => Sys2Proof.Machine.execCvttsD fa fb fc s
  | .cvttsU fa fb fc => Sys2Proof.Machine.execCvttsU fa fb fc s
  | .cvttsUc fa fb fc => Sys2Proof.Machine.execCvttsUc fa fb fc s
  | .cvttsUm fa fb fc => Sys2Proof.Machine.execCvttsUm fa fb fc s
  | .cvttsUd fa fb fc => Sys2Proof.Machine.execCvttsUd fa fb fc s
  | .cvttsSu fa fb fc => Sys2Proof.Machine.execCvttsSu fa fb fc s
  | .cvttsSuc fa fb fc => Sys2Proof.Machine.execCvttsSuc fa fb fc s
  | .cvttsSum fa fb fc => Sys2Proof.Machine.execCvttsSum fa fb fc s
  | .cvttsSud fa fb fc => Sys2Proof.Machine.execCvttsSud fa fb fc s
  | .cvttsSui fa fb fc => Sys2Proof.Machine.execCvttsSui fa fb fc s
  | .cvttsSuic fa fb fc => Sys2Proof.Machine.execCvttsSuic fa fb fc s
  | .cvttsSuim fa fb fc => Sys2Proof.Machine.execCvttsSuim fa fb fc s
  | .cvttsSuid fa fb fc => Sys2Proof.Machine.execCvttsSuid fa fb fc s
  | .cvtst fa fb fc => Sys2Proof.Machine.execCvtst fa fb fc s
  | .cvtstS fa fb fc => Sys2Proof.Machine.execCvtstS fa fb fc s
  | .cvttq fa fb fc => Sys2Proof.Machine.execCvttq fa fb fc s
  | .cvttqC fa fb fc => Sys2Proof.Machine.execCvttqC fa fb fc s
  | .cvttqV fa fb fc => Sys2Proof.Machine.execCvttqV fa fb fc s
  | .cvttqVc fa fb fc => Sys2Proof.Machine.execCvttqVc fa fb fc s
  | .cvttqSv fa fb fc => Sys2Proof.Machine.execCvttqSv fa fb fc s
  | .cvttqSvc fa fb fc => Sys2Proof.Machine.execCvttqSvc fa fb fc s
  | .cvttqSvi fa fb fc => Sys2Proof.Machine.execCvttqSvi fa fb fc s
  | .cvttqSvic fa fb fc => Sys2Proof.Machine.execCvttqSvic fa fb fc s
  | .cvttqD fa fb fc => Sys2Proof.Machine.execCvttqD fa fb fc s
  | .cvttqVd fa fb fc => Sys2Proof.Machine.execCvttqVd fa fb fc s
  | .cvttqSvd fa fb fc => Sys2Proof.Machine.execCvttqSvd fa fb fc s
  | .cvttqSvid fa fb fc => Sys2Proof.Machine.execCvttqSvid fa fb fc s
  | .cvttqM fa fb fc => Sys2Proof.Machine.execCvttqM fa fb fc s
  | .cvttqVm fa fb fc => Sys2Proof.Machine.execCvttqVm fa fb fc s
  | .cvttqSvm fa fb fc => Sys2Proof.Machine.execCvttqSvm fa fb fc s
  | .cvttqSvim fa fb fc => Sys2Proof.Machine.execCvttqSvim fa fb fc s
  | .addf fa fb fc => Sys2Proof.Machine.execAddf fa fb fc s
  | .addfC fa fb fc => Sys2Proof.Machine.execAddfC fa fb fc s
  | .addfU fa fb fc => Sys2Proof.Machine.execAddfU fa fb fc s
  | .addfUc fa fb fc => Sys2Proof.Machine.execAddfUc fa fb fc s
  | .addfS fa fb fc => Sys2Proof.Machine.execAddfS fa fb fc s
  | .addfSc fa fb fc => Sys2Proof.Machine.execAddfSc fa fb fc s
  | .addfSu fa fb fc => Sys2Proof.Machine.execAddfSu fa fb fc s
  | .addfSuc fa fb fc => Sys2Proof.Machine.execAddfSuc fa fb fc s
  | .addg fa fb fc => Sys2Proof.Machine.execAddg fa fb fc s
  | .addgC fa fb fc => Sys2Proof.Machine.execAddgC fa fb fc s
  | .addgU fa fb fc => Sys2Proof.Machine.execAddgU fa fb fc s
  | .addgUc fa fb fc => Sys2Proof.Machine.execAddgUc fa fb fc s
  | .addgS fa fb fc => Sys2Proof.Machine.execAddgS fa fb fc s
  | .addgSc fa fb fc => Sys2Proof.Machine.execAddgSc fa fb fc s
  | .addgSu fa fb fc => Sys2Proof.Machine.execAddgSu fa fb fc s
  | .addgSuc fa fb fc => Sys2Proof.Machine.execAddgSuc fa fb fc s
  | .subf fa fb fc => Sys2Proof.Machine.execSubf fa fb fc s
  | .subfC fa fb fc => Sys2Proof.Machine.execSubfC fa fb fc s
  | .subfU fa fb fc => Sys2Proof.Machine.execSubfU fa fb fc s
  | .subfUc fa fb fc => Sys2Proof.Machine.execSubfUc fa fb fc s
  | .subfS fa fb fc => Sys2Proof.Machine.execSubfS fa fb fc s
  | .subfSc fa fb fc => Sys2Proof.Machine.execSubfSc fa fb fc s
  | .subfSu fa fb fc => Sys2Proof.Machine.execSubfSu fa fb fc s
  | .subfSuc fa fb fc => Sys2Proof.Machine.execSubfSuc fa fb fc s
  | .subg fa fb fc => Sys2Proof.Machine.execSubg fa fb fc s
  | .subgC fa fb fc => Sys2Proof.Machine.execSubgC fa fb fc s
  | .subgU fa fb fc => Sys2Proof.Machine.execSubgU fa fb fc s
  | .subgUc fa fb fc => Sys2Proof.Machine.execSubgUc fa fb fc s
  | .subgS fa fb fc => Sys2Proof.Machine.execSubgS fa fb fc s
  | .subgSc fa fb fc => Sys2Proof.Machine.execSubgSc fa fb fc s
  | .subgSu fa fb fc => Sys2Proof.Machine.execSubgSu fa fb fc s
  | .subgSuc fa fb fc => Sys2Proof.Machine.execSubgSuc fa fb fc s
  | .mulf fa fb fc => Sys2Proof.Machine.execMulf fa fb fc s
  | .mulfC fa fb fc => Sys2Proof.Machine.execMulfC fa fb fc s
  | .mulfU fa fb fc => Sys2Proof.Machine.execMulfU fa fb fc s
  | .mulfUc fa fb fc => Sys2Proof.Machine.execMulfUc fa fb fc s
  | .mulfS fa fb fc => Sys2Proof.Machine.execMulfS fa fb fc s
  | .mulfSc fa fb fc => Sys2Proof.Machine.execMulfSc fa fb fc s
  | .mulfSu fa fb fc => Sys2Proof.Machine.execMulfSu fa fb fc s
  | .mulfSuc fa fb fc => Sys2Proof.Machine.execMulfSuc fa fb fc s
  | .mulg fa fb fc => Sys2Proof.Machine.execMulg fa fb fc s
  | .mulgC fa fb fc => Sys2Proof.Machine.execMulgC fa fb fc s
  | .mulgU fa fb fc => Sys2Proof.Machine.execMulgU fa fb fc s
  | .mulgUc fa fb fc => Sys2Proof.Machine.execMulgUc fa fb fc s
  | .mulgS fa fb fc => Sys2Proof.Machine.execMulgS fa fb fc s
  | .mulgSc fa fb fc => Sys2Proof.Machine.execMulgSc fa fb fc s
  | .mulgSu fa fb fc => Sys2Proof.Machine.execMulgSu fa fb fc s
  | .mulgSuc fa fb fc => Sys2Proof.Machine.execMulgSuc fa fb fc s
  | .divf fa fb fc => Sys2Proof.Machine.execDivf fa fb fc s
  | .divfC fa fb fc => Sys2Proof.Machine.execDivfC fa fb fc s
  | .divfU fa fb fc => Sys2Proof.Machine.execDivfU fa fb fc s
  | .divfUc fa fb fc => Sys2Proof.Machine.execDivfUc fa fb fc s
  | .divfS fa fb fc => Sys2Proof.Machine.execDivfS fa fb fc s
  | .divfSc fa fb fc => Sys2Proof.Machine.execDivfSc fa fb fc s
  | .divfSu fa fb fc => Sys2Proof.Machine.execDivfSu fa fb fc s
  | .divfSuc fa fb fc => Sys2Proof.Machine.execDivfSuc fa fb fc s
  | .divg fa fb fc => Sys2Proof.Machine.execDivg fa fb fc s
  | .divgC fa fb fc => Sys2Proof.Machine.execDivgC fa fb fc s
  | .divgU fa fb fc => Sys2Proof.Machine.execDivgU fa fb fc s
  | .divgUc fa fb fc => Sys2Proof.Machine.execDivgUc fa fb fc s
  | .divgS fa fb fc => Sys2Proof.Machine.execDivgS fa fb fc s
  | .divgSc fa fb fc => Sys2Proof.Machine.execDivgSc fa fb fc s
  | .divgSu fa fb fc => Sys2Proof.Machine.execDivgSu fa fb fc s
  | .divgSuc fa fb fc => Sys2Proof.Machine.execDivgSuc fa fb fc s
  | .cmpgeq fa fb fc => Sys2Proof.Machine.execCmpgeq fa fb fc s
  | .cmpgeqS fa fb fc => Sys2Proof.Machine.execCmpgeqS fa fb fc s
  | .cmpglt fa fb fc => Sys2Proof.Machine.execCmpglt fa fb fc s
  | .cmpgltS fa fb fc => Sys2Proof.Machine.execCmpgltS fa fb fc s
  | .cmpgle fa fb fc => Sys2Proof.Machine.execCmpgle fa fb fc s
  | .cmpgleS fa fb fc => Sys2Proof.Machine.execCmpgleS fa fb fc s
  | .cvtgf fa fb fc => Sys2Proof.Machine.execCvtgf fa fb fc s
  | .cvtgfC fa fb fc => Sys2Proof.Machine.execCvtgfC fa fb fc s
  | .cvtgfU fa fb fc => Sys2Proof.Machine.execCvtgfU fa fb fc s
  | .cvtgfUc fa fb fc => Sys2Proof.Machine.execCvtgfUc fa fb fc s
  | .cvtgfS fa fb fc => Sys2Proof.Machine.execCvtgfS fa fb fc s
  | .cvtgfSc fa fb fc => Sys2Proof.Machine.execCvtgfSc fa fb fc s
  | .cvtgfSu fa fb fc => Sys2Proof.Machine.execCvtgfSu fa fb fc s
  | .cvtgfSuc fa fb fc => Sys2Proof.Machine.execCvtgfSuc fa fb fc s
  | .cvtgd fa fb fc => Sys2Proof.Machine.execCvtgd fa fb fc s
  | .cvtgdC fa fb fc => Sys2Proof.Machine.execCvtgdC fa fb fc s
  | .cvtgdU fa fb fc => Sys2Proof.Machine.execCvtgdU fa fb fc s
  | .cvtgdUc fa fb fc => Sys2Proof.Machine.execCvtgdUc fa fb fc s
  | .cvtgdS fa fb fc => Sys2Proof.Machine.execCvtgdS fa fb fc s
  | .cvtgdSc fa fb fc => Sys2Proof.Machine.execCvtgdSc fa fb fc s
  | .cvtgdSu fa fb fc => Sys2Proof.Machine.execCvtgdSu fa fb fc s
  | .cvtgdSuc fa fb fc => Sys2Proof.Machine.execCvtgdSuc fa fb fc s
  | .cvtqf fa fb fc => Sys2Proof.Machine.execCvtqf fa fb fc s
  | .cvtqfC fa fb fc => Sys2Proof.Machine.execCvtqfC fa fb fc s
  | .cvtqg fa fb fc => Sys2Proof.Machine.execCvtqg fa fb fc s
  | .cvtqgC fa fb fc => Sys2Proof.Machine.execCvtqgC fa fb fc s
  | .cvtdg fa fb fc => Sys2Proof.Machine.execCvtdg fa fb fc s
  | .cvtdgC fa fb fc => Sys2Proof.Machine.execCvtdgC fa fb fc s
  | .cvtdgU fa fb fc => Sys2Proof.Machine.execCvtdgU fa fb fc s
  | .cvtdgUc fa fb fc => Sys2Proof.Machine.execCvtdgUc fa fb fc s
  | .cvtdgS fa fb fc => Sys2Proof.Machine.execCvtdgS fa fb fc s
  | .cvtdgSc fa fb fc => Sys2Proof.Machine.execCvtdgSc fa fb fc s
  | .cvtdgSu fa fb fc => Sys2Proof.Machine.execCvtdgSu fa fb fc s
  | .cvtdgSuc fa fb fc => Sys2Proof.Machine.execCvtdgSuc fa fb fc s
  | .cvtgq fa fb fc => Sys2Proof.Machine.execCvtgq fa fb fc s
  | .cvtgqC fa fb fc => Sys2Proof.Machine.execCvtgqC fa fb fc s
  | .cvtgqV fa fb fc => Sys2Proof.Machine.execCvtgqV fa fb fc s
  | .cvtgqVc fa fb fc => Sys2Proof.Machine.execCvtgqVc fa fb fc s
  | .cvtgqS fa fb fc => Sys2Proof.Machine.execCvtgqS fa fb fc s
  | .cvtgqSc fa fb fc => Sys2Proof.Machine.execCvtgqSc fa fb fc s
  | .cvtgqSv fa fb fc => Sys2Proof.Machine.execCvtgqSv fa fb fc s
  | .cvtgqSvc fa fb fc => Sys2Proof.Machine.execCvtgqSvc fa fb fc s

end Sys2Proof.Machine
end

