-- ==== Sys2Proof/WellFormed.lean ====
section
/-! DEFINITION. The conditions the spec places on an instruction's fields beyond their widths. An instruction that
breaks one still decodes (the hardware decodes it too); its meaning says what the spec says of it. -/

namespace Sys2Proof

/-- CALL_PAL function codes 0, 2 and 86 hex are the rows CALL_PAL_HALT, CALL_PAL_DRAINA and CALL_PAL_IMB of the
opcode table (R687) and are written with their own constructors. -/
def palFunctionOk (f : BitVec 26) : Bool := f != 0#26 && f != 2#26 && f != 0x86#26

/-- HW_MFPR and HW_MTPR: "Must be the same" is said of ra and rb (R491). -/
def sameRegs (ra rb : RegNum) : Bool := ra == rb

/-- HW_ST: bits <13> and <11> must be zero (R489). -/
def hwStMbzOk (mbz13 mbz11 : Bool) : Bool := !mbz13 && !mbz11

/-- HW_REI: TYP is 10 or 11 and <13:0> must be zero (R490). -/
def hwReiOk (typ : BitVec 2) (mbz : BitVec 14) : Bool := (typ == 2#2 || typ == 3#2) && mbz == 0#14

/-- An instruction whose fields obey the spec's own conditions. -/
def Instr.wellFormed : Instr → Bool
  | .lda _ _ _ => true
  | .ldah _ _ _ => true
  | .ldl _ _ _ => true
  | .ldq _ _ _ => true
  | .ldqU _ _ _ => true
  | .ldlL _ _ _ => true
  | .ldqL _ _ _ => true
  | .stl _ _ _ => true
  | .stq _ _ _ => true
  | .stqU _ _ _ => true
  | .stlC _ _ _ => true
  | .stqC _ _ _ => true
  | .ldf _ _ _ => true
  | .ldg _ _ _ => true
  | .lds _ _ _ => true
  | .ldt _ _ _ => true
  | .stf _ _ _ => true
  | .stg _ _ _ => true
  | .sts _ _ _ => true
  | .stt _ _ _ => true
  | .br _ _ => true
  | .bsr _ _ => true
  | .beq _ _ => true
  | .bne _ _ => true
  | .blt _ _ => true
  | .ble _ _ => true
  | .bgt _ _ => true
  | .bge _ _ => true
  | .blbc _ _ => true
  | .blbs _ _ => true
  | .fbeq _ _ => true
  | .fbne _ _ => true
  | .fblt _ _ => true
  | .fble _ _ => true
  | .fbgt _ _ => true
  | .fbge _ _ => true
  | .jmp _ _ _ => true
  | .jsr _ _ _ => true
  | .ret _ _ _ => true
  | .jsrCoroutine _ _ _ => true
  | .addl _ _ _ => true
  | .addlV _ _ _ => true
  | .addq _ _ _ => true
  | .addqV _ _ _ => true
  | .s4addl _ _ _ => true
  | .s4addq _ _ _ => true
  | .s8addl _ _ _ => true
  | .s8addq _ _ _ => true
  | .subl _ _ _ => true
  | .sublV _ _ _ => true
  | .subq _ _ _ => true
  | .subqV _ _ _ => true
  | .s4subl _ _ _ => true
  | .s4subq _ _ _ => true
  | .s8subl _ _ _ => true
  | .s8subq _ _ _ => true
  | .cmpeq _ _ _ => true
  | .cmplt _ _ _ => true
  | .cmple _ _ _ => true
  | .cmpult _ _ _ => true
  | .cmpule _ _ _ => true
  | .mull _ _ _ => true
  | .mullV _ _ _ => true
  | .mulq _ _ _ => true
  | .mulqV _ _ _ => true
  | .umulh _ _ _ => true
  | .and _ _ _ => true
  | .bic _ _ _ => true
  | .bis _ _ _ => true
  | .ornot _ _ _ => true
  | .xor _ _ _ => true
  | .eqv _ _ _ => true
  | .cmoveq _ _ _ => true
  | .cmovne _ _ _ => true
  | .cmovlt _ _ _ => true
  | .cmovge _ _ _ => true
  | .cmovle _ _ _ => true
  | .cmovgt _ _ _ => true
  | .cmovlbs _ _ _ => true
  | .cmovlbc _ _ _ => true
  | .sll _ _ _ => true
  | .srl _ _ _ => true
  | .sra _ _ _ => true
  | .cmpbge _ _ _ => true
  | .extbl _ _ _ => true
  | .extwl _ _ _ => true
  | .extll _ _ _ => true
  | .extql _ _ _ => true
  | .extwh _ _ _ => true
  | .extlh _ _ _ => true
  | .extqh _ _ _ => true
  | .insbl _ _ _ => true
  | .inswl _ _ _ => true
  | .insll _ _ _ => true
  | .insql _ _ _ => true
  | .inswh _ _ _ => true
  | .inslh _ _ _ => true
  | .insqh _ _ _ => true
  | .mskbl _ _ _ => true
  | .mskwl _ _ _ => true
  | .mskll _ _ _ => true
  | .mskql _ _ _ => true
  | .mskwh _ _ _ => true
  | .msklh _ _ _ => true
  | .mskqh _ _ _ => true
  | .zap _ _ _ => true
  | .zapnot _ _ _ => true
  | .callPal f => palFunctionOk f
  | .mb _ _ => true
  | .wmb _ _ => true
  | .excb _ _ => true
  | .trapb _ _ => true
  | .fetch _ _ => true
  | .fetchM _ _ => true
  | .rpcc _ _ => true
  | .rc _ _ => true
  | .rs _ _ => true
  | .hwMfpr ra rb _ => sameRegs ra rb
  | .hwLd _ _ _ _ _ _ _ _ _ => true
  | .hwMtpr ra rb _ => sameRegs ra rb
  | .hwRei _ _ typ mbz => hwReiOk typ mbz
  | .hwSt _ _ _ _ mbz13 _ mbz11 _ _ => hwStMbzOk mbz13 mbz11
  | .callPalHalt => true
  | .callPalDraina => true
  | .callPalImb => true
  | .opc01 _ => true
  | .opc02 _ => true
  | .opc03 _ => true
  | .opc04 _ => true
  | .opc05 _ => true
  | .opc06 _ => true
  | .opc07 _ => true
  | .opc0a _ => true
  | .opc0c _ => true
  | .opc0d _ => true
  | .opc0e _ => true
  | .opc14 _ => true
  | .opc1c _ => true
  | .cpys _ _ _ => true
  | .cpysn _ _ _ => true
  | .cpyse _ _ _ => true
  | .cvtlq _ _ _ => true
  | .cvtql _ _ _ => true
  | .cvtqlV _ _ _ => true
  | .cvtqlSv _ _ _ => true
  | .fcmoveq _ _ _ => true
  | .fcmovne _ _ _ => true
  | .fcmovlt _ _ _ => true
  | .fcmovge _ _ _ => true
  | .fcmovle _ _ _ => true
  | .fcmovgt _ _ _ => true
  | .mtFpcr _ _ _ => true
  | .mfFpcr _ _ _ => true
  | .adds _ _ _ => true
  | .addsC _ _ _ => true
  | .addsM _ _ _ => true
  | .addsD _ _ _ => true
  | .addsU _ _ _ => true
  | .addsUc _ _ _ => true
  | .addsUm _ _ _ => true
  | .addsUd _ _ _ => true
  | .addsSu _ _ _ => true
  | .addsSuc _ _ _ => true
  | .addsSum _ _ _ => true
  | .addsSud _ _ _ => true
  | .addsSui _ _ _ => true
  | .addsSuic _ _ _ => true
  | .addsSuim _ _ _ => true
  | .addsSuid _ _ _ => true
  | .addt _ _ _ => true
  | .addtC _ _ _ => true
  | .addtM _ _ _ => true
  | .addtD _ _ _ => true
  | .addtU _ _ _ => true
  | .addtUc _ _ _ => true
  | .addtUm _ _ _ => true
  | .addtUd _ _ _ => true
  | .addtSu _ _ _ => true
  | .addtSuc _ _ _ => true
  | .addtSum _ _ _ => true
  | .addtSud _ _ _ => true
  | .addtSui _ _ _ => true
  | .addtSuic _ _ _ => true
  | .addtSuim _ _ _ => true
  | .addtSuid _ _ _ => true
  | .subs _ _ _ => true
  | .subsC _ _ _ => true
  | .subsM _ _ _ => true
  | .subsD _ _ _ => true
  | .subsU _ _ _ => true
  | .subsUc _ _ _ => true
  | .subsUm _ _ _ => true
  | .subsUd _ _ _ => true
  | .subsSu _ _ _ => true
  | .subsSuc _ _ _ => true
  | .subsSum _ _ _ => true
  | .subsSud _ _ _ => true
  | .subsSui _ _ _ => true
  | .subsSuic _ _ _ => true
  | .subsSuim _ _ _ => true
  | .subsSuid _ _ _ => true
  | .subt _ _ _ => true
  | .subtC _ _ _ => true
  | .subtM _ _ _ => true
  | .subtD _ _ _ => true
  | .subtU _ _ _ => true
  | .subtUc _ _ _ => true
  | .subtUm _ _ _ => true
  | .subtUd _ _ _ => true
  | .subtSu _ _ _ => true
  | .subtSuc _ _ _ => true
  | .subtSum _ _ _ => true
  | .subtSud _ _ _ => true
  | .subtSui _ _ _ => true
  | .subtSuic _ _ _ => true
  | .subtSuim _ _ _ => true
  | .subtSuid _ _ _ => true
  | .muls _ _ _ => true
  | .mulsC _ _ _ => true
  | .mulsM _ _ _ => true
  | .mulsD _ _ _ => true
  | .mulsU _ _ _ => true
  | .mulsUc _ _ _ => true
  | .mulsUm _ _ _ => true
  | .mulsUd _ _ _ => true
  | .mulsSu _ _ _ => true
  | .mulsSuc _ _ _ => true
  | .mulsSum _ _ _ => true
  | .mulsSud _ _ _ => true
  | .mulsSui _ _ _ => true
  | .mulsSuic _ _ _ => true
  | .mulsSuim _ _ _ => true
  | .mulsSuid _ _ _ => true
  | .mult _ _ _ => true
  | .multC _ _ _ => true
  | .multM _ _ _ => true
  | .multD _ _ _ => true
  | .multU _ _ _ => true
  | .multUc _ _ _ => true
  | .multUm _ _ _ => true
  | .multUd _ _ _ => true
  | .multSu _ _ _ => true
  | .multSuc _ _ _ => true
  | .multSum _ _ _ => true
  | .multSud _ _ _ => true
  | .multSui _ _ _ => true
  | .multSuic _ _ _ => true
  | .multSuim _ _ _ => true
  | .multSuid _ _ _ => true
  | .divs _ _ _ => true
  | .divsC _ _ _ => true
  | .divsM _ _ _ => true
  | .divsD _ _ _ => true
  | .divsU _ _ _ => true
  | .divsUc _ _ _ => true
  | .divsUm _ _ _ => true
  | .divsUd _ _ _ => true
  | .divsSu _ _ _ => true
  | .divsSuc _ _ _ => true
  | .divsSum _ _ _ => true
  | .divsSud _ _ _ => true
  | .divsSui _ _ _ => true
  | .divsSuic _ _ _ => true
  | .divsSuim _ _ _ => true
  | .divsSuid _ _ _ => true
  | .divt _ _ _ => true
  | .divtC _ _ _ => true
  | .divtM _ _ _ => true
  | .divtD _ _ _ => true
  | .divtU _ _ _ => true
  | .divtUc _ _ _ => true
  | .divtUm _ _ _ => true
  | .divtUd _ _ _ => true
  | .divtSu _ _ _ => true
  | .divtSuc _ _ _ => true
  | .divtSum _ _ _ => true
  | .divtSud _ _ _ => true
  | .divtSui _ _ _ => true
  | .divtSuic _ _ _ => true
  | .divtSuim _ _ _ => true
  | .divtSuid _ _ _ => true
  | .cmpteq _ _ _ => true
  | .cmpteqSu _ _ _ => true
  | .cmptlt _ _ _ => true
  | .cmptltSu _ _ _ => true
  | .cmptle _ _ _ => true
  | .cmptleSu _ _ _ => true
  | .cmptun _ _ _ => true
  | .cmptunSu _ _ _ => true
  | .cvtqs _ _ _ => true
  | .cvtqsC _ _ _ => true
  | .cvtqsM _ _ _ => true
  | .cvtqsD _ _ _ => true
  | .cvtqsSui _ _ _ => true
  | .cvtqsSuic _ _ _ => true
  | .cvtqsSuim _ _ _ => true
  | .cvtqsSuid _ _ _ => true
  | .cvtqt _ _ _ => true
  | .cvtqtC _ _ _ => true
  | .cvtqtM _ _ _ => true
  | .cvtqtD _ _ _ => true
  | .cvtqtSui _ _ _ => true
  | .cvtqtSuic _ _ _ => true
  | .cvtqtSuim _ _ _ => true
  | .cvtqtSuid _ _ _ => true
  | .cvtts _ _ _ => true
  | .cvttsC _ _ _ => true
  | .cvttsM _ _ _ => true
  | .cvttsD _ _ _ => true
  | .cvttsU _ _ _ => true
  | .cvttsUc _ _ _ => true
  | .cvttsUm _ _ _ => true
  | .cvttsUd _ _ _ => true
  | .cvttsSu _ _ _ => true
  | .cvttsSuc _ _ _ => true
  | .cvttsSum _ _ _ => true
  | .cvttsSud _ _ _ => true
  | .cvttsSui _ _ _ => true
  | .cvttsSuic _ _ _ => true
  | .cvttsSuim _ _ _ => true
  | .cvttsSuid _ _ _ => true
  | .cvtst _ _ _ => true
  | .cvtstS _ _ _ => true
  | .cvttq _ _ _ => true
  | .cvttqC _ _ _ => true
  | .cvttqV _ _ _ => true
  | .cvttqVc _ _ _ => true
  | .cvttqSv _ _ _ => true
  | .cvttqSvc _ _ _ => true
  | .cvttqSvi _ _ _ => true
  | .cvttqSvic _ _ _ => true
  | .cvttqD _ _ _ => true
  | .cvttqVd _ _ _ => true
  | .cvttqSvd _ _ _ => true
  | .cvttqSvid _ _ _ => true
  | .cvttqM _ _ _ => true
  | .cvttqVm _ _ _ => true
  | .cvttqSvm _ _ _ => true
  | .cvttqSvim _ _ _ => true
  | .addf _ _ _ => true
  | .addfC _ _ _ => true
  | .addfU _ _ _ => true
  | .addfUc _ _ _ => true
  | .addfS _ _ _ => true
  | .addfSc _ _ _ => true
  | .addfSu _ _ _ => true
  | .addfSuc _ _ _ => true
  | .addg _ _ _ => true
  | .addgC _ _ _ => true
  | .addgU _ _ _ => true
  | .addgUc _ _ _ => true
  | .addgS _ _ _ => true
  | .addgSc _ _ _ => true
  | .addgSu _ _ _ => true
  | .addgSuc _ _ _ => true
  | .subf _ _ _ => true
  | .subfC _ _ _ => true
  | .subfU _ _ _ => true
  | .subfUc _ _ _ => true
  | .subfS _ _ _ => true
  | .subfSc _ _ _ => true
  | .subfSu _ _ _ => true
  | .subfSuc _ _ _ => true
  | .subg _ _ _ => true
  | .subgC _ _ _ => true
  | .subgU _ _ _ => true
  | .subgUc _ _ _ => true
  | .subgS _ _ _ => true
  | .subgSc _ _ _ => true
  | .subgSu _ _ _ => true
  | .subgSuc _ _ _ => true
  | .mulf _ _ _ => true
  | .mulfC _ _ _ => true
  | .mulfU _ _ _ => true
  | .mulfUc _ _ _ => true
  | .mulfS _ _ _ => true
  | .mulfSc _ _ _ => true
  | .mulfSu _ _ _ => true
  | .mulfSuc _ _ _ => true
  | .mulg _ _ _ => true
  | .mulgC _ _ _ => true
  | .mulgU _ _ _ => true
  | .mulgUc _ _ _ => true
  | .mulgS _ _ _ => true
  | .mulgSc _ _ _ => true
  | .mulgSu _ _ _ => true
  | .mulgSuc _ _ _ => true
  | .divf _ _ _ => true
  | .divfC _ _ _ => true
  | .divfU _ _ _ => true
  | .divfUc _ _ _ => true
  | .divfS _ _ _ => true
  | .divfSc _ _ _ => true
  | .divfSu _ _ _ => true
  | .divfSuc _ _ _ => true
  | .divg _ _ _ => true
  | .divgC _ _ _ => true
  | .divgU _ _ _ => true
  | .divgUc _ _ _ => true
  | .divgS _ _ _ => true
  | .divgSc _ _ _ => true
  | .divgSu _ _ _ => true
  | .divgSuc _ _ _ => true
  | .cmpgeq _ _ _ => true
  | .cmpgeqS _ _ _ => true
  | .cmpglt _ _ _ => true
  | .cmpgltS _ _ _ => true
  | .cmpgle _ _ _ => true
  | .cmpgleS _ _ _ => true
  | .cvtgf _ _ _ => true
  | .cvtgfC _ _ _ => true
  | .cvtgfU _ _ _ => true
  | .cvtgfUc _ _ _ => true
  | .cvtgfS _ _ _ => true
  | .cvtgfSc _ _ _ => true
  | .cvtgfSu _ _ _ => true
  | .cvtgfSuc _ _ _ => true
  | .cvtgd _ _ _ => true
  | .cvtgdC _ _ _ => true
  | .cvtgdU _ _ _ => true
  | .cvtgdUc _ _ _ => true
  | .cvtgdS _ _ _ => true
  | .cvtgdSc _ _ _ => true
  | .cvtgdSu _ _ _ => true
  | .cvtgdSuc _ _ _ => true
  | .cvtqf _ _ _ => true
  | .cvtqfC _ _ _ => true
  | .cvtqg _ _ _ => true
  | .cvtqgC _ _ _ => true
  | .cvtdg _ _ _ => true
  | .cvtdgC _ _ _ => true
  | .cvtdgU _ _ _ => true
  | .cvtdgUc _ _ _ => true
  | .cvtdgS _ _ _ => true
  | .cvtdgSc _ _ _ => true
  | .cvtdgSu _ _ _ => true
  | .cvtdgSuc _ _ _ => true
  | .cvtgq _ _ _ => true
  | .cvtgqC _ _ _ => true
  | .cvtgqV _ _ _ => true
  | .cvtgqVc _ _ _ => true
  | .cvtgqS _ _ _ => true
  | .cvtgqSc _ _ _ => true
  | .cvtgqSv _ _ _ => true
  | .cvtgqSvc _ _ _ => true

end Sys2Proof
end

