-- ==== Sys2Proof/Decode.lean ====
section
/-! DEFINITION. From an instruction word to an instruction and back (30_encoding.md). The field positions are
those of R482 to R491, the opcode map is R492, the function tables are R493 to R501. `decode` is total on every
32-bit word: a legal opcode with a function code that names no instruction is rejected by name (R503 (e)), and the
step gives such a word the meaning of that rule. (`noncomputable` only says that Lean's compiler makes no machine code:
its runtime has no room for more than 244 constructors with fields. The kernel evaluates all of it.) `encode` writes the word of an instruction from the same tables. -/

namespace Sys2Proof

/-- Why a word is no instruction: an unused function code, with what R503 (e) needs to say what executing it does. -/
inductive Reject where
  /-- Opcodes 10 to 13: the destination rc may receive any value. -/
  | unusedInt (rc : RegNum)
  /-- Opcodes 15 and 17: FEN when floating point is disabled, else the destination fc may receive any value. -/
  | unusedFp (fc : RegNum)
  /-- Opcode 16: as `unusedFp`, and FEN in any case when the source data type is 01 (R502, R806). -/
  | unusedIeee (src : BitVec 2) (fc : RegNum)
  /-- Opcode 18: the format names no rc or fc, so nothing receives a value. -/
  | unusedMisc
  deriving DecidableEq, Repr

/-! ## Fields of the instruction word -/

/-- The opcode, <31:26> (R481). -/
def fOp (w : Longword) : BitVec 6 := w.extractLsb' 26 6
/-- The ra (fa) field, <25:21> (R482, R487). -/
def fRa (w : Longword) : RegNum := w.extractLsb' 21 5
/-- The rb (fb) field, <20:16>. -/
def fRb (w : Longword) : RegNum := w.extractLsb' 16 5
/-- The rc (fc) field, <4:0> (R486, R487). -/
def fRc (w : Longword) : RegNum := w.extractLsb' 0 5
/-- The 16-bit displacement, function code or IPR index, <15:0> (R482, R483, R491). -/
def fDisp16 (w : Longword) : BitVec 16 := w.extractLsb' 0 16
/-- The branch displacement, <20:0> (R485). -/
def fDisp21 (w : Longword) : BitVec 21 := w.extractLsb' 0 21
/-- The branch hint, <13:0> (R484), also the must-be-zero field of HW_REI (R490). -/
def fLow14 (w : Longword) : BitVec 14 := w.extractLsb' 0 14
/-- Bits <15:14>: the jump selector (R484) and the TYP of HW_REI (R490). -/
def fTop2 (w : Longword) : BitVec 2 := w.extractLsb' 14 2
/-- The 26 bits below the opcode (R488). -/
def fRest (w : Longword) : BitVec 26 := w.extractLsb' 0 26
/-- The function code of an Operate instruction, <11:5> (R486). -/
def fFn7 (w : Longword) : BitVec 7 := w.extractLsb' 5 7
/-- The function code of a floating-point operate, <15:5> (R487). -/
def fFn11 (w : Longword) : BitVec 11 := w.extractLsb' 5 11
/-- The 10-bit displacement of HW_LD and HW_ST, <9:0> (R489). -/
def fDisp10 (w : Longword) : BitVec 10 := w.extractLsb' 0 10
/-- One bit of the word, as a truth value. -/
def fBit (w : Longword) (n : Nat) : Bool := w.getLsbD n
/-- The second operand of an Operate instruction: bit 12 selects the literal <20:13> (R486). -/
def fRegOrLit (w : Longword) : RegOrLit :=
  if fBit w 12 then .lit (w.extractLsb' 13 8) else .reg (fRb w)

/-! ## The tables of chapter 3 and Appendix A -/

/-- The value stored for a key in a table of rows, the first that matches. -/
def lookup {α : Type} {n : Nat} (k : BitVec n) : List (BitVec n × α) → Option α
  | [] => none
  | row :: rows => if k = row.1 then some row.2 else lookup k rows

abbrev MkMem := RegNum → RegNum → BitVec 16 → Instr
abbrev MkBra := RegNum → BitVec 21 → Instr
abbrev MkOpr := RegNum → RegOrLit → RegNum → Instr
abbrev MkFp := RegNum → RegNum → RegNum → Instr
abbrev MkMisc := RegNum → RegNum → Instr

/-- Opcode 10, INTA (R493): function code and instruction. -/
def intaTable : List (BitVec 7 × MkOpr) := [
  (0x00#7, Instr.addl),
  (0x02#7, Instr.s4addl),
  (0x09#7, Instr.subl),
  (0x0B#7, Instr.s4subl),
  (0x0F#7, Instr.cmpbge),
  (0x12#7, Instr.s8addl),
  (0x1B#7, Instr.s8subl),
  (0x1D#7, Instr.cmpult),
  (0x20#7, Instr.addq),
  (0x22#7, Instr.s4addq),
  (0x29#7, Instr.subq),
  (0x2B#7, Instr.s4subq),
  (0x2D#7, Instr.cmpeq),
  (0x32#7, Instr.s8addq),
  (0x3B#7, Instr.s8subq),
  (0x3D#7, Instr.cmpule),
  (0x40#7, Instr.addlV),
  (0x49#7, Instr.sublV),
  (0x4D#7, Instr.cmplt),
  (0x60#7, Instr.addqV),
  (0x69#7, Instr.subqV),
  (0x6D#7, Instr.cmple)]

/-- Opcode 11, INTL (R494): function code and instruction. -/
def intlTable : List (BitVec 7 × MkOpr) := [
  (0x00#7, Instr.and),
  (0x08#7, Instr.bic),
  (0x14#7, Instr.cmovlbs),
  (0x16#7, Instr.cmovlbc),
  (0x20#7, Instr.bis),
  (0x24#7, Instr.cmoveq),
  (0x26#7, Instr.cmovne),
  (0x28#7, Instr.ornot),
  (0x40#7, Instr.xor),
  (0x44#7, Instr.cmovlt),
  (0x46#7, Instr.cmovge),
  (0x48#7, Instr.eqv),
  (0x64#7, Instr.cmovle),
  (0x66#7, Instr.cmovgt)]

/-- Opcode 12, INTS (R495): function code and instruction. -/
def intsTable : List (BitVec 7 × MkOpr) := [
  (0x02#7, Instr.mskbl),
  (0x06#7, Instr.extbl),
  (0x0B#7, Instr.insbl),
  (0x12#7, Instr.mskwl),
  (0x16#7, Instr.extwl),
  (0x1B#7, Instr.inswl),
  (0x22#7, Instr.mskll),
  (0x26#7, Instr.extll),
  (0x2B#7, Instr.insll),
  (0x30#7, Instr.zap),
  (0x31#7, Instr.zapnot),
  (0x32#7, Instr.mskql),
  (0x34#7, Instr.srl),
  (0x36#7, Instr.extql),
  (0x39#7, Instr.sll),
  (0x3B#7, Instr.insql),
  (0x3C#7, Instr.sra),
  (0x52#7, Instr.mskwh),
  (0x57#7, Instr.inswh),
  (0x5A#7, Instr.extwh),
  (0x62#7, Instr.msklh),
  (0x67#7, Instr.inslh),
  (0x6A#7, Instr.extlh),
  (0x72#7, Instr.mskqh),
  (0x77#7, Instr.insqh),
  (0x7A#7, Instr.extqh)]

/-- Opcode 13, INTM (R496): function code and instruction. -/
def intmTable : List (BitVec 7 × MkOpr) := [
  (0x00#7, Instr.mull),
  (0x20#7, Instr.mulq),
  (0x30#7, Instr.umulh),
  (0x40#7, Instr.mullV),
  (0x60#7, Instr.mulqV)]

/-- Opcode 17, data-type independent (R499). -/
noncomputable def fltlAll : List (BitVec 11 × MkFp) := [
  (0x020#11, Instr.cpys),
  (0x021#11, Instr.cpysn),
  (0x022#11, Instr.cpyse),
  (0x010#11, Instr.cvtlq),
  (0x030#11, Instr.cvtql),
  (0x130#11, Instr.cvtqlV),
  (0x530#11, Instr.cvtqlSv),
  (0x02A#11, Instr.fcmoveq),
  (0x02B#11, Instr.fcmovne),
  (0x02C#11, Instr.fcmovlt),
  (0x02D#11, Instr.fcmovge),
  (0x02E#11, Instr.fcmovle),
  (0x02F#11, Instr.fcmovgt),
  (0x024#11, Instr.mtFpcr),
  (0x025#11, Instr.mfFpcr)]

/-- Opcode 17, data-type independent (R499): the whole table. -/
noncomputable def fltlTable : List (BitVec 11 × MkFp) :=
  fltlAll

/-- Opcode 16, IEEE (R500): ADDS and its qualifiers. -/
noncomputable def fltiAdds : List (BitVec 11 × MkFp) := [
  (0x080#11, Instr.adds),
  (0x000#11, Instr.addsC),
  (0x040#11, Instr.addsM),
  (0x0C0#11, Instr.addsD),
  (0x180#11, Instr.addsU),
  (0x100#11, Instr.addsUc),
  (0x140#11, Instr.addsUm),
  (0x1C0#11, Instr.addsUd),
  (0x580#11, Instr.addsSu),
  (0x500#11, Instr.addsSuc),
  (0x540#11, Instr.addsSum),
  (0x5C0#11, Instr.addsSud),
  (0x780#11, Instr.addsSui),
  (0x700#11, Instr.addsSuic),
  (0x740#11, Instr.addsSuim),
  (0x7C0#11, Instr.addsSuid)]

/-- Opcode 16, IEEE (R500): ADDT and its qualifiers. -/
noncomputable def fltiAddt : List (BitVec 11 × MkFp) := [
  (0x0A0#11, Instr.addt),
  (0x020#11, Instr.addtC),
  (0x060#11, Instr.addtM),
  (0x0E0#11, Instr.addtD),
  (0x1A0#11, Instr.addtU),
  (0x120#11, Instr.addtUc),
  (0x160#11, Instr.addtUm),
  (0x1E0#11, Instr.addtUd),
  (0x5A0#11, Instr.addtSu),
  (0x520#11, Instr.addtSuc),
  (0x560#11, Instr.addtSum),
  (0x5E0#11, Instr.addtSud),
  (0x7A0#11, Instr.addtSui),
  (0x720#11, Instr.addtSuic),
  (0x760#11, Instr.addtSuim),
  (0x7E0#11, Instr.addtSuid)]

/-- Opcode 16, IEEE (R500): SUBS and its qualifiers. -/
noncomputable def fltiSubs : List (BitVec 11 × MkFp) := [
  (0x081#11, Instr.subs),
  (0x001#11, Instr.subsC),
  (0x041#11, Instr.subsM),
  (0x0C1#11, Instr.subsD),
  (0x181#11, Instr.subsU),
  (0x101#11, Instr.subsUc),
  (0x141#11, Instr.subsUm),
  (0x1C1#11, Instr.subsUd),
  (0x581#11, Instr.subsSu),
  (0x501#11, Instr.subsSuc),
  (0x541#11, Instr.subsSum),
  (0x5C1#11, Instr.subsSud),
  (0x781#11, Instr.subsSui),
  (0x701#11, Instr.subsSuic),
  (0x741#11, Instr.subsSuim),
  (0x7C1#11, Instr.subsSuid)]

/-- Opcode 16, IEEE (R500): SUBT and its qualifiers. -/
noncomputable def fltiSubt : List (BitVec 11 × MkFp) := [
  (0x0A1#11, Instr.subt),
  (0x021#11, Instr.subtC),
  (0x061#11, Instr.subtM),
  (0x0E1#11, Instr.subtD),
  (0x1A1#11, Instr.subtU),
  (0x121#11, Instr.subtUc),
  (0x161#11, Instr.subtUm),
  (0x1E1#11, Instr.subtUd),
  (0x5A1#11, Instr.subtSu),
  (0x521#11, Instr.subtSuc),
  (0x561#11, Instr.subtSum),
  (0x5E1#11, Instr.subtSud),
  (0x7A1#11, Instr.subtSui),
  (0x721#11, Instr.subtSuic),
  (0x761#11, Instr.subtSuim),
  (0x7E1#11, Instr.subtSuid)]

/-- Opcode 16, IEEE (R500): MULS and its qualifiers. -/
noncomputable def fltiMuls : List (BitVec 11 × MkFp) := [
  (0x082#11, Instr.muls),
  (0x002#11, Instr.mulsC),
  (0x042#11, Instr.mulsM),
  (0x0C2#11, Instr.mulsD),
  (0x182#11, Instr.mulsU),
  (0x102#11, Instr.mulsUc),
  (0x142#11, Instr.mulsUm),
  (0x1C2#11, Instr.mulsUd),
  (0x582#11, Instr.mulsSu),
  (0x502#11, Instr.mulsSuc),
  (0x542#11, Instr.mulsSum),
  (0x5C2#11, Instr.mulsSud),
  (0x782#11, Instr.mulsSui),
  (0x702#11, Instr.mulsSuic),
  (0x742#11, Instr.mulsSuim),
  (0x7C2#11, Instr.mulsSuid)]

/-- Opcode 16, IEEE (R500): MULT and its qualifiers. -/
noncomputable def fltiMult : List (BitVec 11 × MkFp) := [
  (0x0A2#11, Instr.mult),
  (0x022#11, Instr.multC),
  (0x062#11, Instr.multM),
  (0x0E2#11, Instr.multD),
  (0x1A2#11, Instr.multU),
  (0x122#11, Instr.multUc),
  (0x162#11, Instr.multUm),
  (0x1E2#11, Instr.multUd),
  (0x5A2#11, Instr.multSu),
  (0x522#11, Instr.multSuc),
  (0x562#11, Instr.multSum),
  (0x5E2#11, Instr.multSud),
  (0x7A2#11, Instr.multSui),
  (0x722#11, Instr.multSuic),
  (0x762#11, Instr.multSuim),
  (0x7E2#11, Instr.multSuid)]

/-- Opcode 16, IEEE (R500): DIVS and its qualifiers. -/
noncomputable def fltiDivs : List (BitVec 11 × MkFp) := [
  (0x083#11, Instr.divs),
  (0x003#11, Instr.divsC),
  (0x043#11, Instr.divsM),
  (0x0C3#11, Instr.divsD),
  (0x183#11, Instr.divsU),
  (0x103#11, Instr.divsUc),
  (0x143#11, Instr.divsUm),
  (0x1C3#11, Instr.divsUd),
  (0x583#11, Instr.divsSu),
  (0x503#11, Instr.divsSuc),
  (0x543#11, Instr.divsSum),
  (0x5C3#11, Instr.divsSud),
  (0x783#11, Instr.divsSui),
  (0x703#11, Instr.divsSuic),
  (0x743#11, Instr.divsSuim),
  (0x7C3#11, Instr.divsSuid)]

/-- Opcode 16, IEEE (R500): DIVT and its qualifiers. -/
noncomputable def fltiDivt : List (BitVec 11 × MkFp) := [
  (0x0A3#11, Instr.divt),
  (0x023#11, Instr.divtC),
  (0x063#11, Instr.divtM),
  (0x0E3#11, Instr.divtD),
  (0x1A3#11, Instr.divtU),
  (0x123#11, Instr.divtUc),
  (0x163#11, Instr.divtUm),
  (0x1E3#11, Instr.divtUd),
  (0x5A3#11, Instr.divtSu),
  (0x523#11, Instr.divtSuc),
  (0x563#11, Instr.divtSum),
  (0x5E3#11, Instr.divtSud),
  (0x7A3#11, Instr.divtSui),
  (0x723#11, Instr.divtSuic),
  (0x763#11, Instr.divtSuim),
  (0x7E3#11, Instr.divtSuid)]

/-- Opcode 16, IEEE (R500): CMPTEQ and its qualifiers. -/
noncomputable def fltiCmpteq : List (BitVec 11 × MkFp) := [
  (0x0A5#11, Instr.cmpteq),
  (0x5A5#11, Instr.cmpteqSu)]

/-- Opcode 16, IEEE (R500): CMPTLT and its qualifiers. -/
noncomputable def fltiCmptlt : List (BitVec 11 × MkFp) := [
  (0x0A6#11, Instr.cmptlt),
  (0x5A6#11, Instr.cmptltSu)]

/-- Opcode 16, IEEE (R500): CMPTLE and its qualifiers. -/
noncomputable def fltiCmptle : List (BitVec 11 × MkFp) := [
  (0x0A7#11, Instr.cmptle),
  (0x5A7#11, Instr.cmptleSu)]

/-- Opcode 16, IEEE (R500): CMPTUN and its qualifiers. -/
noncomputable def fltiCmptun : List (BitVec 11 × MkFp) := [
  (0x0A4#11, Instr.cmptun),
  (0x5A4#11, Instr.cmptunSu)]

/-- Opcode 16, IEEE (R500): CVTQS and its qualifiers. -/
noncomputable def fltiCvtqs : List (BitVec 11 × MkFp) := [
  (0x0BC#11, Instr.cvtqs),
  (0x03C#11, Instr.cvtqsC),
  (0x07C#11, Instr.cvtqsM),
  (0x0FC#11, Instr.cvtqsD),
  (0x7BC#11, Instr.cvtqsSui),
  (0x73C#11, Instr.cvtqsSuic),
  (0x77C#11, Instr.cvtqsSuim),
  (0x7FC#11, Instr.cvtqsSuid)]

/-- Opcode 16, IEEE (R500): CVTQT and its qualifiers. -/
noncomputable def fltiCvtqt : List (BitVec 11 × MkFp) := [
  (0x0BE#11, Instr.cvtqt),
  (0x03E#11, Instr.cvtqtC),
  (0x07E#11, Instr.cvtqtM),
  (0x0FE#11, Instr.cvtqtD),
  (0x7BE#11, Instr.cvtqtSui),
  (0x73E#11, Instr.cvtqtSuic),
  (0x77E#11, Instr.cvtqtSuim),
  (0x7FE#11, Instr.cvtqtSuid)]

/-- Opcode 16, IEEE (R500): CVTTS and its qualifiers. -/
noncomputable def fltiCvtts : List (BitVec 11 × MkFp) := [
  (0x0AC#11, Instr.cvtts),
  (0x02C#11, Instr.cvttsC),
  (0x06C#11, Instr.cvttsM),
  (0x0EC#11, Instr.cvttsD),
  (0x1AC#11, Instr.cvttsU),
  (0x12C#11, Instr.cvttsUc),
  (0x16C#11, Instr.cvttsUm),
  (0x1EC#11, Instr.cvttsUd),
  (0x5AC#11, Instr.cvttsSu),
  (0x52C#11, Instr.cvttsSuc),
  (0x56C#11, Instr.cvttsSum),
  (0x5EC#11, Instr.cvttsSud),
  (0x7AC#11, Instr.cvttsSui),
  (0x72C#11, Instr.cvttsSuic),
  (0x76C#11, Instr.cvttsSuim),
  (0x7EC#11, Instr.cvttsSuid)]

/-- Opcode 16, IEEE (R500): CVTST and its qualifiers. -/
noncomputable def fltiCvtst : List (BitVec 11 × MkFp) := [
  (0x2AC#11, Instr.cvtst),
  (0x6AC#11, Instr.cvtstS)]

/-- Opcode 16, IEEE (R500): CVTTQ and its qualifiers. -/
noncomputable def fltiCvttq : List (BitVec 11 × MkFp) := [
  (0x0AF#11, Instr.cvttq),
  (0x02F#11, Instr.cvttqC),
  (0x1AF#11, Instr.cvttqV),
  (0x12F#11, Instr.cvttqVc),
  (0x5AF#11, Instr.cvttqSv),
  (0x52F#11, Instr.cvttqSvc),
  (0x7AF#11, Instr.cvttqSvi),
  (0x72F#11, Instr.cvttqSvic),
  (0x0EF#11, Instr.cvttqD),
  (0x1EF#11, Instr.cvttqVd),
  (0x5EF#11, Instr.cvttqSvd),
  (0x7EF#11, Instr.cvttqSvid),
  (0x06F#11, Instr.cvttqM),
  (0x16F#11, Instr.cvttqVm),
  (0x56F#11, Instr.cvttqSvm),
  (0x76F#11, Instr.cvttqSvim)]

/-- Opcode 16, IEEE (R500): the whole table. -/
noncomputable def fltiTable : List (BitVec 11 × MkFp) :=
  fltiAdds ++ fltiAddt ++ fltiSubs ++ fltiSubt ++ fltiMuls ++ fltiMult ++ fltiDivs ++ fltiDivt ++ fltiCmpteq ++ fltiCmptlt ++ fltiCmptle ++ fltiCmptun ++ fltiCvtqs ++ fltiCvtqt ++ fltiCvtts ++ fltiCvtst ++ fltiCvttq

/-- Opcode 15, VAX (R501): ADDF and its qualifiers. -/
noncomputable def fltvAddf : List (BitVec 11 × MkFp) := [
  (0x080#11, Instr.addf),
  (0x000#11, Instr.addfC),
  (0x180#11, Instr.addfU),
  (0x100#11, Instr.addfUc),
  (0x480#11, Instr.addfS),
  (0x400#11, Instr.addfSc),
  (0x580#11, Instr.addfSu),
  (0x500#11, Instr.addfSuc)]

/-- Opcode 15, VAX (R501): ADDG and its qualifiers. -/
noncomputable def fltvAddg : List (BitVec 11 × MkFp) := [
  (0x0A0#11, Instr.addg),
  (0x020#11, Instr.addgC),
  (0x1A0#11, Instr.addgU),
  (0x120#11, Instr.addgUc),
  (0x4A0#11, Instr.addgS),
  (0x420#11, Instr.addgSc),
  (0x5A0#11, Instr.addgSu),
  (0x520#11, Instr.addgSuc)]

/-- Opcode 15, VAX (R501): SUBF and its qualifiers. -/
noncomputable def fltvSubf : List (BitVec 11 × MkFp) := [
  (0x081#11, Instr.subf),
  (0x001#11, Instr.subfC),
  (0x181#11, Instr.subfU),
  (0x101#11, Instr.subfUc),
  (0x481#11, Instr.subfS),
  (0x401#11, Instr.subfSc),
  (0x581#11, Instr.subfSu),
  (0x501#11, Instr.subfSuc)]

/-- Opcode 15, VAX (R501): SUBG and its qualifiers. -/
noncomputable def fltvSubg : List (BitVec 11 × MkFp) := [
  (0x0A1#11, Instr.subg),
  (0x021#11, Instr.subgC),
  (0x1A1#11, Instr.subgU),
  (0x121#11, Instr.subgUc),
  (0x4A1#11, Instr.subgS),
  (0x421#11, Instr.subgSc),
  (0x5A1#11, Instr.subgSu),
  (0x521#11, Instr.subgSuc)]

/-- Opcode 15, VAX (R501): MULF and its qualifiers. -/
noncomputable def fltvMulf : List (BitVec 11 × MkFp) := [
  (0x082#11, Instr.mulf),
  (0x002#11, Instr.mulfC),
  (0x182#11, Instr.mulfU),
  (0x102#11, Instr.mulfUc),
  (0x482#11, Instr.mulfS),
  (0x402#11, Instr.mulfSc),
  (0x582#11, Instr.mulfSu),
  (0x502#11, Instr.mulfSuc)]

/-- Opcode 15, VAX (R501): MULG and its qualifiers. -/
noncomputable def fltvMulg : List (BitVec 11 × MkFp) := [
  (0x0A2#11, Instr.mulg),
  (0x022#11, Instr.mulgC),
  (0x1A2#11, Instr.mulgU),
  (0x122#11, Instr.mulgUc),
  (0x4A2#11, Instr.mulgS),
  (0x422#11, Instr.mulgSc),
  (0x5A2#11, Instr.mulgSu),
  (0x522#11, Instr.mulgSuc)]

/-- Opcode 15, VAX (R501): DIVF and its qualifiers. -/
noncomputable def fltvDivf : List (BitVec 11 × MkFp) := [
  (0x083#11, Instr.divf),
  (0x003#11, Instr.divfC),
  (0x183#11, Instr.divfU),
  (0x103#11, Instr.divfUc),
  (0x483#11, Instr.divfS),
  (0x403#11, Instr.divfSc),
  (0x583#11, Instr.divfSu),
  (0x503#11, Instr.divfSuc)]

/-- Opcode 15, VAX (R501): DIVG and its qualifiers. -/
noncomputable def fltvDivg : List (BitVec 11 × MkFp) := [
  (0x0A3#11, Instr.divg),
  (0x023#11, Instr.divgC),
  (0x1A3#11, Instr.divgU),
  (0x123#11, Instr.divgUc),
  (0x4A3#11, Instr.divgS),
  (0x423#11, Instr.divgSc),
  (0x5A3#11, Instr.divgSu),
  (0x523#11, Instr.divgSuc)]

/-- Opcode 15, VAX (R501): CMPGEQ and its qualifiers. -/
noncomputable def fltvCmpgeq : List (BitVec 11 × MkFp) := [
  (0x0A5#11, Instr.cmpgeq),
  (0x4A5#11, Instr.cmpgeqS)]

/-- Opcode 15, VAX (R501): CMPGLT and its qualifiers. -/
noncomputable def fltvCmpglt : List (BitVec 11 × MkFp) := [
  (0x0A6#11, Instr.cmpglt),
  (0x4A6#11, Instr.cmpgltS)]

/-- Opcode 15, VAX (R501): CMPGLE and its qualifiers. -/
noncomputable def fltvCmpgle : List (BitVec 11 × MkFp) := [
  (0x0A7#11, Instr.cmpgle),
  (0x4A7#11, Instr.cmpgleS)]

/-- Opcode 15, VAX (R501): CVTGF and its qualifiers. -/
noncomputable def fltvCvtgf : List (BitVec 11 × MkFp) := [
  (0x0AC#11, Instr.cvtgf),
  (0x02C#11, Instr.cvtgfC),
  (0x1AC#11, Instr.cvtgfU),
  (0x12C#11, Instr.cvtgfUc),
  (0x4AC#11, Instr.cvtgfS),
  (0x42C#11, Instr.cvtgfSc),
  (0x5AC#11, Instr.cvtgfSu),
  (0x52C#11, Instr.cvtgfSuc)]

/-- Opcode 15, VAX (R501): CVTGD and its qualifiers. -/
noncomputable def fltvCvtgd : List (BitVec 11 × MkFp) := [
  (0x0AD#11, Instr.cvtgd),
  (0x02D#11, Instr.cvtgdC),
  (0x1AD#11, Instr.cvtgdU),
  (0x12D#11, Instr.cvtgdUc),
  (0x4AD#11, Instr.cvtgdS),
  (0x42D#11, Instr.cvtgdSc),
  (0x5AD#11, Instr.cvtgdSu),
  (0x52D#11, Instr.cvtgdSuc)]

/-- Opcode 15, VAX (R501): CVTQF and its qualifiers. -/
noncomputable def fltvCvtqf : List (BitVec 11 × MkFp) := [
  (0x0BC#11, Instr.cvtqf),
  (0x03C#11, Instr.cvtqfC)]

/-- Opcode 15, VAX (R501): CVTQG and its qualifiers. -/
noncomputable def fltvCvtqg : List (BitVec 11 × MkFp) := [
  (0x0BE#11, Instr.cvtqg),
  (0x03E#11, Instr.cvtqgC)]

/-- Opcode 15, VAX (R501): CVTDG and its qualifiers. -/
noncomputable def fltvCvtdg : List (BitVec 11 × MkFp) := [
  (0x09E#11, Instr.cvtdg),
  (0x01E#11, Instr.cvtdgC),
  (0x19E#11, Instr.cvtdgU),
  (0x11E#11, Instr.cvtdgUc),
  (0x49E#11, Instr.cvtdgS),
  (0x41E#11, Instr.cvtdgSc),
  (0x59E#11, Instr.cvtdgSu),
  (0x51E#11, Instr.cvtdgSuc)]

/-- Opcode 15, VAX (R501): CVTGQ and its qualifiers. -/
noncomputable def fltvCvtgq : List (BitVec 11 × MkFp) := [
  (0x0AF#11, Instr.cvtgq),
  (0x02F#11, Instr.cvtgqC),
  (0x1AF#11, Instr.cvtgqV),
  (0x12F#11, Instr.cvtgqVc),
  (0x4AF#11, Instr.cvtgqS),
  (0x42F#11, Instr.cvtgqSc),
  (0x5AF#11, Instr.cvtgqSv),
  (0x52F#11, Instr.cvtgqSvc)]

/-- Opcode 15, VAX (R501): the whole table. -/
noncomputable def fltvTable : List (BitVec 11 × MkFp) :=
  fltvAddf ++ fltvAddg ++ fltvSubf ++ fltvSubg ++ fltvMulf ++ fltvMulg ++ fltvDivf ++ fltvDivg ++ fltvCmpgeq ++ fltvCmpglt ++ fltvCmpgle ++ fltvCvtgf ++ fltvCvtgd ++ fltvCvtqf ++ fltvCvtqg ++ fltvCvtdg ++ fltvCvtgq

/-- Opcode 18 (R497): the 16-bit function code and the instruction. -/
def miscTable : List (BitVec 16 × MkMisc) := [
  (0x4000#16, Instr.mb),
  (0x4400#16, Instr.wmb),
  (0x0400#16, Instr.excb),
  (0x0000#16, Instr.trapb),
  (0x8000#16, Instr.fetch),
  (0xA000#16, Instr.fetchM),
  (0xC000#16, Instr.rpcc),
  (0xE000#16, Instr.rc),
  (0xF000#16, Instr.rs)]

/-- Opcode 1A (R498): bits <15:14> and the jump. -/
def jumpTable : List (BitVec 2 × (RegNum → RegNum → BitVec 14 → Instr)) := [
  (0#2, Instr.jmp),
  (1#2, Instr.jsr),
  (2#2, Instr.ret),
  (3#2, Instr.jsrCoroutine)]

/-- Opcode 00: the CALL_PAL functions that are rows of the opcode table themselves (R687). -/
def palTable : List (BitVec 26 × Instr) := [
  (0x0#26, Instr.callPalHalt),
  (0x2#26, Instr.callPalDraina),
  (0x86#26, Instr.callPalImb)]

/-- What an opcode stands for (R492). -/
inductive OpClass where
  | pal
  | mem (mk : MkMem)
  | bra (mk : MkBra)
  | jump
  | opr (table : List (BitVec 7 × MkOpr))
  | fp (table : List (BitVec 11 × MkFp))
  | ieee (table : List (BitVec 11 × MkFp))
  | misc
  | hwLd
  | hwSt
  | hwRei
  | res (mk : BitVec 26 → Instr)

/-- All 64 opcodes, 00 to 3F in order (R492, Table A-7). -/
noncomputable def opcodeMap : List OpClass := [
  .pal, .res .opc01, .res .opc02, .res .opc03, .res .opc04, .res .opc05, .res .opc06, .res .opc07,
  .mem .lda, .mem .ldah, .res .opc0a, .mem .ldqU, .res .opc0c, .res .opc0d, .res .opc0e, .mem .stqU,
  .opr intaTable, .opr intlTable, .opr intsTable, .opr intmTable, .res .opc14, .fp fltvTable, .ieee fltiTable, .fp fltlTable,
  .misc, .mem .hwMfpr, .jump, .hwLd, .res .opc1c, .mem .hwMtpr, .hwRei, .hwSt,
  .mem .ldf, .mem .ldg, .mem .lds, .mem .ldt, .mem .stf, .mem .stg, .mem .sts, .mem .stt,
  .mem .ldl, .mem .ldq, .mem .ldlL, .mem .ldqL, .mem .stl, .mem .stq, .mem .stlC, .mem .stqC,
  .bra .br, .bra .fbeq, .bra .fblt, .bra .fble, .bra .bsr, .bra .fbne, .bra .fbge, .bra .fbgt,
  .bra .blbc, .bra .beq, .bra .blt, .bra .ble, .bra .blbs, .bra .bne, .bra .bge, .bra .bgt]

/-- The class of an opcode: every opcode has one. -/
noncomputable def opClass (op : BitVec 6) : OpClass := opcodeMap[op.toNat]'(by have h := op.isLt; simpa [opcodeMap] using h)

/-- The instruction an instruction word stands for, or why it is none (R492 to R504). -/
noncomputable def decode (w : Longword) : Except Reject Instr :=
  match opClass (fOp w) with
  | .pal => .ok ((lookup (fRest w) palTable).getD (.callPal (fRest w)))
  | .mem mk => .ok (mk (fRa w) (fRb w) (fDisp16 w))
  | .bra mk => .ok (mk (fRa w) (fDisp21 w))
  | .jump =>
    match lookup (fTop2 w) jumpTable with
    | some mk => .ok (mk (fRa w) (fRb w) (fLow14 w))
    | none => .error .unusedMisc  -- never: all four selectors are in the table (R498)
  | .opr table =>
    match lookup (fFn7 w) table with
    | some mk => .ok (mk (fRa w) (fRegOrLit w) (fRc w))
    | none => .error (.unusedInt (fRc w))
  | .fp table =>
    match lookup (fFn11 w) table with
    | some mk => .ok (mk (fRa w) (fRb w) (fRc w))
    | none => .error (.unusedFp (fRc w))
  | .ieee table =>
    match lookup (fFn11 w) table with
    | some mk => .ok (mk (fRa w) (fRb w) (fRc w))
    | none => .error (.unusedIeee (w.extractLsb' 9 2) (fRc w))
  | .misc =>
    match lookup (fDisp16 w) miscTable with
    | some mk => .ok (mk (fRa w) (fRb w))
    | none => .error .unusedMisc
  | .hwLd => .ok (.hwLd (fRa w) (fRb w) (fBit w 15) (fBit w 14) (fBit w 13) (fBit w 12) (fBit w 11) (fBit w 10)
      (fDisp10 w))
  | .hwSt => .ok (.hwSt (fRa w) (fRb w) (fBit w 15) (fBit w 14) (fBit w 13) (fBit w 12) (fBit w 11) (fBit w 10)
      (fDisp10 w))
  | .hwRei => .ok (.hwRei (fRa w) (fRb w) (fTop2 w) (fLow14 w))
  | .res mk => .ok (mk (fRest w))

/-! ## The encoder -/

/-- A Memory-format word (R482), also the HW_MFPR and HW_MTPR layout (R491). -/
def encMem (op : BitVec 6) (ra rb : RegNum) (disp : BitVec 16) : Longword := op ++ (ra ++ (rb ++ disp))
/-- A Branch-format word (R485). -/
def encBra (op : BitVec 6) (ra : RegNum) (disp : BitVec 21) : Longword := op ++ (ra ++ disp)
/-- A word of opcode 1A (R484). -/
def encJump (ra rb : RegNum) (sel : BitVec 2) (hint : BitVec 14) : Longword :=
  0x1A#6 ++ (ra ++ (rb ++ (sel ++ hint)))
/-- An Operate-format word; the should-be-zero bits of the register form are zero (R486). -/
def encOpr (op : BitVec 6) (fn : BitVec 7) (ra : RegNum) (rb : RegOrLit) (rc : RegNum) : Longword :=
  match rb with
  | .reg r => op ++ (ra ++ (r ++ (0#3 ++ (0#1 ++ (fn ++ rc)))))
  | .lit n => op ++ (ra ++ (n ++ (1#1 ++ (fn ++ rc))))
/-- A floating-point operate word (R487). -/
def encFp (op : BitVec 6) (fn : BitVec 11) (fa fb fc : RegNum) : Longword := op ++ (fa ++ (fb ++ (fn ++ fc)))
/-- A word of opcode 18 (R483). -/
def encMisc (fn : BitVec 16) (ra rb : RegNum) : Longword := 0x18#6 ++ (ra ++ (rb ++ fn))
/-- A word whose bits below the opcode are one field: PALcode format (R488) and the reserved opcodes. -/
def encPal (op : BitVec 6) (rest : BitVec 26) : Longword := op ++ rest
/-- One bit of a word being built. -/
def bit1 (b : Bool) : BitVec 1 := BitVec.ofBool b
/-- The layout HW_LD and HW_ST share (R489). -/
def encHwMem (op : BitVec 6) (ra rb : RegNum) (b15 b14 b13 b12 b11 b10 : Bool) (disp : BitVec 10) : Longword :=
  op ++ (ra ++ (rb ++ (bit1 b15 ++ (bit1 b14 ++ (bit1 b13 ++ (bit1 b12 ++ (bit1 b11 ++ (bit1 b10 ++ disp))))))))

/-- The word of an instruction, written from the same tables (R492 to R501). -/
def encode : Instr → Longword
  | .lda ra rb disp => encMem 0x08#6 ra rb disp
  | .ldah ra rb disp => encMem 0x09#6 ra rb disp
  | .ldl ra rb disp => encMem 0x28#6 ra rb disp
  | .ldq ra rb disp => encMem 0x29#6 ra rb disp
  | .ldqU ra rb disp => encMem 0x0B#6 ra rb disp
  | .ldlL ra rb disp => encMem 0x2A#6 ra rb disp
  | .ldqL ra rb disp => encMem 0x2B#6 ra rb disp
  | .stl ra rb disp => encMem 0x2C#6 ra rb disp
  | .stq ra rb disp => encMem 0x2D#6 ra rb disp
  | .stqU ra rb disp => encMem 0x0F#6 ra rb disp
  | .stlC ra rb disp => encMem 0x2E#6 ra rb disp
  | .stqC ra rb disp => encMem 0x2F#6 ra rb disp
  | .ldf ra rb disp => encMem 0x20#6 ra rb disp
  | .ldg ra rb disp => encMem 0x21#6 ra rb disp
  | .lds ra rb disp => encMem 0x22#6 ra rb disp
  | .ldt ra rb disp => encMem 0x23#6 ra rb disp
  | .stf ra rb disp => encMem 0x24#6 ra rb disp
  | .stg ra rb disp => encMem 0x25#6 ra rb disp
  | .sts ra rb disp => encMem 0x26#6 ra rb disp
  | .stt ra rb disp => encMem 0x27#6 ra rb disp
  | .br ra disp => encBra 0x30#6 ra disp
  | .bsr ra disp => encBra 0x34#6 ra disp
  | .beq ra disp => encBra 0x39#6 ra disp
  | .bne ra disp => encBra 0x3D#6 ra disp
  | .blt ra disp => encBra 0x3A#6 ra disp
  | .ble ra disp => encBra 0x3B#6 ra disp
  | .bgt ra disp => encBra 0x3F#6 ra disp
  | .bge ra disp => encBra 0x3E#6 ra disp
  | .blbc ra disp => encBra 0x38#6 ra disp
  | .blbs ra disp => encBra 0x3C#6 ra disp
  | .fbeq ra disp => encBra 0x31#6 ra disp
  | .fbne ra disp => encBra 0x35#6 ra disp
  | .fblt ra disp => encBra 0x32#6 ra disp
  | .fble ra disp => encBra 0x33#6 ra disp
  | .fbgt ra disp => encBra 0x37#6 ra disp
  | .fbge ra disp => encBra 0x36#6 ra disp
  | .jmp ra rb hint => encJump ra rb 0#2 hint
  | .jsr ra rb hint => encJump ra rb 1#2 hint
  | .ret ra rb hint => encJump ra rb 2#2 hint
  | .jsrCoroutine ra rb hint => encJump ra rb 3#2 hint
  | .addl ra rb rc => encOpr 0x10#6 0x00#7 ra rb rc
  | .addlV ra rb rc => encOpr 0x10#6 0x40#7 ra rb rc
  | .addq ra rb rc => encOpr 0x10#6 0x20#7 ra rb rc
  | .addqV ra rb rc => encOpr 0x10#6 0x60#7 ra rb rc
  | .s4addl ra rb rc => encOpr 0x10#6 0x02#7 ra rb rc
  | .s4addq ra rb rc => encOpr 0x10#6 0x22#7 ra rb rc
  | .s8addl ra rb rc => encOpr 0x10#6 0x12#7 ra rb rc
  | .s8addq ra rb rc => encOpr 0x10#6 0x32#7 ra rb rc
  | .subl ra rb rc => encOpr 0x10#6 0x09#7 ra rb rc
  | .sublV ra rb rc => encOpr 0x10#6 0x49#7 ra rb rc
  | .subq ra rb rc => encOpr 0x10#6 0x29#7 ra rb rc
  | .subqV ra rb rc => encOpr 0x10#6 0x69#7 ra rb rc
  | .s4subl ra rb rc => encOpr 0x10#6 0x0B#7 ra rb rc
  | .s4subq ra rb rc => encOpr 0x10#6 0x2B#7 ra rb rc
  | .s8subl ra rb rc => encOpr 0x10#6 0x1B#7 ra rb rc
  | .s8subq ra rb rc => encOpr 0x10#6 0x3B#7 ra rb rc
  | .cmpeq ra rb rc => encOpr 0x10#6 0x2D#7 ra rb rc
  | .cmplt ra rb rc => encOpr 0x10#6 0x4D#7 ra rb rc
  | .cmple ra rb rc => encOpr 0x10#6 0x6D#7 ra rb rc
  | .cmpult ra rb rc => encOpr 0x10#6 0x1D#7 ra rb rc
  | .cmpule ra rb rc => encOpr 0x10#6 0x3D#7 ra rb rc
  | .mull ra rb rc => encOpr 0x13#6 0x00#7 ra rb rc
  | .mullV ra rb rc => encOpr 0x13#6 0x40#7 ra rb rc
  | .mulq ra rb rc => encOpr 0x13#6 0x20#7 ra rb rc
  | .mulqV ra rb rc => encOpr 0x13#6 0x60#7 ra rb rc
  | .umulh ra rb rc => encOpr 0x13#6 0x30#7 ra rb rc
  | .and ra rb rc => encOpr 0x11#6 0x00#7 ra rb rc
  | .bic ra rb rc => encOpr 0x11#6 0x08#7 ra rb rc
  | .bis ra rb rc => encOpr 0x11#6 0x20#7 ra rb rc
  | .ornot ra rb rc => encOpr 0x11#6 0x28#7 ra rb rc
  | .xor ra rb rc => encOpr 0x11#6 0x40#7 ra rb rc
  | .eqv ra rb rc => encOpr 0x11#6 0x48#7 ra rb rc
  | .cmoveq ra rb rc => encOpr 0x11#6 0x24#7 ra rb rc
  | .cmovne ra rb rc => encOpr 0x11#6 0x26#7 ra rb rc
  | .cmovlt ra rb rc => encOpr 0x11#6 0x44#7 ra rb rc
  | .cmovge ra rb rc => encOpr 0x11#6 0x46#7 ra rb rc
  | .cmovle ra rb rc => encOpr 0x11#6 0x64#7 ra rb rc
  | .cmovgt ra rb rc => encOpr 0x11#6 0x66#7 ra rb rc
  | .cmovlbs ra rb rc => encOpr 0x11#6 0x14#7 ra rb rc
  | .cmovlbc ra rb rc => encOpr 0x11#6 0x16#7 ra rb rc
  | .sll ra rb rc => encOpr 0x12#6 0x39#7 ra rb rc
  | .srl ra rb rc => encOpr 0x12#6 0x34#7 ra rb rc
  | .sra ra rb rc => encOpr 0x12#6 0x3C#7 ra rb rc
  | .cmpbge ra rb rc => encOpr 0x10#6 0x0F#7 ra rb rc
  | .extbl ra rb rc => encOpr 0x12#6 0x06#7 ra rb rc
  | .extwl ra rb rc => encOpr 0x12#6 0x16#7 ra rb rc
  | .extll ra rb rc => encOpr 0x12#6 0x26#7 ra rb rc
  | .extql ra rb rc => encOpr 0x12#6 0x36#7 ra rb rc
  | .extwh ra rb rc => encOpr 0x12#6 0x5A#7 ra rb rc
  | .extlh ra rb rc => encOpr 0x12#6 0x6A#7 ra rb rc
  | .extqh ra rb rc => encOpr 0x12#6 0x7A#7 ra rb rc
  | .insbl ra rb rc => encOpr 0x12#6 0x0B#7 ra rb rc
  | .inswl ra rb rc => encOpr 0x12#6 0x1B#7 ra rb rc
  | .insll ra rb rc => encOpr 0x12#6 0x2B#7 ra rb rc
  | .insql ra rb rc => encOpr 0x12#6 0x3B#7 ra rb rc
  | .inswh ra rb rc => encOpr 0x12#6 0x57#7 ra rb rc
  | .inslh ra rb rc => encOpr 0x12#6 0x67#7 ra rb rc
  | .insqh ra rb rc => encOpr 0x12#6 0x77#7 ra rb rc
  | .mskbl ra rb rc => encOpr 0x12#6 0x02#7 ra rb rc
  | .mskwl ra rb rc => encOpr 0x12#6 0x12#7 ra rb rc
  | .mskll ra rb rc => encOpr 0x12#6 0x22#7 ra rb rc
  | .mskql ra rb rc => encOpr 0x12#6 0x32#7 ra rb rc
  | .mskwh ra rb rc => encOpr 0x12#6 0x52#7 ra rb rc
  | .msklh ra rb rc => encOpr 0x12#6 0x62#7 ra rb rc
  | .mskqh ra rb rc => encOpr 0x12#6 0x72#7 ra rb rc
  | .zap ra rb rc => encOpr 0x12#6 0x30#7 ra rb rc
  | .zapnot ra rb rc => encOpr 0x12#6 0x31#7 ra rb rc
  | .callPal f => encPal 0#6 f
  | .mb ra rb => encMisc 0x4000#16 ra rb
  | .wmb ra rb => encMisc 0x4400#16 ra rb
  | .excb ra rb => encMisc 0x0400#16 ra rb
  | .trapb ra rb => encMisc 0x0000#16 ra rb
  | .fetch ra rb => encMisc 0x8000#16 ra rb
  | .fetchM ra rb => encMisc 0xA000#16 ra rb
  | .rpcc ra rb => encMisc 0xC000#16 ra rb
  | .rc ra rb => encMisc 0xE000#16 ra rb
  | .rs ra rb => encMisc 0xF000#16 ra rb
  | .hwMfpr ra rb index => encMem 0x19#6 ra rb index
  | .hwLd ra rb phys alt wrtck quad vpte lock disp => encHwMem 0x1B#6 ra rb phys alt wrtck quad vpte lock disp
  | .hwMtpr ra rb index => encMem 0x1D#6 ra rb index
  | .hwRei ra rb typ mbz => 0x1E#6 ++ (ra ++ (rb ++ (typ ++ mbz)))
  | .hwSt ra rb phys alt mbz13 quad mbz11 cond disp => encHwMem 0x1F#6 ra rb phys alt mbz13 quad mbz11 cond disp
  | .callPalHalt => encPal 0#6 0x0#26
  | .callPalDraina => encPal 0#6 0x2#26
  | .callPalImb => encPal 0#6 0x86#26
  | .opc01 rest => encPal 0x01#6 rest
  | .opc02 rest => encPal 0x02#6 rest
  | .opc03 rest => encPal 0x03#6 rest
  | .opc04 rest => encPal 0x04#6 rest
  | .opc05 rest => encPal 0x05#6 rest
  | .opc06 rest => encPal 0x06#6 rest
  | .opc07 rest => encPal 0x07#6 rest
  | .opc0a rest => encPal 0x0A#6 rest
  | .opc0c rest => encPal 0x0C#6 rest
  | .opc0d rest => encPal 0x0D#6 rest
  | .opc0e rest => encPal 0x0E#6 rest
  | .opc14 rest => encPal 0x14#6 rest
  | .opc1c rest => encPal 0x1C#6 rest
  | .cpys fa fb fc => encFp 0x17#6 0x020#11 fa fb fc
  | .cpysn fa fb fc => encFp 0x17#6 0x021#11 fa fb fc
  | .cpyse fa fb fc => encFp 0x17#6 0x022#11 fa fb fc
  | .cvtlq fa fb fc => encFp 0x17#6 0x010#11 fa fb fc
  | .cvtql fa fb fc => encFp 0x17#6 0x030#11 fa fb fc
  | .cvtqlV fa fb fc => encFp 0x17#6 0x130#11 fa fb fc
  | .cvtqlSv fa fb fc => encFp 0x17#6 0x530#11 fa fb fc
  | .fcmoveq fa fb fc => encFp 0x17#6 0x02A#11 fa fb fc
  | .fcmovne fa fb fc => encFp 0x17#6 0x02B#11 fa fb fc
  | .fcmovlt fa fb fc => encFp 0x17#6 0x02C#11 fa fb fc
  | .fcmovge fa fb fc => encFp 0x17#6 0x02D#11 fa fb fc
  | .fcmovle fa fb fc => encFp 0x17#6 0x02E#11 fa fb fc
  | .fcmovgt fa fb fc => encFp 0x17#6 0x02F#11 fa fb fc
  | .mtFpcr fa fb fc => encFp 0x17#6 0x024#11 fa fb fc
  | .mfFpcr fa fb fc => encFp 0x17#6 0x025#11 fa fb fc
  | .adds fa fb fc => encFp 0x16#6 0x080#11 fa fb fc
  | .addsC fa fb fc => encFp 0x16#6 0x000#11 fa fb fc
  | .addsM fa fb fc => encFp 0x16#6 0x040#11 fa fb fc
  | .addsD fa fb fc => encFp 0x16#6 0x0C0#11 fa fb fc
  | .addsU fa fb fc => encFp 0x16#6 0x180#11 fa fb fc
  | .addsUc fa fb fc => encFp 0x16#6 0x100#11 fa fb fc
  | .addsUm fa fb fc => encFp 0x16#6 0x140#11 fa fb fc
  | .addsUd fa fb fc => encFp 0x16#6 0x1C0#11 fa fb fc
  | .addsSu fa fb fc => encFp 0x16#6 0x580#11 fa fb fc
  | .addsSuc fa fb fc => encFp 0x16#6 0x500#11 fa fb fc
  | .addsSum fa fb fc => encFp 0x16#6 0x540#11 fa fb fc
  | .addsSud fa fb fc => encFp 0x16#6 0x5C0#11 fa fb fc
  | .addsSui fa fb fc => encFp 0x16#6 0x780#11 fa fb fc
  | .addsSuic fa fb fc => encFp 0x16#6 0x700#11 fa fb fc
  | .addsSuim fa fb fc => encFp 0x16#6 0x740#11 fa fb fc
  | .addsSuid fa fb fc => encFp 0x16#6 0x7C0#11 fa fb fc
  | .addt fa fb fc => encFp 0x16#6 0x0A0#11 fa fb fc
  | .addtC fa fb fc => encFp 0x16#6 0x020#11 fa fb fc
  | .addtM fa fb fc => encFp 0x16#6 0x060#11 fa fb fc
  | .addtD fa fb fc => encFp 0x16#6 0x0E0#11 fa fb fc
  | .addtU fa fb fc => encFp 0x16#6 0x1A0#11 fa fb fc
  | .addtUc fa fb fc => encFp 0x16#6 0x120#11 fa fb fc
  | .addtUm fa fb fc => encFp 0x16#6 0x160#11 fa fb fc
  | .addtUd fa fb fc => encFp 0x16#6 0x1E0#11 fa fb fc
  | .addtSu fa fb fc => encFp 0x16#6 0x5A0#11 fa fb fc
  | .addtSuc fa fb fc => encFp 0x16#6 0x520#11 fa fb fc
  | .addtSum fa fb fc => encFp 0x16#6 0x560#11 fa fb fc
  | .addtSud fa fb fc => encFp 0x16#6 0x5E0#11 fa fb fc
  | .addtSui fa fb fc => encFp 0x16#6 0x7A0#11 fa fb fc
  | .addtSuic fa fb fc => encFp 0x16#6 0x720#11 fa fb fc
  | .addtSuim fa fb fc => encFp 0x16#6 0x760#11 fa fb fc
  | .addtSuid fa fb fc => encFp 0x16#6 0x7E0#11 fa fb fc
  | .subs fa fb fc => encFp 0x16#6 0x081#11 fa fb fc
  | .subsC fa fb fc => encFp 0x16#6 0x001#11 fa fb fc
  | .subsM fa fb fc => encFp 0x16#6 0x041#11 fa fb fc
  | .subsD fa fb fc => encFp 0x16#6 0x0C1#11 fa fb fc
  | .subsU fa fb fc => encFp 0x16#6 0x181#11 fa fb fc
  | .subsUc fa fb fc => encFp 0x16#6 0x101#11 fa fb fc
  | .subsUm fa fb fc => encFp 0x16#6 0x141#11 fa fb fc
  | .subsUd fa fb fc => encFp 0x16#6 0x1C1#11 fa fb fc
  | .subsSu fa fb fc => encFp 0x16#6 0x581#11 fa fb fc
  | .subsSuc fa fb fc => encFp 0x16#6 0x501#11 fa fb fc
  | .subsSum fa fb fc => encFp 0x16#6 0x541#11 fa fb fc
  | .subsSud fa fb fc => encFp 0x16#6 0x5C1#11 fa fb fc
  | .subsSui fa fb fc => encFp 0x16#6 0x781#11 fa fb fc
  | .subsSuic fa fb fc => encFp 0x16#6 0x701#11 fa fb fc
  | .subsSuim fa fb fc => encFp 0x16#6 0x741#11 fa fb fc
  | .subsSuid fa fb fc => encFp 0x16#6 0x7C1#11 fa fb fc
  | .subt fa fb fc => encFp 0x16#6 0x0A1#11 fa fb fc
  | .subtC fa fb fc => encFp 0x16#6 0x021#11 fa fb fc
  | .subtM fa fb fc => encFp 0x16#6 0x061#11 fa fb fc
  | .subtD fa fb fc => encFp 0x16#6 0x0E1#11 fa fb fc
  | .subtU fa fb fc => encFp 0x16#6 0x1A1#11 fa fb fc
  | .subtUc fa fb fc => encFp 0x16#6 0x121#11 fa fb fc
  | .subtUm fa fb fc => encFp 0x16#6 0x161#11 fa fb fc
  | .subtUd fa fb fc => encFp 0x16#6 0x1E1#11 fa fb fc
  | .subtSu fa fb fc => encFp 0x16#6 0x5A1#11 fa fb fc
  | .subtSuc fa fb fc => encFp 0x16#6 0x521#11 fa fb fc
  | .subtSum fa fb fc => encFp 0x16#6 0x561#11 fa fb fc
  | .subtSud fa fb fc => encFp 0x16#6 0x5E1#11 fa fb fc
  | .subtSui fa fb fc => encFp 0x16#6 0x7A1#11 fa fb fc
  | .subtSuic fa fb fc => encFp 0x16#6 0x721#11 fa fb fc
  | .subtSuim fa fb fc => encFp 0x16#6 0x761#11 fa fb fc
  | .subtSuid fa fb fc => encFp 0x16#6 0x7E1#11 fa fb fc
  | .muls fa fb fc => encFp 0x16#6 0x082#11 fa fb fc
  | .mulsC fa fb fc => encFp 0x16#6 0x002#11 fa fb fc
  | .mulsM fa fb fc => encFp 0x16#6 0x042#11 fa fb fc
  | .mulsD fa fb fc => encFp 0x16#6 0x0C2#11 fa fb fc
  | .mulsU fa fb fc => encFp 0x16#6 0x182#11 fa fb fc
  | .mulsUc fa fb fc => encFp 0x16#6 0x102#11 fa fb fc
  | .mulsUm fa fb fc => encFp 0x16#6 0x142#11 fa fb fc
  | .mulsUd fa fb fc => encFp 0x16#6 0x1C2#11 fa fb fc
  | .mulsSu fa fb fc => encFp 0x16#6 0x582#11 fa fb fc
  | .mulsSuc fa fb fc => encFp 0x16#6 0x502#11 fa fb fc
  | .mulsSum fa fb fc => encFp 0x16#6 0x542#11 fa fb fc
  | .mulsSud fa fb fc => encFp 0x16#6 0x5C2#11 fa fb fc
  | .mulsSui fa fb fc => encFp 0x16#6 0x782#11 fa fb fc
  | .mulsSuic fa fb fc => encFp 0x16#6 0x702#11 fa fb fc
  | .mulsSuim fa fb fc => encFp 0x16#6 0x742#11 fa fb fc
  | .mulsSuid fa fb fc => encFp 0x16#6 0x7C2#11 fa fb fc
  | .mult fa fb fc => encFp 0x16#6 0x0A2#11 fa fb fc
  | .multC fa fb fc => encFp 0x16#6 0x022#11 fa fb fc
  | .multM fa fb fc => encFp 0x16#6 0x062#11 fa fb fc
  | .multD fa fb fc => encFp 0x16#6 0x0E2#11 fa fb fc
  | .multU fa fb fc => encFp 0x16#6 0x1A2#11 fa fb fc
  | .multUc fa fb fc => encFp 0x16#6 0x122#11 fa fb fc
  | .multUm fa fb fc => encFp 0x16#6 0x162#11 fa fb fc
  | .multUd fa fb fc => encFp 0x16#6 0x1E2#11 fa fb fc
  | .multSu fa fb fc => encFp 0x16#6 0x5A2#11 fa fb fc
  | .multSuc fa fb fc => encFp 0x16#6 0x522#11 fa fb fc
  | .multSum fa fb fc => encFp 0x16#6 0x562#11 fa fb fc
  | .multSud fa fb fc => encFp 0x16#6 0x5E2#11 fa fb fc
  | .multSui fa fb fc => encFp 0x16#6 0x7A2#11 fa fb fc
  | .multSuic fa fb fc => encFp 0x16#6 0x722#11 fa fb fc
  | .multSuim fa fb fc => encFp 0x16#6 0x762#11 fa fb fc
  | .multSuid fa fb fc => encFp 0x16#6 0x7E2#11 fa fb fc
  | .divs fa fb fc => encFp 0x16#6 0x083#11 fa fb fc
  | .divsC fa fb fc => encFp 0x16#6 0x003#11 fa fb fc
  | .divsM fa fb fc => encFp 0x16#6 0x043#11 fa fb fc
  | .divsD fa fb fc => encFp 0x16#6 0x0C3#11 fa fb fc
  | .divsU fa fb fc => encFp 0x16#6 0x183#11 fa fb fc
  | .divsUc fa fb fc => encFp 0x16#6 0x103#11 fa fb fc
  | .divsUm fa fb fc => encFp 0x16#6 0x143#11 fa fb fc
  | .divsUd fa fb fc => encFp 0x16#6 0x1C3#11 fa fb fc
  | .divsSu fa fb fc => encFp 0x16#6 0x583#11 fa fb fc
  | .divsSuc fa fb fc => encFp 0x16#6 0x503#11 fa fb fc
  | .divsSum fa fb fc => encFp 0x16#6 0x543#11 fa fb fc
  | .divsSud fa fb fc => encFp 0x16#6 0x5C3#11 fa fb fc
  | .divsSui fa fb fc => encFp 0x16#6 0x783#11 fa fb fc
  | .divsSuic fa fb fc => encFp 0x16#6 0x703#11 fa fb fc
  | .divsSuim fa fb fc => encFp 0x16#6 0x743#11 fa fb fc
  | .divsSuid fa fb fc => encFp 0x16#6 0x7C3#11 fa fb fc
  | .divt fa fb fc => encFp 0x16#6 0x0A3#11 fa fb fc
  | .divtC fa fb fc => encFp 0x16#6 0x023#11 fa fb fc
  | .divtM fa fb fc => encFp 0x16#6 0x063#11 fa fb fc
  | .divtD fa fb fc => encFp 0x16#6 0x0E3#11 fa fb fc
  | .divtU fa fb fc => encFp 0x16#6 0x1A3#11 fa fb fc
  | .divtUc fa fb fc => encFp 0x16#6 0x123#11 fa fb fc
  | .divtUm fa fb fc => encFp 0x16#6 0x163#11 fa fb fc
  | .divtUd fa fb fc => encFp 0x16#6 0x1E3#11 fa fb fc
  | .divtSu fa fb fc => encFp 0x16#6 0x5A3#11 fa fb fc
  | .divtSuc fa fb fc => encFp 0x16#6 0x523#11 fa fb fc
  | .divtSum fa fb fc => encFp 0x16#6 0x563#11 fa fb fc
  | .divtSud fa fb fc => encFp 0x16#6 0x5E3#11 fa fb fc
  | .divtSui fa fb fc => encFp 0x16#6 0x7A3#11 fa fb fc
  | .divtSuic fa fb fc => encFp 0x16#6 0x723#11 fa fb fc
  | .divtSuim fa fb fc => encFp 0x16#6 0x763#11 fa fb fc
  | .divtSuid fa fb fc => encFp 0x16#6 0x7E3#11 fa fb fc
  | .cmpteq fa fb fc => encFp 0x16#6 0x0A5#11 fa fb fc
  | .cmpteqSu fa fb fc => encFp 0x16#6 0x5A5#11 fa fb fc
  | .cmptlt fa fb fc => encFp 0x16#6 0x0A6#11 fa fb fc
  | .cmptltSu fa fb fc => encFp 0x16#6 0x5A6#11 fa fb fc
  | .cmptle fa fb fc => encFp 0x16#6 0x0A7#11 fa fb fc
  | .cmptleSu fa fb fc => encFp 0x16#6 0x5A7#11 fa fb fc
  | .cmptun fa fb fc => encFp 0x16#6 0x0A4#11 fa fb fc
  | .cmptunSu fa fb fc => encFp 0x16#6 0x5A4#11 fa fb fc
  | .cvtqs fa fb fc => encFp 0x16#6 0x0BC#11 fa fb fc
  | .cvtqsC fa fb fc => encFp 0x16#6 0x03C#11 fa fb fc
  | .cvtqsM fa fb fc => encFp 0x16#6 0x07C#11 fa fb fc
  | .cvtqsD fa fb fc => encFp 0x16#6 0x0FC#11 fa fb fc
  | .cvtqsSui fa fb fc => encFp 0x16#6 0x7BC#11 fa fb fc
  | .cvtqsSuic fa fb fc => encFp 0x16#6 0x73C#11 fa fb fc
  | .cvtqsSuim fa fb fc => encFp 0x16#6 0x77C#11 fa fb fc
  | .cvtqsSuid fa fb fc => encFp 0x16#6 0x7FC#11 fa fb fc
  | .cvtqt fa fb fc => encFp 0x16#6 0x0BE#11 fa fb fc
  | .cvtqtC fa fb fc => encFp 0x16#6 0x03E#11 fa fb fc
  | .cvtqtM fa fb fc => encFp 0x16#6 0x07E#11 fa fb fc
  | .cvtqtD fa fb fc => encFp 0x16#6 0x0FE#11 fa fb fc
  | .cvtqtSui fa fb fc => encFp 0x16#6 0x7BE#11 fa fb fc
  | .cvtqtSuic fa fb fc => encFp 0x16#6 0x73E#11 fa fb fc
  | .cvtqtSuim fa fb fc => encFp 0x16#6 0x77E#11 fa fb fc
  | .cvtqtSuid fa fb fc => encFp 0x16#6 0x7FE#11 fa fb fc
  | .cvtts fa fb fc => encFp 0x16#6 0x0AC#11 fa fb fc
  | .cvttsC fa fb fc => encFp 0x16#6 0x02C#11 fa fb fc
  | .cvttsM fa fb fc => encFp 0x16#6 0x06C#11 fa fb fc
  | .cvttsD fa fb fc => encFp 0x16#6 0x0EC#11 fa fb fc
  | .cvttsU fa fb fc => encFp 0x16#6 0x1AC#11 fa fb fc
  | .cvttsUc fa fb fc => encFp 0x16#6 0x12C#11 fa fb fc
  | .cvttsUm fa fb fc => encFp 0x16#6 0x16C#11 fa fb fc
  | .cvttsUd fa fb fc => encFp 0x16#6 0x1EC#11 fa fb fc
  | .cvttsSu fa fb fc => encFp 0x16#6 0x5AC#11 fa fb fc
  | .cvttsSuc fa fb fc => encFp 0x16#6 0x52C#11 fa fb fc
  | .cvttsSum fa fb fc => encFp 0x16#6 0x56C#11 fa fb fc
  | .cvttsSud fa fb fc => encFp 0x16#6 0x5EC#11 fa fb fc
  | .cvttsSui fa fb fc => encFp 0x16#6 0x7AC#11 fa fb fc
  | .cvttsSuic fa fb fc => encFp 0x16#6 0x72C#11 fa fb fc
  | .cvttsSuim fa fb fc => encFp 0x16#6 0x76C#11 fa fb fc
  | .cvttsSuid fa fb fc => encFp 0x16#6 0x7EC#11 fa fb fc
  | .cvtst fa fb fc => encFp 0x16#6 0x2AC#11 fa fb fc
  | .cvtstS fa fb fc => encFp 0x16#6 0x6AC#11 fa fb fc
  | .cvttq fa fb fc => encFp 0x16#6 0x0AF#11 fa fb fc
  | .cvttqC fa fb fc => encFp 0x16#6 0x02F#11 fa fb fc
  | .cvttqV fa fb fc => encFp 0x16#6 0x1AF#11 fa fb fc
  | .cvttqVc fa fb fc => encFp 0x16#6 0x12F#11 fa fb fc
  | .cvttqSv fa fb fc => encFp 0x16#6 0x5AF#11 fa fb fc
  | .cvttqSvc fa fb fc => encFp 0x16#6 0x52F#11 fa fb fc
  | .cvttqSvi fa fb fc => encFp 0x16#6 0x7AF#11 fa fb fc
  | .cvttqSvic fa fb fc => encFp 0x16#6 0x72F#11 fa fb fc
  | .cvttqD fa fb fc => encFp 0x16#6 0x0EF#11 fa fb fc
  | .cvttqVd fa fb fc => encFp 0x16#6 0x1EF#11 fa fb fc
  | .cvttqSvd fa fb fc => encFp 0x16#6 0x5EF#11 fa fb fc
  | .cvttqSvid fa fb fc => encFp 0x16#6 0x7EF#11 fa fb fc
  | .cvttqM fa fb fc => encFp 0x16#6 0x06F#11 fa fb fc
  | .cvttqVm fa fb fc => encFp 0x16#6 0x16F#11 fa fb fc
  | .cvttqSvm fa fb fc => encFp 0x16#6 0x56F#11 fa fb fc
  | .cvttqSvim fa fb fc => encFp 0x16#6 0x76F#11 fa fb fc
  | .addf fa fb fc => encFp 0x15#6 0x080#11 fa fb fc
  | .addfC fa fb fc => encFp 0x15#6 0x000#11 fa fb fc
  | .addfU fa fb fc => encFp 0x15#6 0x180#11 fa fb fc
  | .addfUc fa fb fc => encFp 0x15#6 0x100#11 fa fb fc
  | .addfS fa fb fc => encFp 0x15#6 0x480#11 fa fb fc
  | .addfSc fa fb fc => encFp 0x15#6 0x400#11 fa fb fc
  | .addfSu fa fb fc => encFp 0x15#6 0x580#11 fa fb fc
  | .addfSuc fa fb fc => encFp 0x15#6 0x500#11 fa fb fc
  | .addg fa fb fc => encFp 0x15#6 0x0A0#11 fa fb fc
  | .addgC fa fb fc => encFp 0x15#6 0x020#11 fa fb fc
  | .addgU fa fb fc => encFp 0x15#6 0x1A0#11 fa fb fc
  | .addgUc fa fb fc => encFp 0x15#6 0x120#11 fa fb fc
  | .addgS fa fb fc => encFp 0x15#6 0x4A0#11 fa fb fc
  | .addgSc fa fb fc => encFp 0x15#6 0x420#11 fa fb fc
  | .addgSu fa fb fc => encFp 0x15#6 0x5A0#11 fa fb fc
  | .addgSuc fa fb fc => encFp 0x15#6 0x520#11 fa fb fc
  | .subf fa fb fc => encFp 0x15#6 0x081#11 fa fb fc
  | .subfC fa fb fc => encFp 0x15#6 0x001#11 fa fb fc
  | .subfU fa fb fc => encFp 0x15#6 0x181#11 fa fb fc
  | .subfUc fa fb fc => encFp 0x15#6 0x101#11 fa fb fc
  | .subfS fa fb fc => encFp 0x15#6 0x481#11 fa fb fc
  | .subfSc fa fb fc => encFp 0x15#6 0x401#11 fa fb fc
  | .subfSu fa fb fc => encFp 0x15#6 0x581#11 fa fb fc
  | .subfSuc fa fb fc => encFp 0x15#6 0x501#11 fa fb fc
  | .subg fa fb fc => encFp 0x15#6 0x0A1#11 fa fb fc
  | .subgC fa fb fc => encFp 0x15#6 0x021#11 fa fb fc
  | .subgU fa fb fc => encFp 0x15#6 0x1A1#11 fa fb fc
  | .subgUc fa fb fc => encFp 0x15#6 0x121#11 fa fb fc
  | .subgS fa fb fc => encFp 0x15#6 0x4A1#11 fa fb fc
  | .subgSc fa fb fc => encFp 0x15#6 0x421#11 fa fb fc
  | .subgSu fa fb fc => encFp 0x15#6 0x5A1#11 fa fb fc
  | .subgSuc fa fb fc => encFp 0x15#6 0x521#11 fa fb fc
  | .mulf fa fb fc => encFp 0x15#6 0x082#11 fa fb fc
  | .mulfC fa fb fc => encFp 0x15#6 0x002#11 fa fb fc
  | .mulfU fa fb fc => encFp 0x15#6 0x182#11 fa fb fc
  | .mulfUc fa fb fc => encFp 0x15#6 0x102#11 fa fb fc
  | .mulfS fa fb fc => encFp 0x15#6 0x482#11 fa fb fc
  | .mulfSc fa fb fc => encFp 0x15#6 0x402#11 fa fb fc
  | .mulfSu fa fb fc => encFp 0x15#6 0x582#11 fa fb fc
  | .mulfSuc fa fb fc => encFp 0x15#6 0x502#11 fa fb fc
  | .mulg fa fb fc => encFp 0x15#6 0x0A2#11 fa fb fc
  | .mulgC fa fb fc => encFp 0x15#6 0x022#11 fa fb fc
  | .mulgU fa fb fc => encFp 0x15#6 0x1A2#11 fa fb fc
  | .mulgUc fa fb fc => encFp 0x15#6 0x122#11 fa fb fc
  | .mulgS fa fb fc => encFp 0x15#6 0x4A2#11 fa fb fc
  | .mulgSc fa fb fc => encFp 0x15#6 0x422#11 fa fb fc
  | .mulgSu fa fb fc => encFp 0x15#6 0x5A2#11 fa fb fc
  | .mulgSuc fa fb fc => encFp 0x15#6 0x522#11 fa fb fc
  | .divf fa fb fc => encFp 0x15#6 0x083#11 fa fb fc
  | .divfC fa fb fc => encFp 0x15#6 0x003#11 fa fb fc
  | .divfU fa fb fc => encFp 0x15#6 0x183#11 fa fb fc
  | .divfUc fa fb fc => encFp 0x15#6 0x103#11 fa fb fc
  | .divfS fa fb fc => encFp 0x15#6 0x483#11 fa fb fc
  | .divfSc fa fb fc => encFp 0x15#6 0x403#11 fa fb fc
  | .divfSu fa fb fc => encFp 0x15#6 0x583#11 fa fb fc
  | .divfSuc fa fb fc => encFp 0x15#6 0x503#11 fa fb fc
  | .divg fa fb fc => encFp 0x15#6 0x0A3#11 fa fb fc
  | .divgC fa fb fc => encFp 0x15#6 0x023#11 fa fb fc
  | .divgU fa fb fc => encFp 0x15#6 0x1A3#11 fa fb fc
  | .divgUc fa fb fc => encFp 0x15#6 0x123#11 fa fb fc
  | .divgS fa fb fc => encFp 0x15#6 0x4A3#11 fa fb fc
  | .divgSc fa fb fc => encFp 0x15#6 0x423#11 fa fb fc
  | .divgSu fa fb fc => encFp 0x15#6 0x5A3#11 fa fb fc
  | .divgSuc fa fb fc => encFp 0x15#6 0x523#11 fa fb fc
  | .cmpgeq fa fb fc => encFp 0x15#6 0x0A5#11 fa fb fc
  | .cmpgeqS fa fb fc => encFp 0x15#6 0x4A5#11 fa fb fc
  | .cmpglt fa fb fc => encFp 0x15#6 0x0A6#11 fa fb fc
  | .cmpgltS fa fb fc => encFp 0x15#6 0x4A6#11 fa fb fc
  | .cmpgle fa fb fc => encFp 0x15#6 0x0A7#11 fa fb fc
  | .cmpgleS fa fb fc => encFp 0x15#6 0x4A7#11 fa fb fc
  | .cvtgf fa fb fc => encFp 0x15#6 0x0AC#11 fa fb fc
  | .cvtgfC fa fb fc => encFp 0x15#6 0x02C#11 fa fb fc
  | .cvtgfU fa fb fc => encFp 0x15#6 0x1AC#11 fa fb fc
  | .cvtgfUc fa fb fc => encFp 0x15#6 0x12C#11 fa fb fc
  | .cvtgfS fa fb fc => encFp 0x15#6 0x4AC#11 fa fb fc
  | .cvtgfSc fa fb fc => encFp 0x15#6 0x42C#11 fa fb fc
  | .cvtgfSu fa fb fc => encFp 0x15#6 0x5AC#11 fa fb fc
  | .cvtgfSuc fa fb fc => encFp 0x15#6 0x52C#11 fa fb fc
  | .cvtgd fa fb fc => encFp 0x15#6 0x0AD#11 fa fb fc
  | .cvtgdC fa fb fc => encFp 0x15#6 0x02D#11 fa fb fc
  | .cvtgdU fa fb fc => encFp 0x15#6 0x1AD#11 fa fb fc
  | .cvtgdUc fa fb fc => encFp 0x15#6 0x12D#11 fa fb fc
  | .cvtgdS fa fb fc => encFp 0x15#6 0x4AD#11 fa fb fc
  | .cvtgdSc fa fb fc => encFp 0x15#6 0x42D#11 fa fb fc
  | .cvtgdSu fa fb fc => encFp 0x15#6 0x5AD#11 fa fb fc
  | .cvtgdSuc fa fb fc => encFp 0x15#6 0x52D#11 fa fb fc
  | .cvtqf fa fb fc => encFp 0x15#6 0x0BC#11 fa fb fc
  | .cvtqfC fa fb fc => encFp 0x15#6 0x03C#11 fa fb fc
  | .cvtqg fa fb fc => encFp 0x15#6 0x0BE#11 fa fb fc
  | .cvtqgC fa fb fc => encFp 0x15#6 0x03E#11 fa fb fc
  | .cvtdg fa fb fc => encFp 0x15#6 0x09E#11 fa fb fc
  | .cvtdgC fa fb fc => encFp 0x15#6 0x01E#11 fa fb fc
  | .cvtdgU fa fb fc => encFp 0x15#6 0x19E#11 fa fb fc
  | .cvtdgUc fa fb fc => encFp 0x15#6 0x11E#11 fa fb fc
  | .cvtdgS fa fb fc => encFp 0x15#6 0x49E#11 fa fb fc
  | .cvtdgSc fa fb fc => encFp 0x15#6 0x41E#11 fa fb fc
  | .cvtdgSu fa fb fc => encFp 0x15#6 0x59E#11 fa fb fc
  | .cvtdgSuc fa fb fc => encFp 0x15#6 0x51E#11 fa fb fc
  | .cvtgq fa fb fc => encFp 0x15#6 0x0AF#11 fa fb fc
  | .cvtgqC fa fb fc => encFp 0x15#6 0x02F#11 fa fb fc
  | .cvtgqV fa fb fc => encFp 0x15#6 0x1AF#11 fa fb fc
  | .cvtgqVc fa fb fc => encFp 0x15#6 0x12F#11 fa fb fc
  | .cvtgqS fa fb fc => encFp 0x15#6 0x4AF#11 fa fb fc
  | .cvtgqSc fa fb fc => encFp 0x15#6 0x42F#11 fa fb fc
  | .cvtgqSv fa fb fc => encFp 0x15#6 0x5AF#11 fa fb fc
  | .cvtgqSvc fa fb fc => encFp 0x15#6 0x52F#11 fa fb fc

/-! ## Words in memory, and the opcode table's numbering -/

/-- The four bytes of an instruction word as memory holds them, lowest address first (R480). -/
def wordBytes (w : Longword) : List Byte :=
  [w.extractLsb' 0 8, w.extractLsb' 8 8, w.extractLsb' 16 8, w.extractLsb' 24 8]

/-- The instruction word of four bytes, the lowest-addressed byte least significant (R480). -/
def bytesWord (b0 b1 b2 b3 : Byte) : Longword := b3 ++ (b2 ++ (b1 ++ b0))

/-- The decoder on a list of bytes: the first instruction and the bytes after it. -/
noncomputable def decodeBytes : List Byte → Option (Except Reject Instr × List Byte)
  | b0 :: b1 :: b2 :: b3 :: rest => some (decode (bytesWord b0 b1 b2 b3), rest)
  | _ => none

/-- The instruction word whose low `nbits` bits are those of `w`, every bit above them zero: every instruction is one
32-bit word (R480), so a row has at most 32 bits. -/
def tableWord (nbits w : Nat) : Longword := BitVec.ofNat 32 (w % 2 ^ nbits)

/-- The instruction the decoder reads from the bits of an opcode-table row. -/
noncomputable def decodeTableWord (nbits w : Nat) : Option Instr :=
  match decodeBytes (wordBytes (tableWord nbits w)) with
  | some (.ok i, _) => some i
  | _ => none

end Sys2Proof
end

