-- ==== Sys2Proof/Machine/Srom.lean ====
section
/-! DEFINITION. The serial ROM image (R961 to R966, 70_reset_and_hazards.md): 512 vectors of 200 bits, one 16-byte Icache
subblock each, with the predecode bits and parities the load path expects. -/

namespace Sys2Proof.Machine

/-- The bits `f 0`, `f 1`, … as a bit vector, `f 0` least significant. -/
def gather (n : Nat) (f : Nat → Bool) : BitVec n :=
  BitVec.ofNat n ((List.range n).foldl (fun a j => if f j then a + 2 ^ j else a) 0)

/-! ## The predecode function (R966) -/

def opIn (op : BitVec 6) (ops : List Nat) : Bool := ops.contains op.toNat

/-- inst<12:5>, `func` of the Appendix C program. -/
def preFunc (w : Longword) : BitVec 8 := w.extractLsb' 5 8

def preE0Only (w : Longword) : Bool :=
  opIn (fOp w) [0x24, 0x25, 0x26, 0x27, 0x0F, 0x2A, 0x2B, 0x2C, 0x2D, 0x2E, 0x2F, 0x1F, 0x18, 0x12, 0x13,
    0x01, 0x02, 0x03, 0x04, 0x05, 0x06, 0x07, 0x0A, 0x0C, 0x0D, 0x0E, 0x14, 0x1C] ||
  (opIn (fOp w) [0x1D, 0x19] && !w.getLsbD 8)

def preE1Only (w : Longword) : Bool :=
  opIn (fOp w) [0x30, 0x34, 0x38, 0x39, 0x3A, 0x3B, 0x3C, 0x3D, 0x3E, 0x3F, 0x1A, 0x1E, 0x00] ||
  (opIn (fOp w) [0x1D, 0x19] && w.getLsbD 8)

def preEe (w : Longword) : Bool :=
  opIn (fOp w) [0x10, 0x11, 0x28, 0x29, 0x08, 0x09, 0x20, 0x21, 0x22, 0x23, 0x1B] || (fOp w == 0x0B#6 && fRa w != 31#5)

def preLnoop (w : Longword) : Bool := fOp w == 0x0B#6 && fRa w == 31#5

def preFadd (w : Longword) : Bool :=
  (fOp w == 0x17#6 && preFunc w != 0x20#8) || (opIn (fOp w) [0x15, 0x16] && preFunc w &&& 0xF#8 != 2#8) ||
  opIn (fOp w) [0x31, 0x32, 0x33, 0x35, 0x36, 0x37]

def preFmul (w : Longword) : Bool := opIn (fOp w) [0x15, 0x16] && preFunc w &&& 0xF#8 == 2#8

def preFe (w : Longword) : Bool := fOp w == 0x17#6 && preFunc w == 0x20#8

def preBrType (w : Longword) : Bool := fOp w &&& 0x30#6 == 0x30#6 || opIn (fOp w) [0x1A, 0x00, 0x1E]

def preLd (w : Longword) : Bool := opIn (fOp w) [0x28, 0x29, 0x0B, 0x20, 0x21, 0x22, 0x23, 0x1B]

def preStore (w : Longword) : Bool :=
  opIn (fOp w) [0x24, 0x25, 0x26, 0x27, 0x0F, 0x2C, 0x2D, 0x2E, 0x2F, 0x18, 0x1F, 0x2A, 0x2B]

/-- A jump of opcode 1A with these TYPE bits. -/
def preJump (w : Longword) (t : BitVec 2) : Bool := fOp w == 0x1A#6 && fTop2 w == t

def preRetRei (w : Longword) : Bool := preJump w 2#2 || (fOp w == 0x1E#6 && fTop2 w != 3#2)

def preCondBr (w : Longword) : Bool :=
  opIn (fOp w) [0x31, 0x32, 0x33, 0x35, 0x36, 0x37, 0x38, 0x39, 0x3A, 0x3B, 0x3C, 0x3D, 0x3E, 0x3F]

/-- The five predecode bits of an instruction, before bit 2 is inverted (R966). -/
def predecode (w : Longword) : BitVec 5 :=
  let e0 := preE0Only w
  let e1 := preE1Only w && !preBrType w
  let o0 := fOp w == 0x30#6 || fOp w == 0x34#6 || preJump w 0#2 || preJump w 1#2 || (preEe w && !preLd w) ||
    (e0 && !preStore w)
  let o1 := preRetRei w || e1 || preJump w 0#2 || preJump w 3#2 || preJump w 1#2 || preLnoop w ||
    (preFadd w && !preBrType w) || preFe w
  let o2 := fOp w == 0x00#6 || fOp w == 0x34#6 || preJump w 3#2 || e0 || preJump w 1#2 || preFmul w || preFe w
  let o3 := (preE1Only w && preCondBr w) || e1 || preFadd w || preFmul w || preFe w
  let o4 := preEe w || preLnoop w || e0 || preFadd w || preFmul w || preFe w
  gather 5 fun j => [o0, o1, o2, o3, o4].getD j false

/-! ## One vector (R963, R964) -/

/-- Instruction `k` of the subblock. -/
def sromInsn (v : BitVec 200) (k : Nat) : Longword := gather 32 fun j => v.getLsbD ([42, 43, 128, 129].getD k 0 + 2 * j)

/-- The five stored predecode bits of instruction `k`. -/
def sromPredecode (v : BitVec 200) (k : Nat) : BitVec 5 :=
  gather 5 fun j => v.getLsbD ([106, 107, 118, 119].getD k 0 + 2 * j)

def sromTag (v : BitVec 200) : BitVec 30 := gather 30 fun j => v.getLsbD (29 - j)

def sromAsn (v : BitVec 200) : BitVec 7 := gather 7 fun j => v.getLsbD (37 - j)

/-- Predecodes, predecode parity, octaword parity and tag parity are what the Appendix C program computes (R964). -/
def sromVectorOk (v : BitVec 200) : Bool :=
  (List.range 4).all (fun k => sromPredecode v k == predecode (sromInsn v k) ^^^ 4#5) &&
  v.getLsbD 116 == (List.range 4).foldl (fun p k => p != parityOf (sromPredecode v k)) false &&
  v.getLsbD 117 == (List.range 4).foldl (fun p k => p != parityOf (sromInsn v k)) false &&
  v.getLsbD 41 == ((parityOf (sromTag v) != v.getLsbD 38) != parityOf (sromAsn v))

/-- The Icache block of two vectors: the first holds the lower subblock, and the tag is that of the one written last (R961,
R965). -/
def sromLine (idx : Nat) (lo hi : BitVec 200) : IcLine where
  idx := idx
  tag := sromTag hi
  asn := sromAsn hi
  asm := hi.getLsbD 30
  phys := hi.getLsbD 38
  valid0 := hi.getLsbD 40
  valid1 := hi.getLsbD 39
  insns := #v[sromInsn lo 0, sromInsn lo 1, sromInsn lo 2, sromInsn lo 3,
    sromInsn hi 0, sromInsn hi 1, sromInsn hi 2, sromInsn hi 3]
  tagBad := false
  dataBad := false

/-- The Icache blocks of an image, from index `idx` up. -/
def sromLines (idx : Nat) : List (BitVec 200) → List IcLine
  | lo :: hi :: rest => sromLine idx lo hi :: sromLines (idx + 1) rest
  | _ => []

/-- An image has 512 vectors, all correct (R961, R965). -/
def sromOk (image : List (BitVec 200)) : Bool := image.length == 512 && image.all sromVectorOk

end Sys2Proof.Machine
end

