-- ==== Sys2Proof/Machine/Fetch.lean ====
section
/-! DEFINITION. Instruction fetch: address translation (R315, R316), the Icache and the refill buffer (R52, R53, R317, R329,
R370 to R372), and where a word must stand to be fetched next. -/

namespace Sys2Proof.Machine

/-! ## Address translation (R315) -/

/-- What the address of an instruction leads to: a physical address, the ITB entry that gave it, and the ASM bit its Icache
block gets; or an Istream exception. -/
inductive FetchAddr where
  | ok (pa : PAddr) (hit : Option (Fin 48)) (asm : Bool)
  /-- IACCVIO; `sign` if it is the sign check that failed. -/
  | iaccvio (sign : Bool)
  | itbMiss
  /-- Matching ITB entries that differ (R314). -/
  | multiple
  deriving DecidableEq, Repr

/-- VA<42:41> = 2 with ICSR<SPE<1>> (R315). -/
def State.ispHigh (s : State) : Bool := s.icsrBit 29 && field s.pc 41 2 == 2#2

/-- VA<42:30> = 1FFE hex with ICSR<SPE<0>> (R315). -/
def State.ispLow (s : State) : Bool := s.icsrBit 28 && field s.pc 30 13 == 0x1FFE#13

/-- Translation while it is UNPREDICTABLE (R683): any address, or any Istream exception. -/
def State.lostAddress (s : State) : FetchAddr :=
  let w := s.freeNow
  if w.getLsbD 40 then .itbMiss else if w.getLsbD 41 then .iaccvio (w.getLsbD 42) else .ok (w.setWidth 40) none (w.getLsbD 43)

/-- Translate the PC (R315). A superpage block is filled with ASM set (notes/assumptions/11.md). -/
def State.fetchAddress (s : State) : FetchAddr :=
  if s.palmode then .ok (s.pc.setWidth 40) none false
  else if s.istreamLost then s.lostAddress
  else if !signOk s.pc then .iaccvio true
  else if s.ispHigh then if s.kernel then .ok (s.pc.setWidth 40) none true else .iaccvio false
  else if s.ispLow then if s.kernel then .ok ((s.pc.setWidth 30).setWidth 40) none true else .iaccvio false
  else
    match s.itb.lookup (vpnOf s.pc) s.ibox.itbAsn with
    | .miss => .itbMiss
    | .clash => .multiple
    | .hit k =>
      if s.itb.entries[k].re.getLsbD s.ibox.icm.toNat then
        .ok (hitAddress s.itb.entries[k].pfn s.itb.entries[k].gh s.pc) (some k) s.itb.entries[k].asm
      else .iaccvio false

/-- An Istream exception: ITB_TAG always takes the tag of the PC, IFAULT_VA_FORM unless the sign check failed (R316).
IFAULT_VA_FORM is formatted here, at the fault: a later write of IVPTBR or of ICSR<SPE<0>> does not change what it reads (DESIGN
CHOICE: R316 loads it at the fault, the IVPTBR hazard and R208 suggest the read; notes/assumptions/11.md). -/
def State.istreamTrap (s : State) (e : Entry) (sign : Bool) : State :=
  State.precise { s with ibox := { s.ibox with
    itbTag := vpnOf s.pc
    ifaultVaForm := if sign then s.ibox.ifaultVaForm else vaFormat s.iboxNt s.ibox.ivptbr s.pc } } e

/-- The ITB pointer after a fetch that used entry `hit` (D5, notes/assumptions/10.md). -/
def State.touchItb (s : State) : Option (Fin 48) → State
  | none => s
  | some k => { s with itb := { s.itb with next := Config.itbPointerAfterHit s.itb.next k } }

/-! ## The Icache (R52, R317) -/

/-- The entry at an index, if it has ever been filled. -/
def icFind (i : Nat) : List IcLine → Option IcLine
  | [] => none
  | l :: ls => if l.idx = i then some l else icFind i ls

/-- Put a block at its index. -/
def icPut (n : IcLine) : List IcLine → List IcLine
  | [] => [n]
  | l :: ls => if l.idx = n.idx then n :: ls else l :: icPut n ls

/-- The address the Icache is looked up with: physical in PALmode, virtual otherwise (R317). -/
def State.icAddress (s : State) (pa : PAddr) : Word := if s.palmode then pa.setWidth 64 else s.pc

/-- The subblock of an address is valid. -/
def IcLine.subValid (l : IcLine) (a : Word) : Bool := if a.getLsbD 4 then l.valid1 else l.valid0

/-- An Icache hit (R317). -/
def IcLine.hits (l : IcLine) (a : Word) (palmode : Bool) (asn : BitVec 7) : Bool :=
  l.subValid a && l.tag == field a 13 30 && l.phys == palmode && (palmode || l.asm || l.asn == asn)

/-- The instruction of a block that an address picks. -/
def insnOf (insns : Vector Longword 8) (a : Word) : Longword := insns[(a.extractLsb' 2 3).toFin]

/-- What an Icache reference finds (R317, R902). -/
inductive IcHit where
  | miss
  | insn (w : Longword)
  /-- Bad parity: the bits of ICPERR_STAT it sets, DPE in bit 0 and TPE in bit 1. -/
  | parity (bits : BitVec 3)
  deriving DecidableEq, Repr

/-- The Icache reference; ICSR<FMS> forces a miss (R166). -/
def State.icLookup (s : State) (a : Word) : IcHit :=
  if s.icsrBit 34 then .miss
  else
    match icFind (field a 5 8).toNat s.icache.lines with
    | none => .miss
    | some l =>
      if l.subValid a && l.tagBad then .parity 2#3
      else if l.hits a s.palmode s.ibox.itbAsn then (if l.dataBad then .parity 1#3 else .insn (insnOf l.insns a))
      else .miss

/-! ## Fills (R329, R370, R372) -/

/-- What becomes of the block for an Icache fill: its instructions, whether its read met an error of its own, and the state; or it
must wait; or nothing answers. -/
inductive Source where
  | block (insns : Vector Longword 8) (bad : Bool) (s : State)
  | waits (s : State)
  | nothing

/-- Read the block of an address for the Istream, from the caches and memory or from a device; the register region answers
nothing (R329). The write buffer is not looked at: the Istream is not kept coherent with it (R371). While idle_bc_h is asserted a
read that the Scache cannot serve waits (R467). -/
def State.readBlock (s : State) (pa : PAddr) : Source :=
  match regionOf pa with
  | .memory =>
    if s.biuHeld && (s.scLine (granule pa)).isNone then .waits s
    else
      let p := s.cachedRead .fetch none pa
      .block (insnsOf (p.after.below (granule pa))) p.bad p.after
  | .noncached =>
    if s.biuHeld then .waits s
    else
      let p := s.deviceRead true none pa 0#4
      .block (insnsOf p.1) p.2.bad p.2.after
  | .cbox => .nothing

/-- The entry of the refill buffer for a block. -/
def refillFind (b : Block) : List RefillLine → Option RefillLine
  | [] => none
  | l :: ls => if l.block = b then some l else refillFind b ls

/-- The block from the refill buffer, which gives it up (R370, R372). -/
def State.refillTake (s : State) (b : Block) : Option (Vector Longword 8 × State) :=
  (refillFind b s.icache.refill).map fun l =>
    (l.insns, { s with icache := { s.icache with refill := s.icache.refill.filter (·.block != b) } })

/-- The block for an Icache fill: from the refill buffer, from an outstanding prefetch, or read. -/
def State.fillSource (s : State) (pa : PAddr) : Source :=
  match s.refillTake (granule pa) with
  | some p => .block p.1 false p.2
  | none =>
    match (s.readyMiss pa).refillTake (granule pa) with
    | some p => .block p.1 false p.2
    | none => (s.readyMiss pa).readBlock pa

/-- The block as the Icache takes it; ICSR<FBT> and <FBF> force bad parity (R166). -/
def State.icLineFor (s : State) (a : Word) (asm : Bool) (insns : Vector Longword 8) : IcLine where
  idx := (field a 5 8).toNat
  tag := field a 13 30
  asn := s.ibox.itbAsn
  asm := asm
  phys := s.palmode
  valid0 := true
  valid1 := true
  insns := insns
  tagBad := s.icsrBit 35
  dataBad := s.icsrBit 36

/-- Put a filled block into the Icache. What stands in the refill buffer ages: four fills, of eight instructions each, leave
nothing of it (R53: "32 instructions"). -/
def State.icFill (s : State) (l : IcLine) : State :=
  { s with icache := { s.icache with
    lines := icPut l s.icache.lines
    refill := (s.icache.refill.map fun r => { r with age := r.age + 1 }).filter fun r => decide (r.age < 4) } }

/-- One more instruction has run since IC_FLUSH_CTL: after 44 the refill buffer holds nothing older than the flush
(R111, R371). -/
def State.drainRefill (s : State) : State :=
  match s.icache.drain with
  | 0 => s
  | n + 1 => { s with icache := { s.icache with
      refill := if n = 0 then s.icache.refill.filter fun r => !r.old else s.icache.refill
      drain := n } }

/-! ## The fetch -/

/-- What a fetch gives: an instruction and the state it runs in, a trap already taken or a machine check still to be taken, nothing
yet, or a stop. -/
inductive Fetched where
  | insn (w : Longword) (s : State)
  | trap (s : State)
  | waits (s : State)
  | fault (f : Fault)
  | refused (r : Refusal)

/-- Set bits of ICPERR_STAT<13:11> (R110). -/
def State.recordIcError (s : State) (bits : BitVec 3) : State :=
  { s with ibox := { s.ibox with icperrStat := s.ibox.icperrStat ||| bits } }

/-- The Icache reference at a physical address, and the fill on a miss. A fill that meets an error ends in MCHK before the
instruction, and the Icache may have taken the bad data (R903, R904, R909 to R911). -/
def State.fetchAt (s : State) (pa : PAddr) (asm : Bool) : Fetched :=
  match s.icLookup (s.icAddress pa) with
  | .insn w => .insn w s
  | .parity bits => .trap { s.recordIcError bits with mchkPending := true }
  | .miss =>
    match s.fillSource pa with
    | .block insns bad t =>
      let line := s.icLineFor (s.icAddress pa) asm insns
      if t.mchkPending then .trap (t.ifTaken bad fun u => u.icFill line)
      else .insn (insnOf insns (s.icAddress pa)) (t.icFill line)
    | .waits t => .waits t
    | .nothing => .fault .fetchFromRegisterRegion

/-- Fetch the instruction at the PC (R315). -/
def State.fetch (s : State) : Fetched :=
  let t := if s.istreamLost && !s.palmode then s.drawn else s
  match s.fetchAddress with
  | .iaccvio sign => .trap (t.istreamTrap .iaccvio sign)
  | .itbMiss => .trap (t.istreamTrap .itbMiss false)
  | .multiple => .refused .tbMultipleMatch
  | .ok pa hit asm => (t.touchItb hit).fetchAt pa asm

/-! ## Placing a word where it is fetched next -/

/-- Where the next instruction stands. -/
def State.fetchPa (s : State) : PAddr :=
  match s.fetchAddress with
  | .ok pa _ _ => pa &&& ~~~3#40
  | _ => s.pc.setWidth 40 &&& ~~~3#40

/-- The state with a word where the fetch finds it: in main memory, if it is an address of the memory-like region, and with its
block in the refill buffer; nothing older in the Icache or the inputs (notes/assumptions/22.md). -/
def State.placeWord (s : State) (w : Longword) : State :=
  let pa := s.fetchPa
  let memory := regionOf pa == .memory
  let mem := if memory then s.mem.writeBytes pa.toNat (w.setWidth 64) 4 else s.mem
  let h := if memory then mem.readBlock (granule pa) else blockData false pa (w.setWidth 64)
  { s with mem := mem, icache := ⟨[], [⟨granule pa, insnsOf h, 0, false⟩], 0⟩, inputs := [] }

end Sys2Proof.Machine
end

