-- ==== Sys2Proof/Machine/Environment.lean ====
section
/-! DEFINITION. What the environment does to the processor between two instructions: pins, system commands, other agents'
writes, the answers and fills of the system, the passing of time, upsets of the arrays and other errors (R901 to R918), partial
reset (R975, R976) and chip reset (R950 to R973). Each event of State's `inputs` is one step (notes/assumptions/18.md, 19.md). -/

namespace Sys2Proof.Machine

/-! ## Pins -/

/-- The input pins take new levels; a transition of srom_data_h with ICSR<SLE> set requests the serial-line interrupt
(R126). -/
def State.setPins (s : State) (irq : BitVec 4) (mchHlt pwrFail sysMchChk sromData perfMon systemLockFlag : Bool) : State :=
  { s with
    pins := { s.pins with
      irq := irq, mchHlt := mchHlt, pwrFail := pwrFail, sysMchChk := sysMchChk, sromData := sromData
      perfMon := perfMon, systemLockFlag := systemLockFlag }
    ibox := { s.ibox with sliReq := s.ibox.sliReq || (s.icsrBit 33 && s.pins.sromData != sromData) } }

/-! ## System commands and other agents (R351, R355) -/

/-- What waits enters the command buffer, which holds two (R401, R441). -/
def State.queueCommand (s : State) (w : Waiting) : Res State :=
  if 2 ≤ s.cmds.length then .refused .commandOverflow else .next { s with cmds := s.cmds ++ [w] }

/-- A system cycle with bad parity (R456, R475, R912): a command is answered NOACK in its turn, whatever it is; a hard error is recorded
with FIL_IRD clear (DESIGN CHOICE: it is no fill, and R246 gives no value; notes/assumptions/18.md). -/
def State.badCycle (s : State) (cmd : BitVec 4) (pa : PAddr) : Res State :=
  let t := s.hardError eiAddressParity true false pa 0#16
  if cmd = 0#4 then .next { t with nopParity := s.pins.sysclkRatio == 3#4 } else t.queueCommand .bad

/-- A command of the system. Right after a bad NOP at ratio 3 it may go unanswered (R912). -/
def State.acceptCommand (s : State) (c : SysCommand) (pa : PAddr) : Res State :=
  if regionOf pa = .cbox then .refused .commandAtRegisterRegion
  else if s.nopParity then
    let t : State := { s.drawn with nopParity := false }
    if s.freeNow.getLsbD 0 then .next t else t.queueCommand (.command c pa)
  else s.queueCommand (.command c pa)

/-- A cycle the system drives (R440, R456, R475): NOP does nothing. -/
def State.systemCycle (s : State) (cmd : BitVec 4) (pa : PAddr) (par : Bool) : Res State :=
  if par != addrCmdParity cmd pa && !s.hardErrorHidden eiAddressParity then s.badCycle cmd pa
  else if cmd = 0#4 then .next { s with nopParity := false }
  else
    match sysCommandOf cmd with
    | none => .refused .undefinedSystemCommand
    | some c => s.acceptCommand c pa

/-- Another agent writes bytes of main memory; that the caches give up the blocks first is for the system to ask by its commands
(R355). -/
def State.agentWrite (s : State) (pa : PAddr) : List Byte → State
  | [] => s
  | b :: rest =>
    State.agentWrite (if regionOf pa = .memory then { s with mem := s.mem.write pa.toNat b } else s) (pa + 1#40) rest

/-- The Ibox asks for a block ahead of the PC: the miss address file holds four such requests (R56, R372). -/
def State.askPrefetch (s : State) (pa : PAddr) : State :=
  if s.imaf.length < 4 then { s with imaf := s.imaf ++ [pa] } else s

/-! ## Upsets of the arrays (R901) -/

/-- Bits of the Dcache change. -/
def State.dcUpset (s : State) (bank1 : Bool) (idx : BitVec 8) (tagPar : Bool) (longs : BitVec 8) : State :=
  let change (b : List DcLine) : List DcLine :=
    let l := dcGet idx.toNat b
    dcPut { l with parity := l.parity != tagPar, badData := l.badData ^^^ longs } b
  { s with dcache :=
    ⟨if bank1 then s.dcache.bank0 else change s.dcache.bank0, if bank1 then change s.dcache.bank1 else s.dcache.bank1⟩ }

/-- Bits of the Scache change where it holds a block. -/
def State.scUpset (s : State) (b : Block) (tagPar : Bool) (longs : BitVec 8) : State :=
  { s with scache := s.scache.map fun l =>
    if l.holds b then { l.setSub b { l.sub b with bad := (l.sub b).bad ^^^ longs } with parity := l.parity != tagPar } else l }

/-- Bits of the Bcache change where a block stands. -/
def State.bcUpset (s : State) (b : Block) (tagPar ctlPar : Bool) (data : Hexword) (check : BitVec 32) : State :=
  let t := s.bcTagAt b
  let d := s.bcDataAt b
  (s.bcStoreTag { t with tagPar := t.tagPar != tagPar, ctlPar := t.ctlPar != ctlPar }).bcStoreData
    { d with data := d.data ^^^ data, check := d.check ^^^ check }

/-! ## Time (R61, R342, R975) -/

/-- A write-buffer counter expires: the oldest entry is sent, if it can be. MAF_MODE<WB_CNT_DISABLE> disables the 64-cycle timer, not
the 256-cycle count (R226, R342). -/
def State.writeTick (s : State) (long : Bool) : State := if s.mbox.mafMode.getLsbD 4 && !long then s else s.drainOne

/-- The partial reset of the timeout and of cfail_h without cack_h (R917, R918, R975, R976): ICPERR_STAT<TMR> set, MAF_MODE<05>
clear, everything outstanding abandoned, whose registers hold any value, any of the stores that wait lost and that of an STx_C in any
case, the pulse on test_status_h<1>, and MCHK. A WMB flag for the next entry stays (DESIGN CHOICE: R975 does not say; all of it
notes/assumptions/27.md). -/
def State.partialReset (s : State) : State :=
  let s1 := (s.awaited.foldl (fun t x => t.deliverAny x true) (s.recordIcError 4#3)).drawn
  State.mchkHere { s1 with
    mbox := { s1.mbox with mafMode := s1.mbox.mafMode &&& 31#6 }
    icache := { s1.icache with refill := [] }
    wb := (s.wb.zipIdx.filter fun p => !p.1.isCond && Config.survives s.freeCount p.2).map (·.1)
    maf := []
    imaf := []
    mbWaits := false
    miss0 := none
    miss1 := none
    cmds := []
    nopParity := false
    mchkPending := false
    stalled := 0
    pulse := 256 }

/-- The limit of the Ibox timeout counter: ICSR<TMM> (R166, R975). -/
def State.timeoutLimit (s : State) : Nat := if s.icsrBit 24 then Config.timeoutShort else Config.timeoutLong

/-- CPU cycles pass in which no instruction completes: at the limit a timeout reset, unless ICSR<TMD> is set (R61, R975). -/
def State.pass (s : State) (cycles : Nat) : State :=
  let t := State.drawn { State.elapse s s cycles 0 with stalled := s.stalled + cycles }
  if decide (s.timeoutLimit ≤ t.stalled) && !s.icsrBit 25 then t.partialReset else t

/-! ## Chip reset (R970 to R973) -/

/-- The k-th free value counted from draw `n`. -/
def freeAt (n k : Nat) : Word := Config.freeWord (n + k)

def ItbEntry.free (n k : Nat) : ItbEntry :=
  let w := freeAt n (2 * k)
  let x := freeAt n (2 * k + 1)
  ⟨x.getLsbD 0, field w 0 30, field w 30 7, x.getLsbD 1, field x 2 2, field x 4 4, field x 8 27⟩

/-- An entry with its valid bit clear and any other contents (R972: "Valid bits are cleared on chip reset"). -/
def DtbEntry.free (n k : Nat) : DtbEntry :=
  let w := freeAt n (2 * k)
  let x := freeAt n (2 * k + 1)
  ⟨false, field w 0 30, field w 30 7, x.getLsbD 1, field x 2 2, x.getLsbD 35, x.getLsbD 36, field x 4 4, field x 37 4,
    field x 8 27⟩

/-- A Dcache bank is not initialized by reset (R970). -/
def freeBank (n : Nat) : List DcLine :=
  (List.range 256).map fun i =>
    let w := freeAt n (5 * i)
    let d (k : Nat) : Word := freeAt n (5 * i + k)
    ⟨i, field w 0 26, w.getLsbD 26, w.getLsbD 27, w.getLsbD 28, field w 29 8, d 4 ++ (d 3 ++ (d 2 ++ d 1))⟩

/-- R972, Ibox part: the stated values, and any value where Table 7-2 says UNDEFINED. What ICPERR_STAT, EXC_SUM and EXC_MASK have
gathered is not released (R63). -/
def Ibox.afterReset (i : Ibox) (n : Nat) (bistPassed : Bool) : Ibox where
  itbTag := field (freeAt n 0) 0 30
  itbPteTemp := freeAt n 1
  itbAsn := field (freeAt n 0) 30 7
  ifaultVaForm := freeAt n 2
  ivptbr := field (freeAt n 3) 0 34
  icperrStat := i.icperrStat ||| field (freeAt n 0) 37 3
  excAddr := freeAt n 4 &&& ~~~2#64
  excSum := i.excSum ||| field (freeAt n 0) 40 7
  swcBlocked := i.swcBlocked || (freeAt n 0).getLsbD 47
  excMask := i.excMask ||| freeAt n 5
  palBase := 0#50
  icm := field (freeAt n 0) 48 2
  icsr := if bistPassed then 0x6000000000#64 else 0x2000000000#64
  iplr := field (freeAt n 0) 50 5
  astrr := field (freeAt n 0) 55 4
  aster := field (freeAt n 0) 59 4
  sirr := field (freeAt n 3) 34 15
  pcReq := field (freeAt n 3) 49 3
  crdReq := (freeAt n 3).getLsbD 52
  sliReq := (freeAt n 3).getLsbD 53
  slXmit := false
  pmctr := freeAt n 6 &&& ~~~0xFC00#64

/-- R972, Mbox part. A lock on error registers that is held is not released (R63): what it holds stays. -/
def Mbox.afterReset (m : Mbox) (n : Nat) : Mbox where
  dtbAsn := field (freeAt n 0) 0 7
  dtbCm := field (freeAt n 0) 7 2
  dtbPteHold := freeAt n 1
  dtbPteTemp := freeAt n 2
  mmStat := if m.mmLock then m.mmStat else field (freeAt n 0) 9 17
  va := if m.mmLock then m.va else freeAt n 3
  mmLock := m.mmLock || (freeAt n 0).getLsbD 26
  mvptbr := field (freeAt n 4) 0 34
  altMode := field (freeAt n 0) 27 2
  ccHi := field (freeAt n 5) 0 32
  ccLo := field (freeAt n 5) 32 32
  ccEna := false
  mcsr := 0#6
  dcMode := 0#4
  mafMode := 0#6
  dcPerrStat := if m.dcPerrStat.getLsbD 1 then m.dcPerrStat else field (freeAt n 0) 29 6
  dcTestCtl := field (freeAt n 0) 35 13
  dcTestTagTemp := freeAt n 6

/-- R972, Cbox part: SC_CTL is F000, BC_CONFIG 17441, and BC_CONTROL has <6:4> and <15> set, <1:0>, <7>, <14:13>, <16> and
<27:19> clear. A lock that is held is not released, and what it holds stays (R63). -/
def Cbox.afterReset (c : Cbox) (n : Nat) : Cbox where
  scCtl := 0xF000#16
  scStat := if c.scLock then c.scStat else field (freeAt n 0) 0 17
  scLock := c.scLock || (freeAt n 0).getLsbD 17
  scAddr := if c.scLock then c.scAddr else freeAt n 1
  bcControl := 0x8070#29 ||| (field (freeAt n 0) 18 29 &&& 0x10061F0C#29)
  bcConfig := 0x17441#29
  bcTagAddr := if c.bcTagLock then c.bcTagAddr else freeAt n 2
  bcTagLock := c.bcTagLock || (freeAt n 0).getLsbD 47
  eiStat := if c.eiLock then c.eiStat else field (freeAt n 0) 48 8
  eiLock := c.eiLock || (freeAt n 0).getLsbD 56
  eiAddr := if c.eiLock then c.eiAddr else field (freeAt n 3) 0 36
  fillSyn := if c.eiLock then c.fillSyn else field (freeAt n 3) 36 16

/-- How many free values a chip reset draws. -/
def resetDraws : Nat := 4096

/-- The state when chip reset ends (R956, R970 to R973). Main memory and the Bcache RAMs keep their contents, the Scache is
flushed, the buffers are empty; everything the spec leaves UNDEFINED holds any value (D1). -/
def State.afterReset (s : State) (ratio : BitVec 4) (delay : BitVec 3) (bistPassed : Bool)
    (lines : List IcLine) : State :=
  let n := s.freeCount + 1
  { ints := Vector.ofFn fun k : Fin 31 => freeAt n k.val
    shadow := Vector.ofFn fun k : Fin 8 => freeAt n (31 + k.val)
    fregs := Vector.ofFn fun k : Fin 31 => freeAt n (39 + k.val)
    palTemps := Vector.ofFn fun k : Fin 24 => freeAt n (70 + k.val)
    pc := 0#64
    palmode := true
    fpcr := field (freeAt n 94) 0 11
    lockFlag := (freeAt n 94).getLsbD 11
    lockAddr := field (freeAt n 94) 12 40
    intrFlag := (freeAt n 94).getLsbD 52
    ibox := s.ibox.afterReset (n + 100) bistPassed
    mbox := s.mbox.afterReset (n + 110)
    cbox := s.cbox.afterReset (n + 120)
    itb := ⟨Vector.ofFn fun k : Fin 48 => ItbEntry.free (n + 130) k.val, Fin.ofNat 48 (freeAt n 95).toNat⟩
    dtb := ⟨Vector.ofFn fun k : Fin 64 => DtbEntry.free (n + 230) k.val, 0⟩
    icache := ⟨lines, [], 0⟩
    dcache := ⟨freeBank (n + 360), freeBank (n + 1640)⟩
    wb := []
    wbFence := false
    maf := []
    imaf := []
    mbWaits := false
    scache := s.scache.map ScLine.flushed
    victims := []
    bcTags := s.bcTags
    bcDatas := s.bcDatas
    miss0 := none
    miss1 := none
    cmds := []
    nopParity := false
    mchkPending := false
    afterMb := false
    owed := .nothing
    itbPending := false
    istreamLost := false
    stalled := 0
    pulse := 0
    mem := s.mem
    pins := { s.pins with sysclkRatio := ratio, sysclk2Delay := delay }
    inputs := s.inputs
    answers := s.answers
    busOut := s.busOut
    freeCount := n + resetDraws
    tally := []
    ended := .retired }

/-- Chip reset, with the clock parameters of R409 and R410 and, if there is a serial ROM, its image (R961 to R965;
notes/assumptions/28.md). -/
def State.chipReset (s : State) (ratio : BitVec 4) (delay : BitVec 3) (bistPassed : Bool)
    (srom : Option (List (BitVec 200))) : Res State :=
  if ratio.toNat < 3 ∨ ratio.toNat < delay.toNat then .refused .sysclkRatio
  else
    match srom with
    | none => .next (s.afterReset ratio delay bistPassed [])
    | some image =>
      if sromOk image then .next (s.afterReset ratio delay bistPassed (sromLines 0 image)) else .refused .sromImage

/-! ## Any event -/

/-- The effect of one environment event. -/
def State.event (s : State) : EnvEvent → Res State
  | .quiet => .next s
  | .pins irq mchHlt pwrFail sysMchChk sromData perfMon systemLockFlag =>
    .next (s.setPins irq mchHlt pwrFail sysMchChk sromData perfMon systemLockFlag)
  | .idleBc level => .next { s with pins := { s.pins with idleBc := level } }
  | .command cmd pa par => s.systemCycle cmd pa par
  | .memWrite pa bytes => .next (s.agentWrite pa bytes)
  | .answer a => .next { s with answers := s.answers ++ [a] }
  | .prefetch pa => .next (s.askPrefetch pa)
  | .fill register a => .next (s.takeMiss register a)
  | .writeTimer long => .next (s.writeTick long)
  | .wait cycles => .next (s.pass cycles)
  | .fillError => .next { s with mchkPending := true }
  | .cfail => .next s.partialReset
  | .icacheParity tagError dataError =>
    .next { s.recordIcError ((if dataError then 1#3 else 0#3) ||| (if tagError then 2#3 else 0#3)) with mchkPending := true }
  | .dcacheUpset bank1 idx tagPar longs => .next (s.dcUpset bank1 idx tagPar longs)
  | .scacheUpset pa tagPar longs => .next (s.scUpset (granule pa) tagPar longs)
  | .bcacheUpset pa tagPar ctlPar data check => .next (s.bcUpset (granule pa) tagPar ctlPar data check)
  | .chipReset ratio delay bistPassed srom => s.chipReset ratio delay bistPassed srom

end Sys2Proof.Machine
end

