-- ==== Sys2Proof/Machine/Settle.lean ====
section
/-! DEFINITION. What the Mbox and the Cbox do with what an instruction or an event has left in their buffers, before the next one:
system commands (R441), load misses, the write buffer (R342), MB (R352), prefetches (R372), and the machine check that waits
for the end of the instruction (R704, R718); and which instructions wait for them (R1037, R1038; notes/assumptions/16.md). -/

namespace Sys2Proof.Machine

/-! ## Load misses (R56, R325, R434) -/

/-- Every load that waits gets its data, unless its request is held back. -/
def State.awaitLoads (s : State) : State :=
  match s.maf with
  | [] => s.awaitLoadFills
  | _ :: _ => s.serveMisses.awaitLoadFills

/-- The entries may wait for further loads to merge: loads of the noncached region, none an LDx_L, with room left (R325,
R1040). -/
def State.mayMerge (s : State) : Bool :=
  s.ioMerges && !s.mbWaits && !s.mchkPending && decide (s.maf.length < 6) &&
    s.maf.all fun e => !e.locked && e.loads.all fun l => l.pa.getLsbD 39

/-- The load misses are served; how long those that may merge wait is free (R434). An MB awaits all of them (R352). -/
def State.settleLoads (s : State) : State :=
  match s.maf with
  | [] => if s.mbWaits then s.awaitLoadFills else s
  | _ :: _ =>
    if s.mayMerge then (if s.freeNow.getLsbD 0 then s.drawn else s.drawn.serveMisses)
    else if s.mbWaits then s.awaitLoads
    else s.serveMisses

/-! ## The write buffer (R342) -/

/-- Entries have to go before anything else can: an MB or an STx_C waits for them. -/
def State.wbMust (s : State) : Bool := s.mbWaits || s.wb.any WbEntry.isCond

/-- How many entries are sent now: all of them for an MB, an STx_C, FETCH, FETCH_M, an entry with the WMB flag, or
WB_FLUSH_ALWAYS; else all but one. -/
def State.wbDue (s : State) : Nat :=
  if s.wbMust || s.mbox.mafMode.getLsbD 1 || s.wb.any fun e => e.wmb || !e.stores then s.wb.length else s.wb.length - 1

/-- Nothing of this processor's loads and stores waits any more: R352 (b). -/
def State.mbReady (s : State) : Bool := s.drained && s.wb.isEmpty && !s.storeMiss false && !s.storeMiss true

/-- MB is done when the buffers are empty, the victim buffer among them; it is driven if BC_CONTROL<EI_CMD_GRP3> is set
(R352). It does not wait for the prefetches of the Istream (DESIGN CHOICE: R352 says the MAF emptied, R56 counts the Istream entries
in it, R372 and R354 order no prefetch; notes/assumptions/16.md). -/
def State.finishMb (s : State) : State :=
  if s.mbWaits && s.mbReady then
    if s.victims.isEmpty && !s.eiCmdGrp3 then { s with mbWaits := false }
    else if s.biuHeld then s
    else
      let t : State := { s.awaitFills.writeVictims with mbWaits := false }
      if t.eiCmdGrp3 then t.drive .memoryBarrier else t
  else s

/-! ## Commands, prefetches, machine checks -/

/-- The system commands are served, in their order, when the Bcache is free (R401, R441). -/
def State.serveCommands (s : State) : State :=
  if s.bcEnabled && s.biuHeld then s
  else
    match s.cmds with
    | [] => s
    | l => l.foldl State.serveWaiting { s with cmds := [] }

/-- The prefetches that can be sent are (R372). -/
def State.settlePrefetches (s : State) : State :=
  match s.imaf with
  | [] => s
  | l => s.sendPrefetches l

/-- MCHK, if an error asks for it, once what is on its way has arrived: EXC_ADDR is the address of the next instruction (R704, R705,
R718). -/
def State.takeMchk (s : State) : State :=
  if s.mchkPending then
    if s.awaitLoads.drained then State.mchkHere { s.awaitLoads with mchkPending := false } else s.awaitLoads
  else s

/-- What happens between two steps. -/
def State.settle (s : State) : State :=
  let s1 := s.serveCommands.settleLoads
  ((s1.drainWb s1.wbMust s1.wbDue).finishMb.settlePrefetches).takeMchk

/-! ## Which instructions wait -/

/-- A load instruction with a floating-point register. -/
def isFpLoad (w : Longword) : Bool := fOp w &&& 0x3C#6 == 0x20#6

/-- A word is a load, which could merge with those that wait. -/
def isLoad (w : Longword) : Bool := isFpLoad w || fOp w == 0x28#6 || fOp w == 0x29#6

/-- A word is an operate, with a third register field. -/
def isOperate (w : Longword) : Bool := decide (0x10 ≤ (fOp w).toNat) && decide ((fOp w).toNat ≤ 0x17)

/-- A word is an instruction that waits for no load but one of a register that it names: LDA, LDAH, the operates, the branches and
jumps, HW_MFPR, and a further load. -/
def isFree (w : Longword) : Bool :=
  isLoad w || fOp w == 0x08#6 || fOp w == 0x09#6 || isOperate w || fOp w == 0x19#6 || fOp w == 0x1A#6 ||
    decide (0x30 ≤ (fOp w).toNat)

/-- A word stores, or takes a write-buffer entry all the same: the stores, HW_ST, FETCH and FETCH_M (R1044). -/
def isStore (w : Longword) : Bool :=
  fOp w == 0x0F#6 || fOp w &&& 0x3C#6 == 0x24#6 || fOp w &&& 0x3C#6 == 0x2C#6 || fOp w == 0x1F#6 ||
    (fOp w == 0x18#6 && w.extractLsb' 0 16 &&& 0xDFFF#16 == 0x8000#16)

/-- A word loads: the loads, LDQ_U, LDx_L, HW_LD. -/
def isAnyLoad (w : Longword) : Bool :=
  isLoad w || fOp w == 0x0B#6 || fOp w == 0x2A#6 || fOp w == 0x2B#6 || fOp w == 0x1B#6

/-- A word is MB or WMB. -/
def isBarrier (w : Longword) : Bool := fOp w == 0x18#6 && w.extractLsb' 0 16 &&& 0xFBFF#16 == 0x4000#16

/-- A word reads or writes a register of the Mbox by HW_MFPR or HW_MTPR. -/
def isMxpr (w : Longword) : Bool := (fOp w == 0x19#6 || fOp w == 0x1D#6) && w.getLsbD 9

/-- A word may use the register that a load or an STx_C will write. A load names two registers; of any other word every register
field counts. -/
def State.uses (s : State) (w : Longword) : LoadTarget → Bool
  | .int slot _ =>
    slot != .zero && (slot == s.intSlot (fRb w) || (!isFpLoad w && slot == s.intSlot (fRa w)) ||
      (isOperate w && slot == s.intSlot (w.extractLsb' 0 5)))
  | .fp n _ =>
    n != 31#5 && (if isLoad w then isFpLoad w && n == fRa w
      else n == fRa w || n == fRb w || (isOperate w && n == w.extractLsb' 0 5))

/-- The state a word runs in: the loads that wait have their data, as they can, unless it is free and names none of their registers;
and a store finds a free entry, as it can (R341, R1038 (1)). -/
def State.readyFor (s : State) (w : Longword) : State :=
  let s1 := if isFree w && !s.awaited.any (s.uses w) then s else s.awaitLoads
  if isStore w && decide (6 ≤ s1.wb.length) then s1.drainWb true (s1.wb.length - 5) else s1

/-- A word has to wait (R363, R360, R1037, R1038; R705 for CALL_PAL). It names a register that is still to be written; it uses the Mbox
while an MB, an STx_C or an LDx_L is not done; it is a load and the miss address file is full; it is a store, a barrier, FETCH or
FETCH_M, and a load has not been sent (DESIGN CHOICE: R343 lets a store wait in the write buffer; notes/assumptions/16.md), or no
entry is free; or it enters PALcode and something is still on its way. -/
def State.blocked (s : State) (w : Longword) : Bool :=
  s.awaited.any (s.uses w) ||
  ((isAnyLoad w || isStore w || isBarrier w || isMxpr w) &&
    (s.mbWaits || s.wb.any WbEntry.isCond || s.maf.any (·.locked))) ||
  (isAnyLoad w && decide (6 ≤ s.maf.length)) ||
  ((isStore w || isBarrier w) && !s.maf.isEmpty) ||
  (isStore w && decide (6 ≤ s.wb.length)) ||
  (fOp w == 0#6 && !s.drained)

end Sys2Proof.Machine
end

