-- ==== Sys2Proof/Machine/Unused.lean ====
section
/-! DEFINITION. Words of a legal opcode whose function code names no instruction (R503 (e), D17; notes/assumptions/5.md). -/

namespace Sys2Proof.Machine

/-- The destination receives any value and nothing else changes; FEN as for the instructions of the opcode (R503, R806). -/
def State.runUnused (s : State) : Reject → State
  | .unusedInt rc => (s.writeInt rc s.freeNow).drawn.advance
  | .unusedFp fc => if s.fpe then (s.writeFp fc s.freeNow).drawn.advance else s.precise .fen
  | .unusedIeee src fc =>
    if s.fpe && src != 1#2 then (s.writeFp fc s.freeNow).drawn.advance else s.precise .fen
  | .unusedMisc => s.advance

end Sys2Proof.Machine
end

