-- ==== Sys2Proof/Machine/Run.lean ====
section
/-! DEFINITION. What one step does: an environment event, an interrupt, or the fetch, decoding and execution of one instruction, in
the order of R702; then what the Mbox and the Cbox have left to do. -/

namespace Sys2Proof.Machine

/-- Decode a word and run it: an instruction, or a word whose function code names none (R503). -/
noncomputable def State.runWord (s : State) (w : Longword) : Res State :=
  match decode w with
  | .ok i => exec i s
  | .error r => .next (s.runUnused r)

/-- Nothing can go on: time passes until something arrives (R61, R1037). -/
def State.idled (s : State) : State := s.pass (Config.cycles s.freeCount)

/-- PALcode is entered only once the registers hold what is on its way to them (R705, R1025): it arrives now, and the instruction or
the event is tried again; if it cannot arrive, time passes. -/
def State.drain (s : State) : State := if s.awaitLoads.drained then s.awaitLoads else s.awaitLoads.idled

/-- After an instruction that began in `s` and left `t`: its cycles and events are counted (R130, R218), and the instructions after a
flush (R371). If it has taken an exception while something was on its way, that has to arrive first, and nothing of the instruction
stands. -/
def State.finish (s t : State) : State :=
  if t.ended ≠ .retired ∧ s.drained = false then s.drain else (State.count s t).drainRefill

/-- Run a fetched word, unless it has to wait. A machine check that waits comes first. -/
noncomputable def State.runReady (s : State) (w : Longword) : Res State :=
  if s.mchkPending then .next s
  else if s.blocked w then .next s.idled
  else mapRes s.finish (s.runWord w)

/-- What becomes of a fetch in `s`; a machine check that it met waits on its own (`State.takeMchk`). -/
noncomputable def State.runFetched (s : State) : Fetched → Res State
  | .insn w t => (t.readyFor w).runReady w
  | .trap t => .next (if t.mchkPending || s.drained then t else s.drain)
  | .waits t => .next t.idled
  | .fault f => .fault f
  | .refused r => .refused r

/-- An interrupt, once what is on its way has arrived (R705); a machine check that waits comes first. -/
def State.interrupted (s : State) : State :=
  if s.awaitLoads.mchkPending then s.awaitLoads
  else if s.awaitLoads.drained then s.awaitLoads.takeInterrupt
  else s.awaitLoads.idled

/-- The state in which an instruction begins: nothing has ended yet, and no system command has come right after a bad NOP (R912). -/
def State.begin (s : State) : State := { s with ended := .retired, nopParity := false }

/-- One instruction: a machine check that still waits for what is on its way; an interrupt if one is deliverable outside PALmode (R702,
R730; notes/assumptions/7.md); else the instruction at the PC. -/
noncomputable def State.runOne (s : State) : Res State :=
  if s.mchkPending then .next s.begin.idled
  else if !s.palmode && s.interruptPending then .next s.begin.interrupted
  else s.begin.runFetched s.begin.fetch

/-- An event is a system-driven cycle. -/
def EnvEvent.isCommand : EnvEvent → Bool
  | .command .. => true
  | _ => false

/-- The next environment event, if there is one, else one instruction. -/
noncomputable def State.raw (s : State) : Res State :=
  match s.inputs with
  | [] => s.runOne
  | .quiet :: rest => State.runOne { s with inputs := rest }
  | e :: rest => State.event { s with inputs := rest, nopParity := s.nopParity && e.isCommand } e

/-- One step. -/
noncomputable def State.stepOnce (s : State) : Res State := mapRes State.settle s.raw

end Sys2Proof.Machine
end

