-- ==== Sys2Proof/Machine/Step.lean ====
section
/-! DEFINITION. The step of the machine, and the placing of an instruction where the next step fetches it. -/

namespace Sys2Proof.Machine

/-- One step of the machine. -/
noncomputable def step (s : State) : Host.Outcome State Fault Refusal := s.stepOnce

/-- The state with the instruction whose bits are `w` (numbered as spec/opcode_table.json numbers them) where `step` fetches
next (notes/assumptions/22.md). -/
def State.withFetchWord (s : State) (nbits w : Nat) : State := s.placeWord (tableWord nbits w)

end Sys2Proof.Machine
end

