-- ==== Sys2Proof/Safety.lean ====
section
/-! DEFINITION. What counts as a safe run, the invariants that every step keeps, and the frames, in the terms the statements
use. -/

namespace Sys2Proof.Machine

/-! ## Runs and invariants -/

/-- The machine goes on from a state. -/
def State.runs (s : State) : Prop := ∃ t, step s = .next t

/-- The PC and the saved PC are well formed: PC<1:0> are zero (R35), EXC_ADDR<1> is zero (R112). -/
def State.pcOk (s : State) : Prop := s.pc &&& 3#64 = 0#64 ∧ s.ibox.excAddr &&& 2#64 = 0#64

/-- The memory-like region is in canonical form and lists only addresses of the region (R320). -/
def State.memOk (s : State) : Prop := s.mem.wf = true ∧ ∀ c ∈ s.mem, c.1 < 2 ^ 39

/-- Register bits that software cannot set: the unnamed bits of ICSR (R166), and MCSR<5> and <3>, which must be zero
(R214). -/
def State.reservedOk (s : State) : Prop :=
  s.ibox.icsr &&& ~~~0xFF7FF00300#64 = 0#64 ∧ s.mbox.mcsr &&& 0b101000#6 = 0#6

/-! ## Frames

`s.intWrite t n v` and `s.fpWrite t n v` say what becomes of a register file; the rest of the state is compared by putting
the fields that may differ back and asking for equality, which leaves out nothing: memory, every register, every
translation-buffer entry, every field. -/

/-- The integer registers of `t` are those of `s`, but for register `n`, which holds `v`. Register 31 takes no value; the
registers that the shadow registers hide, and the shadow registers when they are hidden, are the same too (R31, R33). -/
def State.intWrite (s t : State) (n : RegNum) (v : Word) : Prop :=
  (n ≠ 31#5 → t.readInt n = v) ∧ (∀ m, m ≠ n → t.readInt m = s.readInt m) ∧
  (∀ k : Fin 31, s.intSlot n ≠ .plain k → t.ints[k] = s.ints[k]) ∧
  (∀ k : Fin 8, s.intSlot n ≠ .shadow k → t.shadow[k] = s.shadow[k])

/-- The floating-point registers of `t` are those of `s`, but for register `n`, which holds `v`; register 31 takes no value
(R34). -/
def State.fpWrite (s t : State) (n : RegNum) (v : Word) : Prop :=
  (n ≠ 31#5 → t.readFp n = v) ∧ (∀ m, m ≠ n → t.readFp m = s.readFp m)

/-- `t` is `s` after one instruction that writes `v` to integer register `n` and goes on with the next. -/
def State.onlyInt (s t : State) (n : RegNum) (v : Word) : Prop :=
  s.intWrite t n v ∧ t.pc = s.pc + 4#64 ∧ { t with ints := s.ints, shadow := s.shadow, pc := s.pc } = s

/-- `t` is `s` after one instruction that writes `v` to floating-point register `n` and goes on with the next. -/
def State.onlyFp (s t : State) (n : RegNum) (v : Word) : Prop :=
  s.fpWrite t n v ∧ t.pc = s.pc + 4#64 ∧ { t with fregs := s.fregs, pc := s.pc } = s

/-- `t` is `s` after taking a PALcode entry: the PC is the entry's address, PALmode is set, EXC_ADDR is the return address
with the PALmode flag of `s` in bit 0, the interrupt flag is clear (R700, D18), and nothing else has changed but the
model's own mark of how the instruction ended. -/
def State.trapped (s t : State) (offset : BitVec 14) (returnPc : Word) : Prop :=
  t.pc = s.ibox.palBase ++ offset ∧ t.palmode = true ∧
  t.ibox = { s.ibox with excAddr := (returnPc &&& ~~~3#64) ||| ofBool64 s.palmode } ∧ t.intrFlag = false ∧
  { t with pc := s.pc, palmode := s.palmode, ibox := s.ibox, intrFlag := s.intrFlag, ended := s.ended } = s

/-! ## Rows of statements about several instructions -/

/-- An Operate instruction as its rule gives it: opcode, function code, instruction, and a datum about its effect. -/
structure OprRow (α : Type) where
  op : BitVec 6
  fn : BitVec 7
  instr : MkOpr
  what : α

/-- The row's word decodes to the row's instruction. -/
def OprRow.encoded {α : Type} (r : OprRow α) (ra : RegNum) (rb : RegOrLit) (rc : RegNum) : Prop :=
  decode (encOpr r.op r.fn ra rb rc) = .ok (r.instr ra rb rc)

/-! ## Bytes as this processor reads them -/

/-- The byte of an address behind the Dcache: the write buffer over the caches and main memory (R322, R343). -/
def State.byteAt (s : State) (a : PAddr) : Byte := hexByte (s.sees (granule a)) (a.setWidth 5).toNat

/-- The byte that a bank of the Dcache gives for an address of the memory-like region, if it holds it (R54). -/
def State.dcByte (s : State) (bank1 : Bool) (a : PAddr) : Option Byte :=
  let l := dcGet (dcIndex a) (s.dcache.bank bank1)
  if s.dcEna && !a.getLsbD 39 && l.hits a then some (hexByte l.data (a.setWidth 5).toNat) else none

/-- The Dcache serves a load of 4 or 8 bytes at `a`: it hits, and no load of the same location waits (R322, R1038 (3)); an LDx_L
misses it (R360). -/
def State.dcServes (s : State) (locked quad : Bool) (a : PAddr) : Bool :=
  !locked && (s.dcByte false a).isSome && !s.loadsWaiting.any (MafLoad.overlaps ⟨a, quad, .int .zero false⟩)

/-- The byte at `x` as a load at `a` delivers it: the Dcache's, if that serves the load. -/
def State.loadByte (s : State) (locked quad : Bool) (a x : PAddr) : Byte :=
  if s.dcServes locked quad a then (s.dcByte false x).getD (s.byteAt x) else s.byteAt x

/-! ## Accesses to the memory-like region -/

/-- Both banks of the Dcache answer a reference alike, with no parity error and no forced hit. -/
def State.dcSteady (s : State) (quad write : Bool) (a : PAddr) : Prop :=
  s.dcLook false quad write a = s.dcLook true quad write a ∧ (s.dcLook false quad write a).errors = 0#4 ∧ s.dcFhit = false

/-- A reference that reaches the memory-like region at `a`: it translates, and nothing is owed for an earlier store to a Cbox
control register (R241). -/
def State.reaches (s : State) (r : Ref) (a : PAddr) : Prop :=
  ∃ pa hit, s.translate r = .ok pa hit ∧ s.accessAddress r.quad pa = a ∧ regionOf a = .memory ∧ s.orderKept r.write = true

/-- A reference that reaches the memory-like region at `a`, where the Dcache answers plainly. -/
def State.reachesPlainly (s : State) (r : Ref) (a : PAddr) : Prop := s.reaches r a ∧ s.dcSteady r.quad r.write a

/-- The bytes of a datum of 4 or 8 bytes, little-endian (R304). -/
def State.datum (s : State) (locked quad : Bool) (a : PAddr) (v : Word) : Prop :=
  ∀ i < sizeOf quad, byteOf v i = s.loadByte locked quad a (a + BitVec.ofNat 40 i)

/-- An address is one of the 4 or 8 bytes from `a` up. -/
def inDatum (quad : Bool) (a x : PAddr) : Bool :=
  decide (a.toNat ≤ x.toNat) && decide (x.toNat < a.toNat + sizeOf quad)

/-- A byte after a store of `v` at `a`. -/
def byteAfter (quad : Bool) (a : PAddr) (v : Word) (x : PAddr) (old : Byte) : Byte :=
  if inDatum quad a x then byteOf v (x.toNat - a.toNat) else old

/-- What this processor reads after a store of 4 or 8 bytes at `a`: the bytes of `v` there, and every other byte as before, behind
the Dcache and in each of its banks. -/
def State.stored (s t : State) (quad : Bool) (a : PAddr) (v : Word) : Prop :=
  (∀ x, t.byteAt x = byteAfter quad a v x (s.byteAt x)) ∧
  (∀ bank1 x, t.dcByte bank1 x = (s.dcByte bank1 x).map (byteAfter quad a v x))

/-- No byte reads differently, neither behind the Dcache nor in its banks. -/
def State.sameBytes (s t : State) : Prop :=
  (∀ x, t.byteAt x = s.byteAt x) ∧ (∀ bank1 x, t.dcByte bank1 x = s.dcByte bank1 x)

/-- A noncached reference: it translates to `a`, an address of the noncached region. -/
def State.reachesDevice (s : State) (r : Ref) (a : PAddr) : Prop :=
  ∃ pa hit, s.translate r = .ok pa hit ∧ s.accessAddress r.quad pa = a ∧ regionOf a = .noncached ∧ s.orderKept r.write = true

/-- What every completed access does besides its own effect: the DTB pointer may move (D5), and an MB no longer stands right before
(R241). -/
def State.sameBut (s t : State) : Prop :=
  t.afterMb = false ∧ { t with dtb := { t.dtb with next := s.dtb.next }, afterMb := s.afterMb } = s

/-- The miss address file after a load of the memory-like region: a load that the Dcache serves leaves it alone; a miss, and every
LDx_L, gets an entry (R56), and one of its own, not merged with those that wait (DESIGN CHOICE: R347 lets loads merge or not;
notes/assumptions/16.md). -/
def State.mafAfter (s : State) (locked quad : Bool) (a : PAddr) (t : LoadTarget) : List MafEntry :=
  if s.dcServes locked quad a then s.maf else s.maf ++ [⟨granule a, [⟨a, quad, t⟩], locked, s.wbHolds (granule a)⟩]

/-- `t` is `s` after a store-conditional of `v` at `a` in the memory-like region (R363, R366): with the lock flag set the bytes
are those of `v`, and Ra is 1; with it clear every byte is as before, and Ra is 0. The Dcache loses the block, and an entry of the
write buffer waits to be sent; when its turn comes the success is decided, the flag cleared and Ra written once more
(`State.sendEntry`). -/
def State.condStored (s t : State) (quad : Bool) (a : PAddr) (ra : RegNum) (v : Word) : Prop :=
  t.pc = s.pc + 4#64 ∧ s.intWrite t ra (if s.lockFlag then 1#64 else 0#64) ∧
  (∀ x, t.byteAt x = if s.lockFlag then byteAfter quad a v x (s.byteAt x) else s.byteAt x) ∧
  (∀ bank1 x, t.dcByte bank1 x = if granule x = granule a then none else s.dcByte bank1 x) ∧
  (∃ e, e.block = granule a ∧ e.kind = .cond (s.intSlot ra) ∧ t.wb = e :: s.wb) ∧
  s.sameBut { t with
    ints := s.ints, shadow := s.shadow, pc := s.pc, dcache := s.dcache, wb := s.wb, wbFence := s.wbFence }

/-! ## Accesses to the noncached region -/

/-- `t` is `s` after a load of the noncached region at `a`, but for the register it writes: the load waits in the miss address
file, merged with those of its block if it may be (R325, R434, R1038 (3)), and a locked one takes the lock (R360). -/
def State.deviceLoaded (s t : State) (locked quad : Bool) (a : PAddr) (target : LoadTarget) : Prop :=
  t.maf = mafAdd ⟨a, quad, target⟩ locked (s.wbHolds (granule a)) (s.ioMerges && !s.mafMatches ⟨a, quad, target⟩) s.maf ∧
  t.pc = s.pc + 4#64 ∧
  t.lockFlag = (locked || s.lockFlag) ∧ t.lockAddr = (if locked then a else s.lockAddr) ∧
  s.sameBut { t with
    ints := s.ints, shadow := s.shadow, fregs := s.fregs, pc := s.pc, maf := s.maf, lockFlag := s.lockFlag
    lockAddr := s.lockAddr, freeCount := s.freeCount }

/-- `t` is `s` after a load at `a` with the Dcache in force-hit mode, but for the register it writes, which holds any value (R215);
a locked one takes the lock. -/
def State.forcedLoaded (s t : State) (locked : Bool) (a : PAddr) : Prop :=
  t.pc = s.pc + 4#64 ∧ t.lockFlag = (locked || s.lockFlag) ∧ t.lockAddr = (if locked then a else s.lockAddr) ∧
  s.sameBut { t with
    ints := s.ints, shadow := s.shadow, fregs := s.fregs, pc := s.pc, lockFlag := s.lockFlag, lockAddr := s.lockAddr
    freeCount := s.freeCount }

/-- The longwords of a 32-byte block that 4 or 8 bytes at `a` fill, by number (R327). -/
def placedMask (quad : Bool) (a : PAddr) : BitVec 8 := BitVec.ofNat 8 ((if quad then 3 else 1) * 2 ^ (a.toNat % 32 / 4))

/-- A datum at its place in a 32-byte block, by number (R327). -/
def placedDatum (quad : Bool) (a : PAddr) (v : Word) : Hexword :=
  BitVec.ofNat 256 ((if quad then v.toNat else v.toNat % 2 ^ 32) * 2 ^ (8 * (a.toNat % 32)))

/-- `t` is `s` after a store of `v` at `a` of the noncached region: it waits in the write buffer, in an entry of its own if no
entry is for its block (R327, R341). -/
def State.deviceStored (s t : State) (quad : Bool) (a : PAddr) (v : Word) : Prop :=
  t.wb = (s.wbStore (granule a) (placedMask quad a) (placedDatum quad a v)).wb ∧ t.pc = s.pc + 4#64 ∧
  (s.wbHolds (granule a) = false →
    t.wb = ⟨granule a, .store, placedMask quad a, placedDatum quad a v, s.wbFence, s.wbNoMerge⟩ :: s.wb) ∧
  s.sameBut { t with wb := s.wb, wbFence := s.wbFence, pc := s.pc }

/-- `t` is `s` after a store of `v` at `a` with the Dcache in force-hit mode (R215, R323): both banks take the datum at the index of
the address, and the write buffer takes it too. -/
def State.forcedStored (s t : State) (quad : Bool) (a : PAddr) (v : Word) : Prop :=
  t.wb = (s.wbStore (granule a) (placedMask quad a) (placedDatum quad a v)).wb ∧ t.pc = s.pc + 4#64 ∧
  (∀ bank1, (dcGet (dcIndex a) (t.dcache.bank bank1)).data =
    mergeHex (dcGet (dcIndex a) (s.dcache.bank bank1)).data (placedDatum quad a v) (placedMask quad a)) ∧
  s.sameBut { t with dcache := s.dcache, wb := s.wb, wbFence := s.wbFence, pc := s.pc, freeCount := s.freeCount }

/-- `t` is `s` after a store-conditional of `v` at `a` of the noncached region: its success is any until the system decides, the
lock flag is cleared, and the store waits in an entry of its own (R364). -/
def State.deviceCond (s t : State) (quad : Bool) (a : PAddr) (ra : RegNum) (v : Word) : Prop :=
  (∃ success, (success = 0#64 ∨ success = 1#64) ∧ s.intWrite t ra success) ∧ t.lockFlag = false ∧ t.pc = s.pc + 4#64 ∧
  (∃ fenced, t.wb = ⟨granule a, .cond (s.intSlot ra), placedMask quad a, placedDatum quad a v, fenced, s.wbNoMerge⟩ :: s.wb) ∧
  s.sameBut { t with
    ints := s.ints, shadow := s.shadow, lockFlag := s.lockFlag, wb := s.wb, wbFence := s.wbFence, freeCount := s.freeCount
    pc := s.pc }

/-! ## Function codes of floating-point operates (R487, R807, R808) -/

/-- The qualifiers in a function code: RND<12:11> and TRP<15:13> of the instruction, bits <7:6> and <10:8> of the code. -/
def fnQuals (fn : BitVec 11) : Quals where
  round := if fn.extractLsb' 6 2 = 0#2 then .chopped else if fn.extractLsb' 6 2 = 1#2 then .minus
    else if fn.extractLsb' 6 2 = 2#2 then .normal else .dynamic
  trap := fn.getLsbD 8
  soft := fn.getLsbD 10
  inexact := fn.getLsbD 9

/-- The source format of a function code, SRC<10:9>: bits <5:4>. -/
def fnSrc (fn : BitVec 11) : Nat := (fn.extractLsb' 4 2).toNat

/-- The operation of a function code, FNC<8:5>: bits <3:0>. -/
def fnOp (fn : BitVec 11) : Nat := (fn.extractLsb' 0 4).toNat

/-- What a function code of opcode 16 produces (R500): FNC 0 to 3 add, subtract, multiply, divide; 4 to 7 the compares;
C to S; E to T; F to Q. SRC 0 is S, 2 is T, 3 is Q. -/
def ieeeCode (fn : BitVec 11) (c : FpControl) (a b : Word) : FpOutcome :=
  let q := fnQuals fn
  match fnOp fn with
  | 0 => ieeeBinary .add (fnSrc fn == 0) q c a b
  | 1 => ieeeBinary .sub (fnSrc fn == 0) q c a b
  | 2 => ieeeBinary .mul (fnSrc fn == 0) q c a b
  | 3 => ieeeBinary .div (fnSrc fn == 0) q c a b
  | 4 => ieeeCompare .un a b
  | 5 => ieeeCompare .eq a b
  | 6 => ieeeCompare .lt a b
  | 7 => ieeeCompare .le a b
  | 14 => ieeeFromInt .t q c b
  | 15 => ieeeToInt q c b
  | _ =>
    if fnSrc fn = 3 then ieeeFromInt .s q c b
    else if fn.extractLsb' 8 2 = 2#2 then ieeeWiden b
    else ieeeNarrow q c b

/-- What a function code of opcode 15 produces (R501): FNC 0 to 3 add, subtract, multiply, divide; 5 to 7 the compares;
C to F; D to D; E to G; F to Q. SRC 0 is F, 1 is D, 2 is G, 3 is Q. -/
def vaxCode (fn : BitVec 11) (c : FpControl) (a b : Word) : FpOutcome :=
  let q := fnQuals fn
  match fnOp fn with
  | 0 => vaxBinary .add (fnSrc fn == 0) q c a b
  | 1 => vaxBinary .sub (fnSrc fn == 0) q c a b
  | 2 => vaxBinary .mul (fnSrc fn == 0) q c a b
  | 3 => vaxBinary .div (fnSrc fn == 0) q c a b
  | 5 => vaxCompare .eq a b
  | 6 => vaxCompare .lt a b
  | 7 => vaxCompare .le a b
  | 13 => vaxFromG .d q c b
  | 14 => if fnSrc fn = 3 then vaxFromInt .g q c b else vaxFromD q c b
  | 15 => vaxToInt q c b
  | _ => if fnSrc fn = 3 then vaxFromInt .f q c b else vaxFromG .f q c b

/-- `t` is `s` after a floating-point operate that signalled nothing: the result (any value if it is UNPREDICTABLE), the
status bits of the FPCR, the PC, and nothing else. -/
def State.fpDone (s t : State) (fc : RegNum) (o : FpOutcome) : Prop :=
  s.fpWrite t fc (o.value.getD s.freeNow) ∧ t.fpcr = s.fpcr ||| o.fpcr.setWidth 11 ∧ t.pc = s.pc + 4#64 ∧
  (o.value ≠ none → t.freeCount = s.freeCount) ∧
  { t with fregs := s.fregs, fpcr := s.fpcr, pc := s.pc, freeCount := s.freeCount } = s

/-! ## Numbers, and results as numbers (R801, R803, R807, R812 to R814) -/

/-- A sign and an exact magnitude: the value of exponent `e` and fraction `f`, with the given bias, hidden bit and fraction
width. -/
def fieldsNumber (neg : Bool) (e f : Nat) (bias : Int) (hidden : ℚ) (width : Nat) : ℚ :=
  if e = 0 then 0 else (if neg then -1 else 1) * 2 ^ ((e : Int) - bias) * (hidden + f / 2 ^ width)

/-- The number an S_floating or T_floating operand stands for (R801, R802). -/
def ieeeNumber (w : Word) : ℚ :=
  fieldsNumber w.msb (w.extractLsb' 52 11).toNat (w.extractLsb' 0 52).toNat 1023 1 52

/-- The number an F_floating or G_floating operand stands for (R803). -/
def vaxNumber (w : Word) : ℚ :=
  fieldsNumber w.msb (w.extractLsb' 52 11).toNat (w.extractLsb' 0 52).toNat 1024 (1 / 2) 53

/-- The number a D_floating operand stands for (R803). -/
def dNumber (w : Word) : ℚ :=
  fieldsNumber w.msb (w.extractLsb' 55 8).toNat (w.extractLsb' 0 55).toNat 128 (1 / 2) 56

/-- A rational number rounded to an integer (R807): a tie to nearest goes to the even integer, in VAX rounding away from
zero. -/
def Rounding.integer (mode : Rounding) (y : ℚ) : Int :=
  match mode with
  | .chopped => if 0 ≤ y then ⌊y⌋ else ⌈y⌉
  | .minus => ⌊y⌋
  | .plus => ⌈y⌉
  | .vax => if 0 ≤ y then ⌊y + 1 / 2⌋ else ⌈y - 1 / 2⌉
  | .nearest => if (⌊y + 1 / 2⌋ : ℚ) = y + 1 / 2 ∧ ⌊y + 1 / 2⌋ % 2 = 1 then ⌊y + 1 / 2⌋ - 1 else ⌊y + 1 / 2⌋

/-- A nonzero number rounded to so many significant bits, with unbounded exponent (R812, R817, R818). -/
def Rounding.number (mode : Rounding) (prec : Nat) (x : ℚ) : ℚ :=
  let ulp : ℚ := 2 ^ (Int.log 2 |x| - ((prec : Int) - 1))
  mode.integer (x / ulp) * ulp

/-- The rounding mode of an IEEE function code (R807, R38). -/
def fnRounding (fn : BitVec 11) (c : FpControl) : Rounding :=
  let r := fn.extractLsb' 6 2
  let r := if r = 3#2 then c.dyn else r
  if r = 0#2 then .chopped else if r = 1#2 then .minus else if r = 2#2 then .nearest else .plus

/-- What an IEEE operation with the function code `fn` must produce when its exact result is the nonzero number `x` (R812 to
R814): overflow, underflow, or the rounded number in the form of the type, with the status bits and what is signalled. -/
def ieeeDelivers (fn : BitVec 11) (single : Bool) (c : FpControl) (x : ℚ) (o : FpOutcome) : Prop :=
  let r := (fnRounding fn c).number (if single then 24 else 53) x
  let inexact : Conds := if fn.getLsbD 9 && !c.ined then 16#6 else 0#6
  let underflow : Conds := if fn.getLsbD 8 && !(c.unfd && c.undz && fn.getLsbD 10) then 8#6 else 0#6
  if (if single then 2 ^ 128 - 2 ^ 104 else 2 ^ 1024 - 2 ^ 971) < |r| then o = ⟨none, 20#6, 4#6 ||| inexact⟩
  else if |r| < (if single then 2 ^ (-126 : Int) else 2 ^ (-1022 : Int)) then o = ⟨some 0#64, 24#6, underflow ||| inexact⟩
  else ∃ v, o = ⟨some v, if r = x then 0#6 else 16#6, if r = x then 0#6 else inexact⟩ ∧ ieeeNumber v = r ∧
    v.extractLsb' 52 11 ≠ 0x7FF#11 ∧ (single = true → v.extractLsb' 0 29 = 0#29)

/-- The floating formats of the VAX instructions: precision, greatest and least magnitude, and the number of a register. -/
structure VaxRange where
  prec : Nat
  most : ℚ
  least : ℚ
  number : Word → ℚ

/-- F, G and D (R803, R813). -/
def VaxRange.f : VaxRange := ⟨24, 2 ^ 127 - 2 ^ 103, 2 ^ (-128 : Int), vaxNumber⟩
def VaxRange.g : VaxRange := ⟨53, 2 ^ 1023 - 2 ^ 970, 2 ^ (-1024 : Int), vaxNumber⟩
def VaxRange.d : VaxRange := ⟨56, 2 ^ 127 - 2 ^ 71, 2 ^ (-128 : Int), dNumber⟩

/-- What a VAX operation with the function code `fn` must produce when its exact result is the number `x` (R812, R813, R818):
true zero, overflow, underflow, or the rounded number; there is no inexact condition. -/
def vaxDelivers (fn : BitVec 11) (fmt : VaxRange) (c : FpControl) (x : ℚ) (o : FpOutcome) : Prop :=
  let r := Rounding.number (if fn.extractLsb' 6 2 = 0#2 then .chopped else .vax) fmt.prec x
  if x = 0 then o = ⟨some 0#64, 0#6, 0#6⟩
  else if fmt.most < |r| then o = ⟨none, 4#6, 4#6⟩
  else if |r| < fmt.least then
    o = ⟨some 0#64, 8#6, if fn.getLsbD 8 && !(c.unfd && c.undz && fn.getLsbD 10) then 8#6 else 0#6⟩
  else ∃ v, o = ⟨some v, 0#6, 0#6⟩ ∧ fmt.number v = r ∧ (fmt.prec = 24 → v.extractLsb' 0 29 = 0#29)

/-- The exact result of the four operations, by their number in a function code (R817, R818). -/
def exactResult (op : Nat) (x y : ℚ) : ℚ :=
  match op with
  | 0 => x + y
  | 1 => x - y
  | 2 => x * y
  | _ => x / y

/-! ## Nothing waits between two steps -/

/-- No load, STx_C, prefetch, command, MB or machine check waits in the Mbox or the Cbox, and no store but for the one that the write
buffer keeps back. -/
def State.idle (s : State) : Prop :=
  s.drained = true ∧ s.imaf = [] ∧ s.cmds = [] ∧ s.mbWaits = false ∧ s.mchkPending = false ∧ s.wbDue = 0

end Sys2Proof.Machine
end

