-- ==== Sys2Proof/Certificates/Slice0/Obligations.lean ====
section
/-! DEFINITION. The statements, for the provers. Each names the rules it formalises; a statement about every state holds in
states that no run reaches too. -/

open Sys2Proof Sys2Proof.Machine

/-- Each of ADDL, ADDQ, S4ADDL, S4ADDQ, S8ADDL, S8ADDQ, SUBL, SUBQ, S4SUBL, S4SUBQ, S8SUBL, S8SUBQ has the opcode and
function code of its rule, and in every state answers a next state in which Rc holds the rule's value (a write to R31
is discarded), the PC has moved on by 4 and nothing else has changed: no other register, no byte of memory, no flag.
-/
def Obligations.AddSubtract : Prop :=
  ∀ row ∈ ([⟨0x10#6, 0x00#7, Instr.addl, fun a b => ((a + b).setWidth 32).signExtend 64⟩,
      ⟨0x10#6, 0x20#7, Instr.addq, fun a b => a + b⟩,
      ⟨0x10#6, 0x02#7, Instr.s4addl, fun a b => (((a <<< 2) + b).setWidth 32).signExtend 64⟩,
      ⟨0x10#6, 0x22#7, Instr.s4addq, fun a b => (a <<< 2) + b⟩,
      ⟨0x10#6, 0x12#7, Instr.s8addl, fun a b => (((a <<< 3) + b).setWidth 32).signExtend 64⟩,
      ⟨0x10#6, 0x32#7, Instr.s8addq, fun a b => (a <<< 3) + b⟩,
      ⟨0x10#6, 0x09#7, Instr.subl, fun a b => ((a - b).setWidth 32).signExtend 64⟩,
      ⟨0x10#6, 0x29#7, Instr.subq, fun a b => a - b⟩,
      ⟨0x10#6, 0x0B#7, Instr.s4subl, fun a b => (((a <<< 2) - b).setWidth 32).signExtend 64⟩,
      ⟨0x10#6, 0x2B#7, Instr.s4subq, fun a b => (a <<< 2) - b⟩,
      ⟨0x10#6, 0x1B#7, Instr.s8subl, fun a b => (((a <<< 3) - b).setWidth 32).signExtend 64⟩,
      ⟨0x10#6, 0x3B#7, Instr.s8subq, fun a b => (a <<< 3) - b⟩] :
      List (OprRow (Word → Word → Word))),
    ∀ ra rb rc (s : State), row.encoded ra rb rc ∧
      ∃ t, exec (row.instr ra rb rc) s = .next t ∧ s.onlyInt t rc (row.what (s.readInt ra) (s.operand rb))

/-- Each of CMPEQ, CMPLT, CMPLE, CMPULT, CMPULE, MULL, MULQ and UMULH has the opcode and function code of its rule,
and in every state answers a next state in which Rc holds the rule's value (a write to R31 is discarded), the PC has
moved on by 4 and nothing else has changed. -/
def Obligations.CompareMultiply : Prop :=
  ∀ row ∈ ([⟨0x10#6, 0x2D#7, Instr.cmpeq, fun a b => if a.toInt = b.toInt then 1#64 else 0#64⟩,
      ⟨0x10#6, 0x4D#7, Instr.cmplt, fun a b => if a.toInt < b.toInt then 1#64 else 0#64⟩,
      ⟨0x10#6, 0x6D#7, Instr.cmple, fun a b => if a.toInt ≤ b.toInt then 1#64 else 0#64⟩,
      ⟨0x10#6, 0x1D#7, Instr.cmpult, fun a b => if a.toNat < b.toNat then 1#64 else 0#64⟩,
      ⟨0x10#6, 0x3D#7, Instr.cmpule, fun a b => if a.toNat ≤ b.toNat then 1#64 else 0#64⟩,
      ⟨0x13#6, 0x00#7, Instr.mull, fun a b => ((a.setWidth 32 * b.setWidth 32)).signExtend 64⟩,
      ⟨0x13#6, 0x20#7, Instr.mulq, fun a b => BitVec.ofInt 64 (a.toInt * b.toInt)⟩,
      ⟨0x13#6, 0x30#7, Instr.umulh, fun a b => BitVec.ofNat 64 (a.toNat * b.toNat / 2 ^ 64)⟩] :
      List (OprRow (Word → Word → Word))),
    ∀ ra rb rc (s : State), row.encoded ra rb rc ∧
      ∃ t, exec (row.instr ra rb rc) s = .next t ∧ s.onlyInt t rc (row.what (s.readInt ra) (s.operand rb))

/-- Each of ADDL/V, ADDQ/V, SUBL/V, SUBQ/V, MULL/V and MULQ/V has the opcode and function code of its rule. When the
exact signed result is inside the range of its width, the instruction answers a next state in which Rc holds that
result, the PC has moved on by 4 and nothing else has changed. When it is outside, the instruction writes the result
truncated to the width and sign-extended to Rc, sets EXC_SUM<IOV> and the bit of Rc in EXC_MASK, and enters ARITH with
the address of the next instruction; nothing else changes. That ARITH is delivered at once is the model's choice (log
6); R597 marks the result and the delivery as its own. -/
def Obligations.OverflowForms : Prop :=
  ∀ row ∈ ([⟨0x10#6, 0x40#7, Instr.addlV, (fun a b => (a.setWidth 32).toInt + (b.setWidth 32).toInt, 32)⟩,
      ⟨0x10#6, 0x60#7, Instr.addqV, (fun a b => a.toInt + b.toInt, 64)⟩,
      ⟨0x10#6, 0x49#7, Instr.sublV, (fun a b => (a.setWidth 32).toInt - (b.setWidth 32).toInt, 32)⟩,
      ⟨0x10#6, 0x69#7, Instr.subqV, (fun a b => a.toInt - b.toInt, 64)⟩,
      ⟨0x13#6, 0x40#7, Instr.mullV, (fun a b => (a.setWidth 32).toInt * (b.setWidth 32).toInt, 32)⟩,
      ⟨0x13#6, 0x60#7, Instr.mulqV, (fun a b => a.toInt * b.toInt, 64)⟩] :
      List (OprRow ((Word → Word → Int) × Nat))),
    ∀ ra rb rc (s : State),
      let n := row.what.1 (s.readInt ra) (s.operand rb)
      let w := row.what.2
      row.encoded ra rb rc ∧
      (-(2 ^ (w - 1)) ≤ n → n < 2 ^ (w - 1) →
        ∃ t, exec (row.instr ra rb rc) s = .next t ∧ s.onlyInt t rc (BitVec.ofInt 64 n)) ∧
      ((n < -(2 ^ (w - 1)) ∨ 2 ^ (w - 1) ≤ n) →
        ∃ u t, exec (row.instr ra rb rc) s = .next t ∧
          s.intWrite u rc (((BitVec.ofInt 64 n).setWidth w).signExtend 64) ∧
          u.ibox.excSum = s.ibox.excSum ||| 0x40#7 ∧ u.ibox.excMask = s.ibox.excMask ||| (1#64 <<< rc.toNat) ∧
          { u with
            ints := s.ints, shadow := s.shadow
            ibox := { u.ibox with excSum := s.ibox.excSum, excMask := s.ibox.excMask } } = s ∧
          u.trapped t 0x0500#14 (s.pc + 4#64))

/-- Each of AND, BIC, BIS, ORNOT, XOR, EQV, SLL, SRL and SRA has the opcode and function code of its rule, and in
every state answers a next state in which Rc holds the rule's value (a write to R31 is discarded), the PC has moved on
by 4 and nothing else has changed. The shifts are said by arithmetic: SLL multiplies and SRL and SRA divide by 2 to
the power Rbv<5:0>, SRA the signed value, rounding down. -/
def Obligations.LogicalShift : Prop :=
  ∀ row ∈ ([⟨0x11#6, 0x00#7, Instr.and, fun a b => a &&& b⟩,
      ⟨0x11#6, 0x08#7, Instr.bic, fun a b => a &&& ~~~b⟩,
      ⟨0x11#6, 0x20#7, Instr.bis, fun a b => a ||| b⟩,
      ⟨0x11#6, 0x28#7, Instr.ornot, fun a b => a ||| ~~~b⟩,
      ⟨0x11#6, 0x40#7, Instr.xor, fun a b => a ^^^ b⟩,
      ⟨0x11#6, 0x48#7, Instr.eqv, fun a b => ~~~(a ^^^ b)⟩,
      ⟨0x12#6, 0x39#7, Instr.sll, fun a b => BitVec.ofNat 64 (a.toNat * 2 ^ (b.toNat % 64))⟩,
      ⟨0x12#6, 0x34#7, Instr.srl, fun a b => BitVec.ofNat 64 (a.toNat / 2 ^ (b.toNat % 64))⟩,
      ⟨0x12#6, 0x3C#7, Instr.sra, fun a b => BitVec.ofInt 64 (a.toInt / 2 ^ (b.toNat % 64))⟩] :
      List (OprRow (Word → Word → Word))),
    ∀ ra rb rc (s : State), row.encoded ra rb rc ∧
      ∃ t, exec (row.instr ra rb rc) s = .next t ∧ s.onlyInt t rc (row.what (s.readInt ra) (s.operand rb))

/-- Each of CMOVEQ, CMOVNE, CMOVLT, CMOVGE, CMOVLE, CMOVGT, CMOVLBS and CMOVLBC has the opcode and function code of
its rule and completes in every state: if its condition holds of Rav, Rc takes Rbv and nothing else but the PC
changes; if not, nothing but the PC changes. -/
def Obligations.ConditionalMoves : Prop :=
  ∀ row ∈ ([⟨0x11#6, 0x24#7, Instr.cmoveq, fun a => a.toInt = 0⟩,
      ⟨0x11#6, 0x26#7, Instr.cmovne, fun a => a.toInt ≠ 0⟩,
      ⟨0x11#6, 0x44#7, Instr.cmovlt, fun a => a.toInt < 0⟩,
      ⟨0x11#6, 0x46#7, Instr.cmovge, fun a => 0 ≤ a.toInt⟩,
      ⟨0x11#6, 0x64#7, Instr.cmovle, fun a => a.toInt ≤ 0⟩,
      ⟨0x11#6, 0x66#7, Instr.cmovgt, fun a => 0 < a.toInt⟩,
      ⟨0x11#6, 0x14#7, Instr.cmovlbs, fun a => a.toNat % 2 = 1⟩,
      ⟨0x11#6, 0x16#7, Instr.cmovlbc, fun a => a.toNat % 2 = 0⟩] :
      List (OprRow (Word → Prop))),
    ∀ ra rb rc (s : State), row.encoded ra rb rc ∧
      (row.what (s.readInt ra) →
        ∃ t, exec (row.instr ra rb rc) s = .next t ∧ s.onlyInt t rc (s.operand rb)) ∧
      (¬ row.what (s.readInt ra) → exec (row.instr ra rb rc) s = .next { s with pc := s.pc + 4#64 })

/-- CMPBGE, ZAP and ZAPNOT have the opcode and function code of their rules and complete in every state, changing only
Rc and the PC: bit i of CMPBGE's result says that byte i of Rav is at least byte i of Rbv as unsigned numbers, and its
bits <63:8> are zero; byte i of ZAP's result is zero where Rbv<i> is 1 and byte i of Rav elsewhere; ZAPNOT the other
way round. Big-endian mode makes no difference. -/
def Obligations.ByteCompareZap : Prop :=
  ∀ row ∈ ([⟨0x10#6, 0x0F#7, Instr.cmpbge, fun a b r => (∀ i < 8, r.getLsbD i = decide ((byteOf b i).toNat ≤ (byteOf a i).toNat)) ∧ r.toNat < 256⟩,
      ⟨0x12#6, 0x30#7, Instr.zap, fun a b r => ∀ i < 8, byteOf r i = if b.getLsbD i then 0#8 else byteOf a i⟩,
      ⟨0x12#6, 0x31#7, Instr.zapnot, fun a b r => ∀ i < 8, byteOf r i = if b.getLsbD i then byteOf a i else 0#8⟩] :
      List (OprRow (Word → Word → Word → Prop))),
    ∀ ra rb rc (s : State), row.encoded ra rb rc ∧
      ∃ t r, exec (row.instr ra rb rc) s = .next t ∧ row.what (s.readInt ra) (s.operand rb) r ∧ s.onlyInt t rc r

/-- Each of EXTBL, EXTWL, EXTLL, EXTQL, EXTWH, EXTLH, EXTQH, INSBL, INSWL, INSLL, INSQL, INSWH, INSLH, INSQH, MSKBL,
MSKWL, MSKLL, MSKQL, MSKWH, MSKLH and MSKQH has its opcode and function code, completes in every state and changes
only Rc and the PC. With n the size of the datum and o the byte offset Rbv<2:0>, one's-complemented when
MCSR<E_BIG_ENDIAN> is set: extract low takes the n bytes of Rav from byte o up down to byte 0, extract high the part
of the datum that lies in the next quadword, bytes above n being zero; insert low puts the n low bytes of Rav at byte
o, insert high the part of them that lies in the next quadword, every other byte being zero; mask low clears the n
bytes from byte o up, mask high the part of them that lies in the next quadword, every other byte being that of Rav.
(The helper functions of R630 that the rules use are general knowledge in the spec.) -/
def Obligations.ByteManipulation : Prop :=
  ∀ form ∈ ([([⟨0x12#6, 0x06#7, Instr.extbl, 1⟩,
      ⟨0x12#6, 0x16#7, Instr.extwl, 2⟩,
      ⟨0x12#6, 0x26#7, Instr.extll, 4⟩,
      ⟨0x12#6, 0x36#7, Instr.extql, 8⟩],
        fun (n : Nat) (a : Word) (o i : Nat) => if i < n ∧ i + o < 8 then byteOf a (i + o) else 0#8),
      ([⟨0x12#6, 0x5A#7, Instr.extwh, 2⟩,
      ⟨0x12#6, 0x6A#7, Instr.extlh, 4⟩,
      ⟨0x12#6, 0x7A#7, Instr.extqh, 8⟩],
        fun (n : Nat) (a : Word) (o i : Nat) => if i < n ∧ (o = 0 ∨ 8 ≤ i + o) then byteOf a ((i + o) % 8) else 0#8),
      ([⟨0x12#6, 0x0B#7, Instr.insbl, 1⟩,
      ⟨0x12#6, 0x1B#7, Instr.inswl, 2⟩,
      ⟨0x12#6, 0x2B#7, Instr.insll, 4⟩,
      ⟨0x12#6, 0x3B#7, Instr.insql, 8⟩],
        fun (n : Nat) (a : Word) (o i : Nat) => if o ≤ i ∧ i < o + n then byteOf a (i - o) else 0#8),
      ([⟨0x12#6, 0x57#7, Instr.inswh, 2⟩,
      ⟨0x12#6, 0x67#7, Instr.inslh, 4⟩,
      ⟨0x12#6, 0x77#7, Instr.insqh, 8⟩],
        fun (n : Nat) (a : Word) (o i : Nat) => if i + 8 < o + n then byteOf a (i + 8 - o) else 0#8),
      ([⟨0x12#6, 0x02#7, Instr.mskbl, 1⟩,
      ⟨0x12#6, 0x12#7, Instr.mskwl, 2⟩,
      ⟨0x12#6, 0x22#7, Instr.mskll, 4⟩,
      ⟨0x12#6, 0x32#7, Instr.mskql, 8⟩],
        fun (n : Nat) (a : Word) (o i : Nat) => if o ≤ i ∧ i < o + n then 0#8 else byteOf a i),
      ([⟨0x12#6, 0x52#7, Instr.mskwh, 2⟩,
      ⟨0x12#6, 0x62#7, Instr.msklh, 4⟩,
      ⟨0x12#6, 0x72#7, Instr.mskqh, 8⟩],
        fun (n : Nat) (a : Word) (o i : Nat) => if i + 8 < o + n then 0#8 else byteOf a i)] :
      List (List (OprRow Nat) × (Nat → Word → Nat → Nat → Byte))),
    ∀ row ∈ form.1, ∀ ra rb rc (s : State), row.encoded ra rb rc ∧
      ∃ t r, exec (row.instr ra rb rc) s = .next t ∧ s.onlyInt t rc r ∧
        let o := if s.mbox.mcsr.getLsbD 4 then 7 - (s.operand rb).toNat % 8 else (s.operand rb).toNat % 8
        ∀ i < 8, byteOf r i = form.2 row.what (s.readInt ra) o i

/-- Each of BEQ, BNE, BLT, BLE, BGT, BGE, BLBC and BLBS has its opcode and completes in every state whose PC is
aligned: if its condition holds of Rav, the PC becomes (pc + 4) + 4 * disp with the displacement signed, otherwise pc
+ 4; nothing else changes, no register, no flag, no byte of memory. The same holds of FBEQ, FBNE, FBLT, FBLE, FBGT and
FBGE with ICSR<FPE> set, whose condition is the bit-pattern test of their rule on Fav<63> and Fav<62:0>, so that both
zeros are zero. (FEN is DisabledInstructions. The operation and the target are general knowledge in the spec.) -/
def Obligations.ConditionalBranches : Prop :=
  (
  ∀ row ∈ ([(0x39#6, Instr.beq, fun a => a.toInt = 0),
      (0x3D#6, Instr.bne, fun a => a.toInt ≠ 0),
      (0x3A#6, Instr.blt, fun a => a.toInt < 0),
      (0x3B#6, Instr.ble, fun a => a.toInt ≤ 0),
      (0x3F#6, Instr.bgt, fun a => 0 < a.toInt),
      (0x3E#6, Instr.bge, fun a => 0 ≤ a.toInt),
      (0x38#6, Instr.blbc, fun a => a.toNat % 2 = 0),
      (0x3C#6, Instr.blbs, fun a => a.toNat % 2 = 1)] :
      List (BitVec 6 × MkBra × (Word → Prop))),
    ∀ ra disp (s : State), decode (encBra row.1 ra disp) = .ok (row.2.1 ra disp) ∧
      (s.pc &&& 3#64 = 0#64 →
        (row.2.2 (s.readInt ra) →
          exec (row.2.1 ra disp) s = .next { s with pc := s.pc + 4#64 + BitVec.ofInt 64 (4 * disp.toInt) }) ∧
        (¬ row.2.2 (s.readInt ra) → exec (row.2.1 ra disp) s = .next { s with pc := s.pc + 4#64 }))) ∧
  ∀ row ∈ ([(0x31#6, Instr.fbeq, fun a => a.extractLsb' 0 63 = 0#63),
      (0x35#6, Instr.fbne, fun a => a.extractLsb' 0 63 ≠ 0#63),
      (0x32#6, Instr.fblt, fun a => a.msb = true ∧ a.extractLsb' 0 63 ≠ 0#63),
      (0x33#6, Instr.fble, fun a => a.msb = true ∨ a.extractLsb' 0 63 = 0#63),
      (0x37#6, Instr.fbgt, fun a => a.msb = false ∧ a.extractLsb' 0 63 ≠ 0#63),
      (0x36#6, Instr.fbge, fun a => a.msb = false ∨ a.extractLsb' 0 63 = 0#63)] :
      List (BitVec 6 × MkBra × (Word → Prop))),
    ∀ ra disp (s : State), decode (encBra row.1 ra disp) = .ok (row.2.1 ra disp) ∧
      (s.fpe = true → s.pc &&& 3#64 = 0#64 →
        (row.2.2 (s.readFp ra) →
          exec (row.2.1 ra disp) s = .next { s with pc := s.pc + 4#64 + BitVec.ofInt 64 (4 * disp.toInt) }) ∧
        (¬ row.2.2 (s.readFp ra) → exec (row.2.1 ra disp) s = .next { s with pc := s.pc + 4#64 }))

/-- BR and BSR have their opcodes and complete in every state whose PC is aligned: Ra receives pc + 4 with the PALmode
flag in bit 0 (R31 discards it), the PC becomes (pc + 4) + 4 * disp, and nothing else changes. Each of the four jumps
has its selector in bits <15:14> and completes the same way, whatever its hint: the target is Rbv as it was before Ra
is written, with bits <1:0> cleared; the PALmode flag and everything else are unchanged. The PALmode flag in bit 0 of
the link is the spec's decision D2 (log 8). -/
def Obligations.UnconditionalJumps : Prop :=
  (∀ row ∈ ([(0x30#6, Instr.br), (0x34#6, Instr.bsr)] : List (BitVec 6 × MkBra)),
    ∀ ra disp (s : State), decode (encBra row.1 ra disp) = .ok (row.2 ra disp) ∧
      (s.pc &&& 3#64 = 0#64 →
        ∃ t, exec (row.2 ra disp) s = .next t ∧ s.intWrite t ra ((s.pc + 4#64) ||| ofBool64 s.palmode) ∧
          t.pc = s.pc + 4#64 + BitVec.ofInt 64 (4 * disp.toInt) ∧
          { t with ints := s.ints, shadow := s.shadow, pc := s.pc } = s)) ∧
  ∀ row ∈ ([(0#2, Instr.jmp), (1#2, Instr.jsr), (2#2, Instr.ret), (3#2, Instr.jsrCoroutine)] :
      List (BitVec 2 × (RegNum → RegNum → BitVec 14 → Instr))),
    ∀ ra rb hint (s : State), decode (encJump ra rb row.1 hint) = .ok (row.2 ra rb hint) ∧
      (s.pc &&& 3#64 = 0#64 →
        ∃ t, exec (row.2 ra rb hint) s = .next t ∧ s.intWrite t ra ((s.pc + 4#64) ||| ofBool64 s.palmode) ∧
          t.pc = s.readInt rb - (s.readInt rb &&& 3#64) ∧
          { t with ints := s.ints, shadow := s.shadow, pc := s.pc } = s)

/-- LDA and LDAH have opcodes 08 and 09 and complete in every state: Ra receives Rbv plus the displacement,
sign-extended, and for LDAH multiplied by 65536, modulo 2^64 (R31 discards it); the PC moves on by 4; nothing else
changes. -/
def Obligations.LoadAddress : Prop :=
  ∀ row ∈ ([(0x08#6, Instr.lda, 1), (0x09#6, Instr.ldah, 65536)] : List (BitVec 6 × MkMem × Int)),
    ∀ ra rb disp (s : State), decode (encMem row.1 ra rb disp) = .ok (row.2.1 ra rb disp) ∧
      ∃ t, exec (row.2.1 ra rb disp) s = .next t ∧
        s.onlyInt t ra (BitVec.ofInt 64 ((s.readInt rb).toInt + disp.toInt * row.2.2))

/-- LDL, LDQ and LDQ_U have opcodes 28, 29 and 0B. When the reference reaches address a of the memory-like region and
the Dcache answers plainly (both banks alike, no parity error, no forced hit), the instruction completes: Ra receives
the little-endian datum of 4 or 8 bytes at a as this processor sees it, sign-extended for LDL; a load that the Dcache
serves (it hits, and no load of the same location waits) enters nothing in the miss address file, and any other gets
an entry of its own there and is performed at once as far as its register goes (LoadsServed says what its fill does);
no byte of memory, no other register, no flag, no cache changes, only the PC and the DTB pointer (log 10). That loads
of the memory-like region never share an entry and have their datum at once is the model's choice (log 16: R347 leaves
it open). LDQ_U with ra = 31 completes in every state and changes only the PC. (The address: TranslateDstream; the
exceptions: DstreamExceptions.) -/
def Obligations.IntegerLoads : Prop :=
  (∀ row ∈ ([(0x28#6, Instr.ldl, false, true), (0x29#6, Instr.ldq, true, true), (0x0B#6, Instr.ldqU, true, false)] :
      List (BitVec 6 × MkMem × Bool × Bool)),
    ∀ ra rb disp a (s : State), decode (encMem row.1 ra rb disp) = .ok (row.2.1 ra rb disp) ∧
      (s.reachesPlainly
          ⟨s.readInt rb + disp.signExtend 64, row.2.2.1, false, row.2.2.2, false, false, false, false, ra, row.1⟩ a →
        (row.1 = 0x0B#6 → ra ≠ 31#5) →
        ∃ t v, exec (row.2.1 ra rb disp) s = .next t ∧ s.datum false row.2.2.1 a v ∧
          s.intWrite t ra (if row.2.2.1 then v else (v.setWidth 32).signExtend 64) ∧ t.pc = s.pc + 4#64 ∧
          t.maf = s.mafAfter false row.2.2.1 a (.int (s.intSlot ra) (!row.2.2.1)) ∧
          s.sameBut { t with ints := s.ints, shadow := s.shadow, pc := s.pc, maf := s.maf })) ∧
  ∀ rb disp (s : State), exec (.ldqU 31#5 rb disp) s = .next { s with pc := s.pc + 4#64 }

/-- LDF, LDG, LDS and LDT have opcodes 20 to 23. With ICSR<FPE> set, the reference reaching address a of the
memory-like region and the Dcache answering plainly, the instruction completes: Fa receives the register form of the
little-endian datum at a (for LDT the datum itself, for LDG its four words reversed; FloatMemoryForms says what the
forms of LDF and LDS are); a load that the Dcache serves enters nothing in the miss address file, and any other gets
an entry of its own there and has its datum at once: that is the model's choice (log 16: R347 leaves it open); no byte
of memory, no other register, no FPCR bit, no cache changes, only the PC and the DTB pointer (log 10). -/
def Obligations.FloatLoads : Prop :=
  ∀ row ∈ ([(0x20#6, Instr.ldf, false, fromMemF, .f), (0x21#6, Instr.ldg, true, swapWords, .g),
      (0x22#6, Instr.lds, false, fromMemS, .s), (0x23#6, Instr.ldt, true, id, .t)] :
      List (BitVec 6 × MkMem × Bool × (Word → Word) × FpForm)),
    ∀ ra rb disp a (s : State), decode (encMem row.1 ra rb disp) = .ok (row.2.1 ra rb disp) ∧
      (s.fpe = true →
        s.reachesPlainly ⟨s.readInt rb + disp.signExtend 64, row.2.2.1, false, true, false, false, false, false, ra, row.1⟩ a →
        ∃ t v, exec (row.2.1 ra rb disp) s = .next t ∧ s.datum false row.2.2.1 a v ∧
          s.fpWrite t ra (row.2.2.2.1 v) ∧ t.pc = s.pc + 4#64 ∧
          t.maf = s.mafAfter false row.2.2.1 a (.fp ra row.2.2.2.2) ∧
          s.sameBut { t with fregs := s.fregs, pc := s.pc, maf := s.maf })

/-- STL, STQ and STQ_U have opcodes 2C, 2D and 0F. When the reference reaches address a of the memory-like region and
the Dcache answers plainly, the instruction completes: the 4 or 8 bytes at a, as this processor then reads them behind
the Dcache and in each Dcache bank that holds them, are those of Rav, least significant first (zero for ra = 31), and
every other byte reads as before. The store waits in the write buffer: main memory and the caches behind the Dcache,
and every register, flag and lock, are unchanged; only the PC, the Dcache, the write buffer and the DTB pointer (log
10) change. -/
def Obligations.IntegerStores : Prop :=
  ∀ row ∈ ([(0x2C#6, Instr.stl, false, true), (0x2D#6, Instr.stq, true, true), (0x0F#6, Instr.stqU, true, false)] :
      List (BitVec 6 × MkMem × Bool × Bool)),
    ∀ ra rb disp a (s : State), decode (encMem row.1 ra rb disp) = .ok (row.2.1 ra rb disp) ∧
      (s.reachesPlainly
          ⟨s.readInt rb + disp.signExtend 64, row.2.2.1, true, row.2.2.2, false, false, false, false, ra, row.1⟩ a →
        ∃ t, exec (row.2.1 ra rb disp) s = .next t ∧ s.stored t row.2.2.1 a (s.readInt ra) ∧ t.pc = s.pc + 4#64 ∧
          s.sameBut { t with dcache := s.dcache, wb := s.wb, wbFence := s.wbFence, pc := s.pc })

/-- STF, STG, STS and STT have opcodes 24 to 27. With ICSR<FPE> set, the reference reaching address a of the
memory-like region and the Dcache answering plainly, the instruction completes: the bytes at a, as this processor then
reads them behind the Dcache and in each Dcache bank that holds them, are those of the memory form of Fav (for STT Fav
itself, for STG its four words reversed; FloatMemoryForms says what the forms of STF and STS are), every other byte
reads as before, and no register, flag or lock changes, only the PC, the Dcache, the write buffer and the DTB pointer
(log 10). -/
def Obligations.FloatStores : Prop :=
  ∀ row ∈ ([(0x24#6, Instr.stf, false, toMemF), (0x25#6, Instr.stg, true, swapWords), (0x26#6, Instr.sts, false, toMemS),
      (0x27#6, Instr.stt, true, id)] : List (BitVec 6 × MkMem × Bool × (Word → Word))),
    ∀ ra rb disp a (s : State), decode (encMem row.1 ra rb disp) = .ok (row.2.1 ra rb disp) ∧
      (s.fpe = true →
        s.reachesPlainly ⟨s.readInt rb + disp.signExtend 64, row.2.2.1, true, true, false, false, false, false, ra, row.1⟩ a →
        ∃ t, exec (row.2.1 ra rb disp) s = .next t ∧ s.stored t row.2.2.1 a (row.2.2.2 (s.readFp ra)) ∧ t.pc = s.pc + 4#64 ∧
          s.sameBut { t with dcache := s.dcache, wb := s.wb, wbFence := s.wbFence, pc := s.pc })

/-- For every memory longword m, LDF gives the sign m<15> in bit 63, the fraction m<6:0> and m<31:16> in bits <51:29>,
zeros below, and an exponent that is 0 for m<14:7> = 0 and otherwise 896 more than m<14:7>; LDS does the same with
sign m<31>, fraction m<22:0> and exponent m<30:23>, but exponent 255 gives 2047. STF and STS of such a register value
give m back. Of any register value v STF stores v<44:29> above v<63:62> and v<58:45>, and STS stores v<63:62> above
v<58:29>, whatever the other bits are. Reversing the four words twice gives the quadword back. -/
def Obligations.FloatMemoryForms : Prop :=
  ∀ m : Word,
    ((fromMemF m).getLsbD 63 = m.getLsbD 15 ∧ (fromMemF m).extractLsb' 0 52 = m.extractLsb' 0 7 ++ (m.extractLsb' 16 16 ++ 0#29) ∧
      ((fromMemF m).extractLsb' 52 11).toNat =
        (if (m.extractLsb' 7 8).toNat = 0 then 0 else (m.extractLsb' 7 8).toNat + 896) ∧
      toMemF (fromMemF m) = (m.setWidth 32).setWidth 64) ∧
    ((fromMemS m).getLsbD 63 = m.getLsbD 31 ∧ (fromMemS m).extractLsb' 0 52 = m.extractLsb' 0 23 ++ 0#29 ∧
      ((fromMemS m).extractLsb' 52 11).toNat =
        (if (m.extractLsb' 23 8).toNat = 0 then 0
          else if (m.extractLsb' 23 8).toNat = 255 then 2047 else (m.extractLsb' 23 8).toNat + 896) ∧
      toMemS (fromMemS m) = (m.setWidth 32).setWidth 64) ∧
    toMemF m = 0#32 ++ (m.extractLsb' 29 16 ++ (m.extractLsb' 62 2 ++ m.extractLsb' 45 14)) ∧
    toMemS m = 0#32 ++ (m.extractLsb' 62 2 ++ m.extractLsb' 29 30) ∧
    swapWords (swapWords m) = m ∧ (swapWords m).extractLsb' 0 16 = m.extractLsb' 48 16 ∧
    (swapWords m).extractLsb' 16 16 = m.extractLsb' 32 16

/-- LDL_L and LDQ_L have opcodes 2A and 2B. When the reference reaches address a of the memory-like region and the
Dcache is not in force-hit mode, the instruction completes: Ra receives the datum at a behind the Dcache as for LDL
and LDQ, the lock flag is set and the lock address is a; the load enters the miss address file as a locked entry of
its own, and what happens when that is served is in LoadsServed; nothing else changes but the PC and the DTB pointer
(log 10). That Ra holds its datum at once is the model's choice (log 16). (Force-hit mode: NoncachedAccesses.) -/
def Obligations.LoadLocked : Prop :=
  ∀ row ∈ ([(0x2A#6, Instr.ldlL, false), (0x2B#6, Instr.ldqL, true)] : List (BitVec 6 × MkMem × Bool)),
    ∀ ra rb disp a (s : State), decode (encMem row.1 ra rb disp) = .ok (row.2.1 ra rb disp) ∧
      (s.reaches (Ref.plain (s.readInt rb + disp.signExtend 64) row.2.2 false ra row.1) a →
        s.mbox.dcMode.extractLsb' 0 2 ≠ 3#2 →
        ∃ t v, exec (row.2.1 ra rb disp) s = .next t ∧ s.datum true row.2.2 a v ∧
          s.intWrite t ra (if row.2.2 then v else (v.setWidth 32).signExtend 64) ∧ t.pc = s.pc + 4#64 ∧
          t.lockFlag = true ∧ t.lockAddr = a ∧
          t.maf = s.maf ++ [⟨granule a, [⟨a, row.2.2, .int (s.intSlot ra) (!row.2.2)⟩], true, s.wbHolds (granule a)⟩] ∧
          s.sameBut { t with
            ints := s.ints, shadow := s.shadow, pc := s.pc, lockFlag := s.lockFlag, lockAddr := s.lockAddr, maf := s.maf })

/-- STL_C and STQ_C have opcodes 2E and 2F. When the reference reaches address a of the memory-like region outside the
force-hit modes, the instruction completes: with the lock flag set the bytes at a, as this processor then reads them,
are those of Rav as it was before, every other byte reads as before and Ra receives 1; with the flag clear every byte
reads as before and Ra receives 0; in both cases the lock address is kept and not compared, no Dcache entry gives a
byte of the block of a, a write-buffer entry of its own waits (when it is sent, after every older one, the success is
decided, Ra is written once more, and the lock flag is cleared: EntriesSent; until then no instruction that uses Ra
runs: log 16), and nothing else changes but the PC and the DTB pointer (log 10). In a force-hit mode it is refused by
name (R241 (g)). -/
def Obligations.StoreConditional : Prop :=
  ∀ row ∈ ([(0x2E#6, Instr.stlC, false), (0x2F#6, Instr.stqC, true)] : List (BitVec 6 × MkMem × Bool)),
    ∀ ra rb disp a (s : State), decode (encMem row.1 ra rb disp) = .ok (row.2.1 ra rb disp) ∧
      (s.reaches (Ref.plain (s.readInt rb + disp.signExtend 64) row.2.2 true ra row.1) a →
        (s.scFhit = false → s.bcFhit = false →
          ∃ t, exec (row.2.1 ra rb disp) s = .next t ∧ s.condStored t row.2.2 a ra (s.readInt ra)) ∧
        (s.scFhit = true ∨ s.bcFhit = true → exec (row.2.1 ra rb disp) s = .refused .conditionalInForceHit))

/-- For each of the eighteen loads and stores (the floating ones with ICSR<FPE> set, LDQ_U with ra other than 31): if
translation answers an exception with the condition bits of MM_STAT, the instruction has no effect of its own: VA
becomes the effective address, MM_STAT the opcode, ra and the bits, and both lock, unless they are locked already;
then the entry of the exception is taken with EXC_ADDR the address of the instruction. No register, no byte of memory,
no lock flag, no cache changes; that a DTB hit which ends in an exception leaves the DTB pointer alone is the model's
choice (log 10). -/
def Obligations.DstreamExceptions : Prop :=
  ∀ row ∈ ([(0x28#6, Instr.ldl, false, false, true, false),
      (0x29#6, Instr.ldq, true, false, true, false),
      (0x0B#6, Instr.ldqU, true, false, false, false),
      (0x2A#6, Instr.ldlL, false, false, true, false),
      (0x2B#6, Instr.ldqL, true, false, true, false),
      (0x2C#6, Instr.stl, false, true, true, false),
      (0x2D#6, Instr.stq, true, true, true, false),
      (0x0F#6, Instr.stqU, true, true, false, false),
      (0x2E#6, Instr.stlC, false, true, true, false),
      (0x2F#6, Instr.stqC, true, true, true, false),
      (0x20#6, Instr.ldf, false, false, true, true),
      (0x21#6, Instr.ldg, true, false, true, true),
      (0x22#6, Instr.lds, false, false, true, true),
      (0x23#6, Instr.ldt, true, false, true, true),
      (0x24#6, Instr.stf, false, true, true, true),
      (0x25#6, Instr.stg, true, true, true, true),
      (0x26#6, Instr.sts, false, true, true, true),
      (0x27#6, Instr.stt, true, true, true, true)] :
      List (BitVec 6 × MkMem × Bool × Bool × Bool × Bool)),
    ∀ ra rb disp e bits (s : State),
      let va := s.readInt rb + disp.signExtend 64
      (row.2.2.2.2.2 = true → s.fpe = true) → (row.1 = 0x0B#6 → ra ≠ 31#5) →
      s.translate ⟨va, row.2.2.1, row.2.2.2.1, row.2.2.2.2.1, false, false, false, false, ra, row.1⟩ = .except e bits →
      ∃ t u, exec (row.2.1 ra rb disp) s = .next t ∧
        u = (if s.mbox.mmLock = true then s
          else { s with mbox := { s.mbox with va := va, mmStat := row.1 ++ (ra ++ bits), mmLock := true } }) ∧
        u.trapped t e.offset s.pc

/-- A physical reference gives VA<39:0>. Otherwise an address that is not the sign extension of its low 43 bits gives
DFAULT with ACV and BAD_VA. With MCSR<SP<1>> and VA<42:41> = 2 the physical address is VA<39:0>, with MCSR<SP<0>> and
VA<42:30> = 1FFE hex VA<29:0>, in kernel checking mode and if aligned or alignment does not trap; misaligned it is
UNALIGN, outside kernel mode DFAULT with ACV (D15). The access is made at the aligned datum that holds the addressed
byte, with MCSR<M_BIG_ENDIAN> and a longword with bit 2 inverted. A DTB entry covers a page if it is valid, its tag
and the page number agree after division by 8 to the power of GH, and ASM is set or its ASN is DTB_ASN. The checking
mode is kernel for a virtual PTE fetch, else ALT_MODE with ALT, else DTB_CM. Outside the superpages a reference gives
DTBMISS_SINGLE, or DTBMISS_DOUBLE for a virtual PTE fetch, with DTB_MISS and WR in MM_STAT, exactly when no entry
covers its page. When exactly one does: if the reference is aligned (or alignment does not trap) and the entry allows
it, the physical address is the page frame number with its low 3 * GH bits from the page number, then the byte within
the page; misaligned it gives UNALIGN; if the entry refuses it, DFAULT with ACV, FOR and FOW saying why: a read needs
the read enable of the checking mode and no fault-on-read, a write (and a load with WRTCK) the write enable and no
fault-on-write. -/
def Obligations.TranslateDstream : Prop :=
  (
  (∀ (r : Ref) (s : State),
    (r.phys = true → s.translate r = .ok (BitVec.ofNat 40 (r.va.toNat % 2 ^ 40)) none) ∧
    (r.phys = false → (r.va.toInt < -(2 ^ 42) ∨ 2 ^ 42 ≤ r.va.toInt) →
      s.translate r = .except .dfault ((if r.write then 1#6 else 0#6) ||| 0x22#6)) ∧
    (r.phys = false → -(2 ^ 42) ≤ r.va.toInt → r.va.toInt < 2 ^ 42 → ∀ pa,
      (s.mbox.mcsr.getLsbD 2 = true ∧ r.va.extractLsb' 41 2 = 2#2 ∧ pa = BitVec.ofNat 40 (r.va.toNat % 2 ^ 40) ∨
        (s.mbox.mcsr.getLsbD 2 = false ∨ r.va.extractLsb' 41 2 ≠ 2#2) ∧
          s.mbox.mcsr.getLsbD 1 = true ∧ r.va.extractLsb' 30 13 = 0x1FFE#13 ∧ pa = BitVec.ofNat 40 (r.va.toNat % 2 ^ 30)) →
      ((r.alignTrap = true → r.va.toNat % (if r.quad then 8 else 4) = 0) → s.checkMode r = 0#2 →
        s.translate r = .ok pa none) ∧
      ((r.alignTrap = true → r.va.toNat % (if r.quad then 8 else 4) = 0) → s.checkMode r ≠ 0#2 →
        s.translate r = .except .dfault ((if r.write then 1#6 else 0#6) ||| 2#6)) ∧
      (r.alignTrap = true → r.va.toNat % (if r.quad then 8 else 4) ≠ 0 →
        ∃ bits, s.translate r = .except .unalign bits))) ∧
  ∀ (pa : PAddr) (s : State),
    (∀ r : Ref, s.checkMode r = if r.vpte then 0#2 else if r.alt then s.mbox.altMode else s.mbox.dtbCm) ∧
    s.accessAddress true pa = pa - BitVec.ofNat 40 (pa.toNat % 8) ∧
    (s.mbigEndian = false → s.accessAddress false pa = pa - BitVec.ofNat 40 (pa.toNat % 4)) ∧
    (s.mbigEndian = true → s.accessAddress false pa = (pa - BitVec.ofNat 40 (pa.toNat % 4)) ^^^ 4#40)) ∧ (
  ∀ (r : Ref) (k : Fin 64) (s : State),
    let covers (e : DtbEntry) : Prop :=
      e.valid = true ∧ e.tag.toNat / 8 ^ e.gh.toNat = r.va.toNat / 8192 % 2 ^ 30 / 8 ^ e.gh.toNat ∧
        (e.asm = true ∨ e.asn = s.mbox.dtbAsn)
    r.phys = false → -(2 ^ 42) ≤ r.va.toInt → r.va.toInt < 2 ^ 42 →
    (s.mbox.mcsr.getLsbD 2 = false ∨ r.va.extractLsb' 41 2 ≠ 2#2) →
    (s.mbox.mcsr.getLsbD 1 = false ∨ r.va.extractLsb' 30 13 ≠ 0x1FFE#13) →
    ((∀ j : Fin 64, ¬ covers s.dtb.entries[j]) ↔
      s.translate r = .except (if r.vpte then .dtbMissDouble else .dtbMissSingle) ((if r.write then 1#6 else 0#6) ||| 0x10#6)) ∧
    (covers s.dtb.entries[k] → (∀ j, j ≠ k → ¬ covers s.dtb.entries[j]) →
    let e := s.dtb.entries[k]
    let span := 8 ^ e.gh.toNat
    let mode := (s.checkMode r).toNat
    let noAccess := r.write = false ∧ e.re.getLsbD mode = false ∨
      (r.write = true ∨ r.wrtck = true) ∧ e.we.getLsbD mode = false
    let faultRead := r.write = false ∧ e.faultRd = true
    let faultWrite := (r.write = true ∨ r.wrtck = true) ∧ e.faultWr = true
    ((r.alignTrap = true → r.va.toNat % (if r.quad then 8 else 4) = 0) → ¬ noAccess → ¬ faultRead → ¬ faultWrite →
      ∃ pa, s.translate r = .ok pa (some k) ∧
        pa.toNat = e.pfn.toNat / span * span * 8192 + r.va.toNat % (span * 8192)) ∧
    (r.alignTrap = true → r.va.toNat % (if r.quad then 8 else 4) ≠ 0 → ∃ bits, s.translate r = .except .unalign bits) ∧
    ((r.alignTrap = true → r.va.toNat % (if r.quad then 8 else 4) = 0) → noAccess ∨ faultRead ∨ faultWrite →
      ∃ bits, s.translate r = .except .dfault bits ∧ (bits.getLsbD 0 = true ↔ r.write = true) ∧
        (bits.getLsbD 1 = true ↔ noAccess) ∧ (bits.getLsbD 2 = true ↔ faultRead) ∧ (bits.getLsbD 3 = true ↔ faultWrite) ∧
        bits.getLsbD 4 = false ∧ bits.getLsbD 5 = false)))

/-- In the noncached region, the Dcache not in force-hit mode, every load (LDL, LDQ, LDQ_U with ra other than 31,
LDL_L, LDQ_L, the four floating loads with ICSR<FPE> set, HW_LD) completes: it waits in the miss address file, its
register holds any value until the system answers, and a locked one takes the lock. Every store (STL, STQ, STQ_U, the
four floating stores, HW_ST) completes: it waits in the write buffer with the longwords it fills and their data. In
any Dcache mode STL_C, STQ_C and HW_ST with COND complete there: the store waits in an entry of its own, Ra receives 1
or 0, any until the system decides, and the lock flag is ignored and cleared. In force-hit mode, with no parity error
in either Dcache bank, every such load of either region completes with any value in its register and nothing in the
miss address file, a locked one taking the lock all the same (that it does, and that a Dcache that is not enabled is
in no force-hit mode, is the model's choice, log 13); and every such store completes, written into both Dcache banks
at its index as well as into the write buffer. No other register, no byte of memory, no other part of a cache changes,
only the PC, the count of free values and the DTB pointer (log 10). What the entries become on the external interface
is LoadsServed and EntriesSent; that a model of one processor leaves the answer free is log 17. -/
def Obligations.NoncachedAccesses : Prop :=
  ∀ ra rb a (s : State),
    let force := s.mbox.dcMode.extractLsb' 0 2 = 3#2
    let right (quad write : Bool) := ∀ bank1, (s.dcLook bank1 quad write a).errors = 0#4
    let hits (r : Ref) := (s.reachesDevice r a ∨ s.reaches r a) ∧ force ∧ right r.quad r.write
    let waits (r : Ref) := s.reachesDevice r a ∧ ¬ force
    (∀ disp : BitVec 16,
      let va := s.readInt rb + disp.signExtend 64
      (∀ row ∈ ([(0x28#6, Instr.ldl, false, true, false),
      (0x29#6, Instr.ldq, true, true, false),
      (0x0B#6, Instr.ldqU, true, false, false),
      (0x2A#6, Instr.ldlL, false, true, true),
      (0x2B#6, Instr.ldqL, true, true, true)] :
          List (BitVec 6 × MkMem × Bool × Bool × Bool)), (row.1 = 0x0B#6 → ra ≠ 31#5) →
        let r : Ref := ⟨va, row.2.2.1, false, row.2.2.2.1, false, false, false, false, ra, row.1⟩
        (waits r → ∃ t v, exec (row.2.1 ra rb disp) s = .next t ∧ s.intWrite t ra v ∧ t.fregs = s.fregs ∧
          s.deviceLoaded t row.2.2.2.2 row.2.2.1 a (.int (s.intSlot ra) (!row.2.2.1))) ∧
        (hits r → ∃ t v, exec (row.2.1 ra rb disp) s = .next t ∧ s.intWrite t ra v ∧ t.fregs = s.fregs ∧
          s.forcedLoaded t row.2.2.2.2 a)) ∧
      (∀ row ∈ ([(0x20#6, Instr.ldf, false, .f),
      (0x21#6, Instr.ldg, true, .g),
      (0x22#6, Instr.lds, false, .s),
      (0x23#6, Instr.ldt, true, .t)] :
          List (BitVec 6 × MkMem × Bool × FpForm)), s.fpe = true →
        let r := Ref.plain va row.2.2.1 false ra row.1
        (waits r → ∃ t v, exec (row.2.1 ra rb disp) s = .next t ∧ s.fpWrite t ra v ∧ t.ints = s.ints ∧ t.shadow = s.shadow ∧
          s.deviceLoaded t false row.2.2.1 a (.fp ra row.2.2.2)) ∧
        (hits r → ∃ t v, exec (row.2.1 ra rb disp) s = .next t ∧ s.fpWrite t ra v ∧ t.ints = s.ints ∧ t.shadow = s.shadow ∧
          s.forcedLoaded t false a)) ∧
      (∀ row ∈ ([(0x2C#6, Instr.stl, false, true),
      (0x2D#6, Instr.stq, true, true),
      (0x0F#6, Instr.stqU, true, false)] :
          List (BitVec 6 × MkMem × Bool × Bool)),
        let r : Ref := ⟨va, row.2.2.1, true, row.2.2.2, false, false, false, false, ra, row.1⟩
        (waits r → ∃ t, exec (row.2.1 ra rb disp) s = .next t ∧ s.deviceStored t row.2.2.1 a (s.readInt ra)) ∧
        (hits r → ∃ t, exec (row.2.1 ra rb disp) s = .next t ∧ s.forcedStored t row.2.2.1 a (s.readInt ra))) ∧
      (∀ row ∈ ([(0x24#6, Instr.stf, false, toMemF),
      (0x25#6, Instr.stg, true, swapWords),
      (0x26#6, Instr.sts, false, toMemS),
      (0x27#6, Instr.stt, true, id)] :
          List (BitVec 6 × MkMem × Bool × (Word → Word))), s.fpe = true →
        let r := Ref.plain va row.2.2.1 true ra row.1
        (waits r → ∃ t, exec (row.2.1 ra rb disp) s = .next t ∧ s.deviceStored t row.2.2.1 a (row.2.2.2 (s.readFp ra))) ∧
        (hits r → ∃ t, exec (row.2.1 ra rb disp) s = .next t ∧ s.forcedStored t row.2.2.1 a (row.2.2.2 (s.readFp ra)))) ∧
      (∀ row ∈ ([(0x2E#6, Instr.stlC, false), (0x2F#6, Instr.stqC, true)] : List (BitVec 6 × MkMem × Bool)),
        s.reachesDevice (Ref.plain va row.2.2 true ra row.1) a →
        ∃ t, exec (row.2.1 ra rb disp) s = .next t ∧ s.deviceCond t row.2.2 a ra (s.readInt ra))) ∧
    (∀ (disp : BitVec 10) phys alt wrtck quad vpte lock, (s.palmode = true ∨ s.ibox.icsr.getLsbD 27 = true ∧ s.ibox.icm = 0#2) →
      let va := s.readInt rb + disp.signExtend 64
      let r : Ref := ⟨va, quad, false, false, phys, alt, vpte, wrtck, ra, 0x1B#6⟩
      let w : Ref := ⟨va, quad, true, false, phys, alt, false, false, ra, 0x1F#6⟩
      let store (cond : Bool) := exec (.hwSt ra rb phys alt false quad false cond disp) s
      (waits r → ∃ t v, exec (.hwLd ra rb phys alt wrtck quad vpte lock disp) s = .next t ∧ s.intWrite t ra v ∧
        t.fregs = s.fregs ∧ s.deviceLoaded t lock quad a (.int (s.intSlot ra) (!quad))) ∧
      (hits r → ∃ t v, exec (.hwLd ra rb phys alt wrtck quad vpte lock disp) s = .next t ∧ s.intWrite t ra v ∧
        t.fregs = s.fregs ∧ s.forcedLoaded t lock a) ∧
      (waits w → ∃ t, store false = .next t ∧ s.deviceStored t quad a (s.readInt ra)) ∧
      (hits w → ∃ t, store false = .next t ∧ s.forcedStored t quad a (s.readInt ra)) ∧
      (s.reachesDevice w a → ∃ t, store true = .next t ∧ s.deviceCond t quad a ra (s.readInt ra)))

/-- The oldest entry goes first, while MAF_MODE<MAF_ARB_DISABLE> is clear (R226); one that must wait for its own fill
keeps its place. Where there are none, no outstanding fill has to arrive first (R467). Of the noncached region a store
entry drives one WRITE BLOCK of its 32 bytes in two data cycles with longword masks and data, and an STx_C entry WRITE
BLOCK LOCK, whose answer, where there is one, sets Ra to 1, or to 0 with cfail_h; FETCH and FETCH_M drive their
command. An STx_C entry of the memory-like region whose lock flag is clear when its turn comes, or was when it was
executed, writes 0 to Ra, drives nothing and clears the flag; any other gives 1 if its write is done, else 0, and
clears the flag. The write of an entry, outside force-hit mode, with no fill outstanding, no command of the system
before its answer and no parity error in what is read: a private dirty block, and a clean one with EI_CMD_GRP2 clear,
is merged in the Scache and nothing is driven; a private clean one with EI_CMD_GRP2 set drives SET DIRTY and is
merged; a shared one, with room in the victim buffer, drives WRITE BLOCK of the whole cache block as the entry leaves
it, and the Scache, main memory and an enabled Bcache take it, not dirty, shared as answered, but an STx_C answered
with cfail_h fails and writes nothing. A block that is absent, without a Bcache, with an enabled set, no victim
waiting and no dirty block displaced: READ MISS MOD (for an STx_C READ MISS MOD STC) is driven with the Scache set to
be filled; if the fill of a store is to come later, a miss register holds it and the entry waits; where the
environment gives no answer (main memory answers, not shared, log 17) the lock flag is ANDed with system_lock_flag_h,
a store is merged, and an STx_C too, unless that clears the flag: then it fails and the block is as main memory has
it. That an outstanding fill arrives with the next answer before other commands, and when entries are sent, is the
model's choice (log 16). -/
def Obligations.EntriesSent : Prop :=
  ∀ (s : State) (e : WbEntry),
    let cycles := [(e.mask.extractLsb' 0 4, e.data.extractLsb' 0 128), (e.mask.extractLsb' 4 4, e.data.extractLsb' 128 128)]
    let base : PAddr := e.block ++ 0#5
    let u := s.awaitFills
    let after := mergeHex (s.below e.block) e.data e.mask
    (∀ l, s.wb = l ++ [e] →
      (s.mbox.mafMode.getLsbD 5 = true → s.drainOne = s) ∧
      (s.mbox.mafMode.getLsbD 5 = false → s.pins.idleBc = false →
        (∀ m, s.miss0 = some m ∨ s.miss1 = some m → m.kind ≠ .store) →
        let r := State.sendEntry { s with wb := l } e
        s.drainOne = if r.1 then r.2 else { r.2 with wb := r.2.wb ++ [e] })) ∧
    (s.miss0 = none → s.miss1 = none → u = s) ∧
    (e.block.getLsbD 34 = true → u.before = [] →
      (e.kind = .store → s.sendEntry e =
        (true, { u with busOut := .writeBlock base cycles :: u.busOut, answers := u.answers.tail })) ∧
      ∀ dest, e.kind = .cond dest →
        (u.answers = [] → s.sendEntry e = (true, { u with busOut := .writeBlockLock base cycles :: u.busOut })) ∧
        ∀ a rest, u.answers = a :: rest → s.sendEntry e =
          (true, State.writeSlot { u with busOut := .writeBlockLock base cycles :: u.busOut, answers := rest } dest
            (if a.cfail then 0#64 else 1#64))) ∧
    (e.kind = .fetch → s.sendEntry e = (true, { u with busOut := .fetch (s.blockOf base) :: u.busOut })) ∧
    (e.kind = .fetchM → s.sendEntry e = (true, { u with busOut := .fetchM (s.blockOf base) :: u.busOut })) ∧
    (e.block.getLsbD 34 = false →
      (∀ ok t, s.writeScache .store e = .done ok t → e.kind = .store → s.sendEntry e = (true, t)) ∧
      (∀ t, s.writeScache .store e = .waits t → e.kind = .store → s.sendEntry e = (false, t)) ∧
      ∀ dest, e.kind = .cond dest →
        (∀ ok t, s.writeScache .cond e = .done ok t → e.mask ≠ 0#8 → s.sendEntry e =
          (true, State.writeSlot { t with lockFlag := false } dest (if ok then 1#64 else 0#64))) ∧
        (e.mask = 0#8 ∨ s.lockFlag = false ∧ s.scFhit = false ∧ s.miss0 = none ∧ s.miss1 = none → s.sendEntry e =
          (true, State.writeSlot { s with lockFlag := false } dest 0#64))) ∧
    ∀ w : Want, w = .store ∨ w = .cond ∧ s.lockFlag = true →
      e.mask ≠ 0#8 → s.scFhit = false → s.miss0 = none → s.miss1 = none → s.before = [] → s.scTagErrors e.block = 0#3 →
      (∀ l, s.scFind e.block = some l → (l.sub e.block).bad = 0#8 →
        ((l.sub e.block).shared = false → ((l.sub e.block).dirty = true ∨ s.eiCmdGrp2 = false) →
          ∃ t, s.writeScache w e = .done true t ∧ t.below e.block = after ∧
            { t with scache := s.scache, tally := s.tally } = s) ∧
        ((l.sub e.block).shared = false → (l.sub e.block).dirty = false → s.eiCmdGrp2 = true →
          ∃ t, s.writeScache w e = .done true t ∧ t.below e.block = after ∧ t.busOut = .setDirty (s.blockOf base) :: s.busOut ∧
            t.answers = s.answers.tail ∧
            { t with scache := s.scache, tally := s.tally, busOut := s.busOut, answers := s.answers } = s) ∧
        ((l.sub e.block).shared = true → s.victims.length < 2 → (∀ g ∈ s.blockGranules e.block, s.scBadData g = 0#8) →
          let new (g : Block) := if g = e.block then after else s.below g
          let fails := w = .cond ∧ (s.answers.head?.map (·.cfail)) = some true
          ∃ t, s.writeScache w e = .done (decide (¬ fails)) t ∧
            t.busOut = .writeBlock (s.blockOf base) ((s.blockGranules e.block).flatMap fun g =>
              [(0xF#4, (new g).extractLsb' 0 128), (0xF#4, (new g).extractLsb' 128 128)]) :: s.busOut ∧
            t.answers = s.answers.tail ∧
            (fails → { t with tally := s.tally, busOut := s.busOut, answers := s.answers } = s) ∧
            (¬ fails → t.below e.block = after ∧
              t.mem = (s.blockGranules e.block).foldl (fun m g => m.writeBlock g 0xFF#8 (new g)) s.mem ∧
              (∃ m, t.scFind e.block = some m ∧ (m.sub e.block).dirty = false ∧
                (m.sub e.block).shared = (s.answers.head?.map (·.shared)).getD false) ∧
              { t with
                scache := s.scache, tally := s.tally, busOut := s.busOut, answers := s.answers, mem := s.mem
                bcTags := s.bcTags, bcDatas := s.bcDatas } = s ∧
              (s.bcEnabled = false → t.bcTags = s.bcTags ∧ t.bcDatas = s.bcDatas)))) ∧
      (s.scFind e.block = none → s.bcEnabled = false → s.victims = [] → s.cbox.scCtl.extractLsb' 13 3 ≠ 0#3 →
        let way := s.scVictimWay e.block
        let c := if w = .store then BusEvent.readMissMod false way false (e.address &&& ~~~15#40)
          else .readMissModStc false way false (e.address &&& ~~~15#40)
        s.scRoomDirty way e.block = false →
        (∀ a rest, s.answers = a :: rest → a.later = true → w = .store →
          ∃ t, s.writeScache w e = .waits t ∧ t.busOut = c :: s.busOut ∧ t.answers = rest ∧
            t.miss0 = some ⟨e.address, .store, way⟩ ∧ t.miss1 = none) ∧
        (s.answers = [] → s.scForcedBad = 0#8 →
          let done := w = .store ∨ s.pins.systemLockFlag = true
          ∃ t, s.writeScache w e = .done (decide done) t ∧ t.busOut = c :: s.busOut ∧
            t.lockFlag = (s.lockFlag && s.pins.systemLockFlag) ∧ t.mem = s.mem ∧
            t.below e.block = if done then after else s.below e.block))

/-- No load miss is served while MAF_MODE<MAF_ARB_DISABLE> is set. If the write buffer has an entry of the block, that
entry and all older ones are sent first (R343, R1047). With no entry of the block, no fill outstanding, idle_bc_h
negated and no command of the system before its answer, an entry that is not locked does this. Of the noncached
region: one READ MISS is driven with a bit for each quadword that its loads want; if the system gives the fill later,
miss register 0 holds the entry; if it gives two octawords at once, not to be checked and with no error, every load of
the entry receives its datum, the octaword of the address being the first. Of the memory-like region, a block that the
Scache holds without parity error: nothing is driven, every load receives its datum, and the Dcache takes the block
unless the conflict bit is set. A block that is in no cache, without a Bcache, with no victim waiting and no dirty
block displaced: READ MISS is driven with the Scache set to be filled and the one quadword of the first load in
int4_valid_h (log 17: R426 asks only for a nonzero value); if the system gives the fill later, miss register 0 holds
the entry; where the environment gives no answer, every load receives its datum of the block as main memory has it,
the Scache holds the block, and the lock flag is ANDed with system_lock_flag_h. An LDx_L has one write-buffer entry
sent first (R342), takes the lock, drives LOCK if EI_CMD_GRP2 is set and nothing if it is clear (R367), and then reads
as any load does; that LOCK comes before the read is the model's choice (log 17). A fill that comes later clears its
miss register: two octawords of the noncached region reach every load of the entry; a block of the memory-like region
stands in the Scache then, and the lock flag is ANDed with system_lock_flag_h. When entries are served is log 16. -/
def Obligations.LoadsServed : Prop :=
  (∀ (s : State) (e : MafEntry) (l : MafLoad) rest, e.loads = l :: rest →
    (s.mbox.mafMode.getLsbD 5 = true → s.serveMiss e = (false, s)) ∧
    (s.mbox.mafMode.getLsbD 5 = false → e.locked = false → s.wbHolds e.block = true →
      (s.drainFor e.block).wbHolds e.block = false → s.serveMiss e = (s.drainFor e.block).serveMiss e) ∧
    (s.mbox.mafMode.getLsbD 5 = false → e.locked = true →
      let u := s.drainOne
      u.mbox.mafMode.getLsbD 5 = false → u.pins.idleBc = false → u.wbHolds e.block = false → u.miss0 = none → u.miss1 = none →
      u.before = [] → (∀ a ∈ u.answers, a.later = false) →
      s.serveMiss e = State.serveMiss { u with
        busOut := if u.eiCmdGrp2 then .lock (u.blockOf l.pa) :: u.busOut else u.busOut
        lockFlag := true, lockAddr := l.pa } { e with locked := false }) ∧
    (s.mbox.mafMode.getLsbD 5 = false → s.pins.idleBc = false → e.locked = false → s.wbHolds e.block = false →
      s.miss0 = none → s.miss1 = none → s.before = [] → e.block = granule l.pa →
      let give (h : Hexword) (t : State) := e.loads.foldl (fun t m => t.deliver m.target (hexDatum m.quad m.pa h)) t
      let way := s.scVictimWay e.block
      (l.pa.getLsbD 39 = true →
        let c := BusEvent.readMiss false none false (l.pa &&& ~~~15#40)
          (e.loads.foldr (fun m q => q ||| (1#4 <<< (m.pa.extractLsb' 3 2).toNat)) 0#4)
        (∀ a more, s.answers = a :: more → a.later = true → s.serveMiss e =
          (true, { s with busOut := c :: s.busOut, answers := more, miss0 := some ⟨l.pa, .load e, 0⟩ })) ∧
        ∀ a more x y, s.answers = a :: more → a.later = false → a.fillError = false →
          a.beats = [⟨x, 0#16, true⟩, ⟨y, 0#16, true⟩] → s.serveMiss e =
            (true, give (if l.pa.getLsbD 4 then x ++ y else y ++ x)
              { s with busOut := c :: s.busOut, answers := more, freeCount := s.freeCount + 4 })) ∧
      (∀ m, l.pa.getLsbD 39 = false → s.scFhit = false → s.scFind e.block = some m → s.scTagErrors e.block = 0#3 →
        (m.sub e.block).bad = 0#8 →
        let t : State := { s with tally := .scache false true :: s.tally }
        let h := (m.sub e.block).data
        s.serveMiss e = (true, give h (if e.conflict then t else t.dcFill l.pa h))) ∧
      (l.pa.getLsbD 39 = false → s.scFhit = false → s.scFind e.block = none → s.scTagErrors e.block = 0#3 →
        s.bcEnabled = false → s.victims = [] → s.scRoomDirty way e.block = false →
        let c := BusEvent.readMiss false (some way) false (l.pa &&& ~~~15#40) (1#4 <<< (l.pa.extractLsb' 3 2).toNat)
        (∀ a more, s.answers = a :: more → a.later = true →
          ∃ t, s.serveMiss e = (true, t) ∧ t.busOut = c :: s.busOut ∧ t.answers = more ∧
            t.miss0 = some ⟨l.pa, .load e, way⟩ ∧ t.ints = s.ints ∧ t.shadow = s.shadow ∧ t.fregs = s.fregs) ∧
        (s.answers = [] → s.cbox.scCtl.extractLsb' 13 3 ≠ 0#3 →
          ∃ t, s.serveMiss e = (true, give (s.below e.block) t) ∧ t.busOut = c :: s.busOut ∧ (t.scFind e.block).isSome = true ∧
            t.lockFlag = (s.lockFlag && s.pins.systemLockFlag) ∧
            t.ints = s.ints ∧ t.shadow = s.shadow ∧ t.fregs = s.fregs ∧ t.mem = s.mem)))) ∧
  ∀ (s : State) (register : Bool) (a : SysAnswer) (m : Miss), (if register then s.miss1 else s.miss0) = some m →
    let t := s.takeMiss register a
    (if register then t.miss1 else t.miss0) = none ∧
    (regionOf m.pa = .memory → s.scWayOn m.way = true →
      (t.scFind (granule m.pa)).isSome = true ∧ t.lockFlag = (s.lockFlag && s.pins.systemLockFlag)) ∧
    ∀ e x y, regionOf m.pa = .noncached → m.kind = .load e → a.fillError = false →
      a.beats = [⟨x, 0#16, true⟩, ⟨y, 0#16, true⟩] →
      t = e.loads.foldl (fun t l => t.deliver l.target (hexDatum l.quad l.pa (if m.pa.getLsbD 4 then x ++ y else y ++ x)))
        { (if register then { s with miss1 := none } else { s with miss0 := none } : State) with
          freeCount := s.freeCount + 4 }

/-- With ICSR<FPE> clear, every operate of opcodes 15, 16 and 17, every floating load and store and every floating
branch enters FEN with EXC_ADDR the address of the instruction, and does nothing else. Every word of the opcodes 19,
1B, 1D, 1E and 1F decodes to an instruction which, in a state that is not in PALmode and does not have ICSR<HWE> set
with ICM kernel, enters OPCDEC with EXC_ADDR the address of the instruction, and does nothing else, whatever its other
bits. -/
def Obligations.DisabledInstructions : Prop :=
  (∀ s : State, s.ibox.icsr.getLsbD 26 = false →
    (∀ p ∈ fltvTable ++ fltiTable ++ fltlTable, ∀ fa fb fc,
      ∃ t, exec (p.2 fa fb fc) s = .next t ∧ s.trapped t 0x0580#14 s.pc) ∧
    (∀ mk ∈ [Instr.ldf, Instr.ldg, Instr.lds, Instr.ldt, Instr.stf, Instr.stg, Instr.sts, Instr.stt], ∀ ra rb disp,
      ∃ t, exec (mk ra rb disp) s = .next t ∧ s.trapped t 0x0580#14 s.pc) ∧
    (∀ mk ∈ [Instr.fbeq, Instr.fbne, Instr.fblt, Instr.fble, Instr.fbgt, Instr.fbge], ∀ ra disp,
      ∃ t, exec (mk ra disp) s = .next t ∧ s.trapped t 0x0580#14 s.pc)) ∧
  ∀ w : Longword, w.extractLsb' 26 6 ∈ [0x19#6, 0x1B#6, 0x1D#6, 0x1E#6, 0x1F#6] →
    ∃ i, decode w = .ok i ∧ ∀ s : State, ¬ (s.palmode = true ∨ s.ibox.icsr.getLsbD 27 = true ∧ s.ibox.icm = 0#2) →
      ∃ t, exec i s = .next t ∧ s.trapped t 0x0480#14 s.pc

/-- Every instruction of opcode 16 has the function code of its table. With ICSR<FPE> set, if the operation its
function code stands for (operation, formats, rounding and trap qualifiers decoded from the bits of the code) signals
nothing on its operands, the instruction completes: Fc receives the result (any value where the spec leaves it
UNPREDICTABLE), the operation's status bits are ORed into the FPCR, the PC moves on by 4, and nothing else changes.
What the operation gives is in IeeeArithmeticResult, FloatInputExceptions, FloatCompares and IntegerConversionsExact.
-/
def Obligations.IeeeCompletes : Prop :=
  ∀ p ∈ fltiTable, ∀ fa fb fc (s : State),
    let o := ieeeCode p.1 s.fpControl (s.readFp fa) (s.readFp fb)
    decode (encFp 0x16#6 p.1 fa fb fc) = .ok (p.2 fa fb fc) ∧
      (s.fpe = true → o.sum = 0#6 → ∃ t, exec (p.2 fa fb fc) s = .next t ∧ s.fpDone t fc o)

/-- Every instruction of opcode 15 has the function code of its table. With ICSR<FPE> set, if the operation its
function code stands for (operation, formats, rounding and trap qualifiers decoded from the bits of the code) signals
nothing on its operands, the instruction completes: Fc receives the result (any value where the spec leaves it
UNPREDICTABLE), the operation's status bits are ORed into the FPCR, the PC moves on by 4, and nothing else changes.
What the operation gives is in VaxArithmeticResult, FloatInputExceptions, FloatCompares and IntegerConversionsExact.
-/
def Obligations.VaxCompletes : Prop :=
  ∀ p ∈ fltvTable, ∀ fa fb fc (s : State),
    let o := vaxCode p.1 s.fpControl (s.readFp fa) (s.readFp fb)
    decode (encFp 0x15#6 p.1 fa fb fc) = .ok (p.2 fa fb fc) ∧
      (s.fpe = true → o.sum = 0#6 → ∃ t, exec (p.2 fa fb fc) s = .next t ∧ s.fpDone t fc o)

/-- With ICSR<FPE> set, if the operation of an instruction of opcode 16 or 15 signals anything, Fc receives its result
(any value where it is UNPREDICTABLE), its status bits are ORed into the FPCR, the signalled conditions into
EXC_SUM<16:11> and the bit of Fc into EXC_MASK; without /S, EXC_SUM<SWC> is cleared and stays blocked, with /S it is
set unless blocked; then ARITH is entered with the address of the next instruction. Nothing else changes. That ARITH
is delivered at once is the model's choice (log 6). -/
def Obligations.FloatTraps : Prop :=
  ∀ row ∈ ([(fltiTable, fun fn s => ieeeCode fn s.fpControl), (fltvTable, fun fn s => vaxCode fn s.fpControl)] :
      List (List (BitVec 11 × MkFp) × (BitVec 11 → State → Word → Word → FpOutcome))),
    ∀ p ∈ row.1, ∀ fa fb fc (s : State),
    let o := row.2 p.1 s (s.readFp fa) (s.readFp fb)
    let soft := p.1.getLsbD 10
    s.fpe = true → o.sum ≠ 0#6 →
      ∃ u t, exec (p.2 fa fb fc) s = .next t ∧ u.trapped t 0x0500#14 (s.pc + 4#64) ∧
        s.fpWrite u fc (o.value.getD s.freeNow) ∧ u.fpcr = s.fpcr ||| o.fpcr.setWidth 11 ∧
        (o.value ≠ none → u.freeCount = s.freeCount) ∧
        u.ibox.excSum.extractLsb' 1 6 = s.ibox.excSum.extractLsb' 1 6 ||| o.sum ∧
        u.ibox.excSum.getLsbD 0 = (soft && (s.ibox.excSum.getLsbD 0 || !s.ibox.swcBlocked)) ∧
        u.ibox.swcBlocked = (s.ibox.swcBlocked || !soft) ∧
        u.ibox.excMask = s.ibox.excMask ||| (1#64 <<< (32 + fc.toNat)) ∧
        { u with
          fregs := s.fregs, fpcr := s.fpcr, freeCount := s.freeCount
          ibox := { u.ibox with
            excSum := s.ibox.excSum, excMask := s.ibox.excMask, swcBlocked := s.ibox.swcBlocked } } = s

/-- An IEEE add, subtract, multiply, divide or compare with a NaN, an infinity or a denormal among its operands
signals INV alone and leaves its result UNPREDICTABLE, whatever its qualifiers; a divide of a finite nonzero number by
a zero signals DZE alone; a divide of a zero by a zero signals INV alone. CVTTS, CVTST and CVTTQ of a NaN, an infinity
or a denormal signal INV alone in the same way. A VAX add, subtract, multiply, divide or compare with a reserved
operand or a dirty zero signals INV alone, as do CVTGF, CVTGD and CVTGQ of one, and CVTDG of one in D format, whose
exponent has 8 bits; a divide of a finite number by zero signals DZE alone. -/
def Obligations.FloatInputExceptions : Prop :=
  ∀ (fn : BitVec 11) (c : FpControl) (a b : Word),
    let ieeeBad (w : Word) : Prop :=
      w.extractLsb' 52 11 = 0x7FF#11 ∨ w.extractLsb' 52 11 = 0#11 ∧ w.extractLsb' 0 52 ≠ 0#52
    let vaxBad (w : Word) : Prop := w.extractLsb' 52 11 = 0#11 ∧ w ≠ 0#64
    (fnOp fn < 8 → ieeeBad a ∨ ieeeBad b → ieeeCode fn c a b = ⟨none, 1#6, 1#6⟩) ∧
    (fnOp fn = 3 → ¬ ieeeBad a → b.extractLsb' 0 63 = 0#63 →
      (a.extractLsb' 0 63 ≠ 0#63 → ieeeCode fn c a b = ⟨none, 2#6, 2#6⟩) ∧
      (a.extractLsb' 0 63 = 0#63 → ieeeCode fn c a b = ⟨none, 1#6, 1#6⟩)) ∧
    (fnOp fn < 8 → fnOp fn ≠ 4 → vaxBad a ∨ vaxBad b → vaxCode fn c a b = ⟨none, 1#6, 1#6⟩) ∧
    (fnOp fn = 3 → ¬ vaxBad a → b = 0#64 → vaxCode fn c a b = ⟨none, 2#6, 2#6⟩) ∧
    (fnOp fn = 12 ∧ fnSrc fn = 2 ∨ fnOp fn = 15 → ieeeBad b → ieeeCode fn c a b = ⟨none, 1#6, 1#6⟩) ∧
    (fnOp fn = 12 ∧ fnSrc fn = 2 ∨ fnOp fn = 13 ∨ fnOp fn = 15 → vaxBad b → vaxCode fn c a b = ⟨none, 1#6, 1#6⟩) ∧
    (fnOp fn = 14 ∧ fnSrc fn = 1 → b.extractLsb' 55 8 = 0#8 → b ≠ 0#64 → vaxCode fn c a b = ⟨none, 1#6, 1#6⟩)

/-- For operands that are not NaNs, infinities or denormals, CMPTEQ, CMPTLT, CMPTLE and CMPTUN give 2.0 or +0 by
comparing the numbers -m or +m, where the sign is bit 63 and m is bits <62:0> read as a number: the two zeros are
equal and nothing is unordered. For operands that are not reserved operands or dirty zeros, CMPGEQ, CMPGLT and CMPGLE
do the same and give 0.5 or true zero. None signals anything. -/
def Obligations.FloatCompares : Prop :=
  ∀ a b : Word,
    let key (w : Word) : Int := (if w.getLsbD 63 then -1 else 1) * ((w.extractLsb' 0 63).toNat : Int)
    let truth (p : Bool) : FpOutcome := ⟨some (if p then 0x4000000000000000#64 else 0#64), 0#6, 0#6⟩
    let ieeeOk (w : Word) : Prop :=
      w.extractLsb' 52 11 ≠ 0x7FF#11 ∧ (w.extractLsb' 52 11 = 0#11 → w.extractLsb' 0 52 = 0#52)
    let vaxOk (w : Word) : Prop := w.extractLsb' 52 11 = 0#11 → w = 0#64
    (ieeeOk a → ieeeOk b →
      ieeeCompare .eq a b = truth (decide (key a = key b)) ∧ ieeeCompare .lt a b = truth (decide (key a < key b)) ∧
      ieeeCompare .le a b = truth (decide (key a ≤ key b)) ∧ ieeeCompare .un a b = truth false) ∧
    (vaxOk a → vaxOk b →
      vaxCompare .eq a b = truth (decide (key a = key b)) ∧ vaxCompare .lt a b = truth (decide (key a < key b)) ∧
      vaxCompare .le a b = truth (decide (key a ≤ key b)))

/-- Rounding a nonzero exact value to at least two significant bits gives a significand with exactly that many bits,
and with x the magnitude in units of the last place of the result: chopped, x is in [sig, sig+1); toward minus
infinity the same for a positive value and (sig-1, sig] for a negative one; toward plus infinity the other way round;
to nearest, x is within half a unit, and a tie gives an even significand; in VAX rounding x is in [sig - 1/2, sig +
1/2). The result is marked inexact exactly when x is not sig. -/
def Obligations.RoundingIsCorrect : Prop :=
  ∀ (x : Exact) (mode : Rounding) (prec : Nat), x.num ≠ 0 → x.den ≠ 0 → 2 ≤ prec →
    let r := x.round mode prec
    let p := x.scaled (r.lead - (prec - 1))
    let down := r.sig * p.2 ≤ p.1 ∧ p.1 < (r.sig + 1) * p.2
    let up := r.sig * p.2 < p.1 + p.2 ∧ p.1 ≤ r.sig * p.2
    2 ^ (prec - 1) ≤ r.sig ∧ r.sig < 2 ^ prec ∧ (r.inexact = false ↔ p.1 = r.sig * p.2) ∧
    (mode = .chopped → down) ∧
    (mode = .minus → if x.neg then up else down) ∧
    (mode = .plus → if x.neg then down else up) ∧
    (mode = .nearest → 2 * r.sig * p.2 ≤ 2 * p.1 + p.2 ∧ 2 * p.1 ≤ 2 * r.sig * p.2 + p.2 ∧
      (2 * r.sig * p.2 = 2 * p.1 + p.2 ∨ 2 * p.1 = 2 * r.sig * p.2 + p.2 → r.sig % 2 = 0)) ∧
    (mode = .vax → 2 * r.sig * p.2 ≤ 2 * p.1 + p.2 ∧ 2 * p.1 < 2 * r.sig * p.2 + p.2)

/-- For each format, a sign, an exponent between the least and the greatest of the format and a significand of exactly
its precision: the packed register has that sign; read as an operand of its type it is valid, in the form of its type,
and its value is the significand times two to the exponent less the bias and the precision, plus one. S and T read by
the IEEE rules (bias 1023), F and G by the VAX rules (bias 1025 for a hidden bit worth 1), D by its own (bias 129). -/
def Obligations.PackedValues : Prop :=
  ∀ (neg : Bool) (e : Int) (sig : Nat),
    let worth (x : Exact) (bias : Int) (prec : Nat) : Prop :=
      x.neg = neg ∧ x.den = 1 ∧ x.exp ≤ e - bias - (prec - 1) ∧
        x.num = sig * 2 ^ ((e - bias - (prec - 1)) - x.exp).toNat
    (897 ≤ e → e ≤ 1150 → 2 ^ 23 ≤ sig → sig < 2 ^ 24 →
      let w := Format.s.pack neg e sig
      ieeeValid w = true ∧ sForm w = true ∧ worth (ieeeValue w) 1023 24) ∧
    (1 ≤ e → e ≤ 2046 → 2 ^ 52 ≤ sig → sig < 2 ^ 53 →
      let w := Format.t.pack neg e sig
      ieeeValid w = true ∧ worth (ieeeValue w) 1023 53) ∧
    (897 ≤ e → e ≤ 1151 → 2 ^ 23 ≤ sig → sig < 2 ^ 24 →
      let w := Format.f.pack neg e sig
      vaxValid w = true ∧ fForm w = true ∧ worth (vaxValue w) 1025 24) ∧
    (1 ≤ e → e ≤ 2047 → 2 ^ 52 ≤ sig → sig < 2 ^ 53 →
      let w := Format.g.pack neg e sig
      vaxValid w = true ∧ worth (vaxValue w) 1025 53) ∧
    (1 ≤ e → e ≤ 255 → 2 ^ 55 ≤ sig → sig < 2 ^ 56 →
      let w := Format.d.pack neg e sig
      dValid w = true ∧ worth (dValue w) 129 56)

/-- For an integer n of magnitude at most 2^53, CVTQT in any rounding mode, with any qualifiers and any FPCR, gives a
result and no status bit and no condition, and CVTTQ of that result, in any mode and with any qualifiers, gives n and
no status bit and no condition; the same for CVTQG and CVTGQ. -/
def Obligations.IntegerConversionsExact : Prop :=
  ∀ (n : Int) (q q' : Quals) (c c' : FpControl), -(2 ^ 53) ≤ n → n ≤ 2 ^ 53 →
    (∃ v, ieeeFromInt .t q c (BitVec.ofInt 64 n) = ⟨some v, 0#6, 0#6⟩ ∧
      ieeeToInt q' c' v = ⟨some (BitVec.ofInt 64 n), 0#6, 0#6⟩) ∧
    (∃ v, vaxFromInt .g q c (BitVec.ofInt 64 n) = ⟨some v, 0#6, 0#6⟩ ∧
      vaxToInt q' c' v = ⟨some (BitVec.ofInt 64 n), 0#6, 0#6⟩)

/-- CPYS, CPYSN, CPYSE and CVTLQ have opcode 17 and function codes 020, 021, 022 and 010, MT_FPCR and MF_FPCR 024 and
025, FCMOVEQ, FCMOVNE, FCMOVLT, FCMOVGE, FCMOVLE and FCMOVGT 02A to 02F. With ICSR<FPE> set each completes on any
operands and changes nothing but what follows and the PC: Fc receives the sign of Fav (or its complement, or sign and
exponent) over the rest of Fbv, or for CVTLQ the signed longword Fbv<63:62> and Fbv<58:29>; MT_FPCR stores Fav<62:52>
in the FPCR; MF_FPCR writes the FPCR to Fa: bits <62:52> as stored, bit 63 the OR of bits <57:52>, zeros below; if the
bit-pattern test of a conditional move holds of Fav, Fc takes Fbv, and if not nothing but the PC changes. -/
def Obligations.FloatCopies : Prop :=
  (∀ row ∈ ([(0x020#11, Instr.cpys, fun a b => BitVec.ofNat 64 (a.toNat / 2 ^ 63 * 2 ^ 63 + b.toNat % 2 ^ 63)),
      (0x021#11, Instr.cpysn, fun a b => BitVec.ofNat 64 ((1 - a.toNat / 2 ^ 63) * 2 ^ 63 + b.toNat % 2 ^ 63)),
      (0x022#11, Instr.cpyse, fun a b => BitVec.ofNat 64 (a.toNat / 2 ^ 52 * 2 ^ 52 + b.toNat % 2 ^ 52)),
      (0x010#11, Instr.cvtlq, fun _ b =>
        BitVec.ofInt 64 (BitVec.ofNat 32 (b.toNat / 2 ^ 62 * 2 ^ 30 + b.toNat / 2 ^ 29 % 2 ^ 30)).toInt)] :
      List (BitVec 11 × MkFp × (Word → Word → Word))),
    ∀ fa fb fc (s : State), decode (encFp 0x17#6 row.1 fa fb fc) = .ok (row.2.1 fa fb fc) ∧
      (s.fpe = true →
        ∃ t, exec (row.2.1 fa fb fc) s = .next t ∧ s.onlyFp t fc (row.2.2 (s.readFp fa) (s.readFp fb)))) ∧
  (∀ fa fb fc (s : State),
    decode (encFp 0x17#6 0x024#11 fa fb fc) = .ok (.mtFpcr fa fb fc) ∧
    decode (encFp 0x17#6 0x025#11 fa fb fc) = .ok (.mfFpcr fa fb fc) ∧
    (s.fpe = true →
      exec (.mtFpcr fa fb fc) s = .next { s with fpcr := (s.readFp fa).extractLsb' 52 11, pc := s.pc + 4#64 } ∧
      ∃ t, exec (.mfFpcr fa fb fc) s = .next t ∧
        s.onlyFp t fa ((if s.fpcr.extractLsb' 0 6 = 0#6 then 0#1 else 1#1) ++ (s.fpcr ++ 0#52)))) ∧
  ∀ row ∈ ([(0x02A#11, Instr.fcmoveq, fun a => a.extractLsb' 0 63 = 0#63),
      (0x02B#11, Instr.fcmovne, fun a => a.extractLsb' 0 63 ≠ 0#63),
      (0x02C#11, Instr.fcmovlt, fun a => a.msb = true ∧ a.extractLsb' 0 63 ≠ 0#63),
      (0x02D#11, Instr.fcmovge, fun a => a.msb = false ∨ a.extractLsb' 0 63 = 0#63),
      (0x02E#11, Instr.fcmovle, fun a => a.msb = true ∨ a.extractLsb' 0 63 = 0#63),
      (0x02F#11, Instr.fcmovgt, fun a => a.msb = false ∧ a.extractLsb' 0 63 ≠ 0#63)] :
      List (BitVec 11 × MkFp × (Word → Prop))),
    ∀ fa fb fc (s : State), decode (encFp 0x17#6 row.1 fa fb fc) = .ok (row.2.1 fa fb fc) ∧
      (s.fpe = true →
        (row.2.2 (s.readFp fa) →
          ∃ t, exec (row.2.1 fa fb fc) s = .next t ∧ s.onlyFp t fc (s.readFp fb)) ∧
        (¬ row.2.2 (s.readFp fa) → exec (row.2.1 fa fb fc) s = .next { s with pc := s.pc + 4#64 }))

/-- For every function code of opcode 16 and every FPCR: ADDx, SUBx, MULx and DIVx of valid operands (of S form for
the S type), the divisor not zero, have as exact result x the sum, difference, product or quotient of the numbers
their operands stand for. If x is not zero it is rounded once, in the mode of the code (DYN for /D), to 24 or 53 bits:
beyond the greatest finite number OVF and INE are set, OVF is signalled, with INE if /I and not INED, and the result
is UNPREDICTABLE; below the least UNF and INE are set, the result is true zero, UNF is signalled if /U (not with UNFD,
UNDZ and /S), INE as before; otherwise the result stands for the rounded number, in the form of its type, and INE is
set, and signalled as before, exactly when it is not x. If x is zero the result is a zero, negative for MULx and DIVx
when the signs differ, for ADDx and SUBx when both terms are negative zeros, or are not zeros of one sign and the mode
is minus infinity; nothing is set. CVTTS of a nonzero operand and CVTQS and CVTQT of a nonzero integer deliver x in
the same way; CVTST of an operand in S form copies it. CVTTQ of any valid operand gives the low 64 bits of the integer
to which the operand rounds in the mode of the code; if that integer lies outside -2^63 to 2^63 - 1, IOV is set, and
signalled if /V; if it does, or is not the operand, INE is set, and signalled if /I and not INED. CVTTS of a zero
keeps its sign and CVTQS and CVTQT of 0 give +0 in every mode: the model's choice (log 26). -/
def Obligations.IeeeArithmeticResult : Prop :=
  ∀ p ∈ fltiTable, ∀ (c : FpControl) (a b : Word),
    let fn := p.1
    let o := ieeeCode fn c a b
    let op := fnOp fn
    let single := fnSrc fn == 0
    let isZero (w : Word) : Prop := w.extractLsb' 0 63 = 0#63
    let valid (w : Word) : Prop :=
      w.extractLsb' 52 11 ≠ 0x7FF#11 ∧ (w.extractLsb' 52 11 = 0#11 → w.extractLsb' 0 52 = 0#52)
    let inS (w : Word) : Prop := isZero w ∨ 897 ≤ (w.extractLsb' 52 11).toNat ∧ (w.extractLsb' 52 11).toNat ≤ 1150 ∧
      w.extractLsb' 0 29 = 0#29
    let x := exactResult op (ieeeNumber a) (ieeeNumber b)
    (op < 4 → valid a → valid b → (op = 3 → ¬ isZero b) → (single = true → inS a ∧ inS b) →
      (x ≠ 0 → ieeeDelivers fn single c x o) ∧
      (x = 0 → ∃ neg : Bool, o = ⟨some (BitVec.ofBool neg ++ 0#63), 0#6, 0#6⟩ ∧
        (neg = true ↔
          if 2 ≤ op then a.msb ≠ b.msb
          else if isZero a ∧ isZero b ∧ a.msb = (b.msb != (op == 1)) then a.msb = true
          else fnRounding fn c = .minus))) ∧
    (op = 12 → fnSrc fn = 2 → fn.extractLsb' 8 2 ≠ 2#2 → valid b →
      (isZero b → o = ⟨some b, 0#6, 0#6⟩) ∧ (¬ isZero b → ieeeDelivers fn true c (ieeeNumber b) o)) ∧
    (op = 12 → fnSrc fn = 2 → fn.extractLsb' 8 2 = 2#2 → valid b → inS b → o = ⟨some b, 0#6, 0#6⟩) ∧
    (op = 12 ∧ fnSrc fn = 3 ∨ op = 14 →
      (b = 0#64 → o = ⟨some 0#64, 0#6, 0#6⟩) ∧ (b ≠ 0#64 → ieeeDelivers fn (op == 12) c b.toInt o)) ∧
    (op = 15 → valid b →
      let n := (fnRounding fn c).integer (ieeeNumber b)
      let wide := n < -(2 ^ 63) ∨ 2 ^ 63 ≤ n
      let inexact := wide ∨ (n : ℚ) ≠ ieeeNumber b
      o = ⟨some (BitVec.ofInt 64 n), (if wide then 32#6 else 0#6) ||| (if inexact then 16#6 else 0#6),
        (if wide ∧ fn.getLsbD 8 = true then 32#6 else 0#6) |||
          (if inexact ∧ fn.getLsbD 9 = true ∧ c.ined = false then 16#6 else 0#6)⟩)

/-- For every function code of opcode 15: ADDx, SUBx, MULx and DIVx of F and G type, of operands that are neither
reserved nor dirty zeros, the divisor not zero, and CVTGF, CVTGD, CVTDG, CVTQF and CVTQG, have as exact result the
sum, difference, product, quotient, operand or integer. A zero gives true zero. Otherwise it is rounded once to the
24, 53 or 56 bits of the destination, chopped with /C, else to nearest with ties away from zero: beyond the greatest
number of the format OVF is set and signalled and the result is UNPREDICTABLE; below the least UNF is set, the result
is true zero, and UNF is signalled if /U (not with FPCR<UNFD>, FPCR<UNDZ> and /S); otherwise the result stands for the
rounded number, nothing is set and there is no inexact condition. CVTGQ of a valid operand gives the low 64 bits of
the integer to which the operand rounds, chopped with /C, else to nearest with ties away from zero; if that integer
lies outside -2^63 to 2^63 - 1, IOV is set, and signalled if /V. An F operand counts with its whole exponent and
fraction (R803; log 26). -/
def Obligations.VaxArithmeticResult : Prop :=
  ∀ p ∈ fltvTable, ∀ (c : FpControl) (a b : Word),
    let fn := p.1
    let o := vaxCode fn c a b
    let op := fnOp fn
    let valid (w : Word) : Prop := w.extractLsb' 52 11 = 0#11 → w = 0#64
    (op < 4 → valid a → valid b → (op = 3 → b ≠ 0#64) →
      vaxDelivers fn (if fnSrc fn = 0 then .f else .g) c (exactResult op (vaxNumber a) (vaxNumber b)) o) ∧
    (op = 12 → fnSrc fn = 2 → valid b → vaxDelivers fn .f c (vaxNumber b) o) ∧
    (op = 13 → valid b → vaxDelivers fn .d c (vaxNumber b) o) ∧
    (op = 14 → fnSrc fn = 1 → (b.extractLsb' 55 8 = 0#8 → b = 0#64) → vaxDelivers fn .g c (dNumber b) o) ∧
    (op = 12 ∨ op = 14 → fnSrc fn = 3 → vaxDelivers fn (if op = 12 then .f else .g) c b.toInt o) ∧
    (op = 15 → valid b →
      let n := Rounding.integer (if fn.extractLsb' 6 2 = 0#2 then .chopped else .vax) (vaxNumber b)
      let wide := n < -(2 ^ 63) ∨ 2 ^ 63 ≤ n
      o = ⟨some (BitVec.ofInt 64 n), if wide then 32#6 else 0#6, if wide ∧ fn.getLsbD 8 = true then 32#6 else 0#6⟩)

/-- CVTQL, CVTQL/V and CVTQL/SV have opcode 17 and function codes 030, 130 and 530. With ICSR<FPE> set, Fc always
receives Fbv<31:0> in longword register form. If Fbv is the sign extension of that longword, nothing else but the PC
changes; if not, FPCR<IOV> and FPCR<INE> are set, and CVTQL completes, while the other two also set EXC_SUM<IOV> and
the mask bit of Fc, SWC as their /S says, and enter ARITH with the address of the next instruction. That ARITH is
delivered at once is the model's choice (log 6). -/
def Obligations.ConvertQuadToLong : Prop :=
  ∀ row ∈ ([(0x030#11, Instr.cvtql, false, false), (0x130#11, Instr.cvtqlV, true, false), (0x530#11, Instr.cvtqlSv, true, true)] :
      List (BitVec 11 × MkFp × Bool × Bool)),
    ∀ fa fb fc (s : State),
      let b := s.readFp fb
      let v : Word := b.extractLsb' 30 2 ++ (0#3 ++ (b.extractLsb' 0 30 ++ 0#29))
      let fits := -(2 ^ 31) ≤ b.toInt ∧ b.toInt < 2 ^ 31
      decode (encFp 0x17#6 row.1 fa fb fc) = .ok (row.2.1 fa fb fc) ∧
      (s.fpe = true →
        (fits → ∃ t, exec (row.2.1 fa fb fc) s = .next t ∧ s.onlyFp t fc v) ∧
        (¬ fits → row.2.2.1 = false →
          ∃ t, exec (row.2.1 fa fb fc) s = .next t ∧ t.fpcr = s.fpcr ||| 0x030#11 ∧ s.onlyFp { t with fpcr := s.fpcr } fc v) ∧
        (¬ fits → row.2.2.1 = true →
          ∃ u t, exec (row.2.1 fa fb fc) s = .next t ∧ u.trapped t 0x0500#14 (s.pc + 4#64) ∧ s.fpWrite u fc v ∧
            u.fpcr = s.fpcr ||| 0x030#11 ∧ u.ibox.excSum.extractLsb' 1 6 = s.ibox.excSum.extractLsb' 1 6 ||| 0x20#6 ∧
            u.ibox.excSum.getLsbD 0 = (row.2.2.2 && (s.ibox.excSum.getLsbD 0 || !s.ibox.swcBlocked)) ∧
            u.ibox.excMask = s.ibox.excMask ||| (1#64 <<< (32 + fc.toNat)) ∧
            { u with
              fregs := s.fregs, fpcr := s.fpcr
              ibox := { u.ibox with
                excSum := s.ibox.excSum, excMask := s.ibox.excMask, swcBlocked := s.ibox.swcBlocked } } = s))

/-- Each of the opcodes 01 to 07, 0A, 0C, 0D, 0E, 14 and 1C, whatever its other bits, enters OPCDEC with EXC_ADDR the
address of the instruction, in every mode, PALmode included, and does nothing else. (That they do is the spec's
decision D16.) Only words of opcodes 10 to 13 and 15 to 18 can fail to decode. Such a word completes: in opcodes 10 to
13 only Rc may change, to any value; in opcodes 15 to 17 with ICSR<FPE> set only Fc, but opcode 16 with source type 01
enters FEN, as do all of opcodes 15 to 17 with ICSR<FPE> clear; in opcode 18 nothing but the PC changes. (The spec
decides so in D17.) -/
def Obligations.IllegalWords : Prop :=
  (∀ row ∈ ([(0x01#6, Instr.opc01),
      (0x02#6, Instr.opc02),
      (0x03#6, Instr.opc03),
      (0x04#6, Instr.opc04),
      (0x05#6, Instr.opc05),
      (0x06#6, Instr.opc06),
      (0x07#6, Instr.opc07),
      (0x0A#6, Instr.opc0a),
      (0x0C#6, Instr.opc0c),
      (0x0D#6, Instr.opc0d),
      (0x0E#6, Instr.opc0e),
      (0x14#6, Instr.opc14),
      (0x1C#6, Instr.opc1c)] :
      List (BitVec 6 × (BitVec 26 → Instr))),
    ∀ rest (s : State), decode (row.1 ++ rest) = .ok (row.2 rest) ∧
      ∃ t, exec (row.2 rest) s = .next t ∧ s.trapped t 0x0480#14 s.pc) ∧
  ∀ (w : Longword) (r : Reject) (s : State), decode w = .error r →
    let op := w.extractLsb' 26 6
    let rc := w.extractLsb' 0 5
    let fen := ∃ t, s.runWord w = .next t ∧ s.trapped t 0x0580#14 s.pc
    let anyFp := ∃ t v, s.runWord w = .next t ∧ s.onlyFp { t with freeCount := s.freeCount } rc v
    if op ∈ [0x10#6, 0x11#6, 0x12#6, 0x13#6] then
      ∃ t v, s.runWord w = .next t ∧ s.onlyInt { t with freeCount := s.freeCount } rc v
    else if op = 0x16#6 then (if s.fpe = true ∧ w.extractLsb' 9 2 ≠ 1#2 then anyFp else fen)
    else if op ∈ [0x15#6, 0x17#6] then (if s.fpe = true then anyFp else fen)
    else op = 0x18#6 ∧ s.runWord w = .next { s with pc := s.pc + 4#64 }

/-- CALL_PAL with function 0, 2 or 86 decodes to CALL_PAL_HALT, CALL_PAL_DRAINA or CALL_PAL_IMB, with any other
function to CALL_PAL. A function from 80 to BF, or from 0 to 3F in kernel mode, completes: the PC becomes PAL_BASE
plus 2000 (for 80 to BF, 3000) plus 40 times its low six bits, EXC_ADDR pc + 4 with the PALmode flag in bit 0, PALmode
is set, and nothing else changes, not the lock flag, not the interrupt flag. Any other function enters OPCDEC with
EXC_ADDR the address of the instruction. -/
def Obligations.CallPalDispatch : Prop :=
  ∀ (f : BitVec 26) (s : State),
    let i := if f = 0x00#26 then Instr.callPalHalt else if f = 0x02#26 then .callPalDraina
      else if f = 0x86#26 then .callPalImb else .callPal f
    let privileged := f.toNat ≤ 0x3F
    let unprivileged := 0x80 ≤ f.toNat ∧ f.toNat ≤ 0xBF
    decode (encPal 0x00#6 f) = .ok i ∧
    ∀ j ∈ [i, .callPal f],
      (unprivileged ∨ privileged ∧ s.ibox.icm = 0#2 →
        exec j s = .next { s with
          pc := s.ibox.palBase ++ BitVec.ofNat 14 ((if privileged then 0x2000 else 0x3000) + 0x40 * (f.toNat % 64))
          palmode := true
          ibox := { s.ibox with excAddr := ((s.pc + 4#64) &&& ~~~3#64) ||| ofBool64 s.palmode } }) ∧
      (¬ unprivileged → ¬ (privileged ∧ s.ibox.icm = 0#2) →
        ∃ t, exec j s = .next t ∧ s.trapped t 0x0480#14 s.pc)

/-- Taking any exception leaves only what R700 says: PC at the entry of Table 6-1, PALmode, EXC_ADDR, the interrupt
flag clear. HW_REI and HW_REI_STALL (TYP 10 and 11), where the PALcode opcodes are available, take the PC and the
PALmode flag from EXC_ADDR and change nothing else, but that HW_REI_STALL makes what has been written into the ITB
good, and HW_REI after such a write without it leaves Istream translation UNPREDICTABLE until the next HW_REI_STALL
(R683); TYP 00 and 01 are UNPREDICTABLE and refused by name (D17). HW_REI right after an exception taken with a return
address that is a multiple of 4 comes back to that address and that PALmode flag with everything as it was but
EXC_ADDR and the interrupt flag. -/
def Obligations.ExceptionEntryAndReturn : Prop :=
  ([Entry.reset, .iaccvio, .interrupt, .itbMiss, .dtbMissSingle, .dtbMissDouble, .unalign, .dfault, .mchk, .opcdec,
      .arith, .fen].map Entry.offset =
    [0x0000#14, 0x0080#14, 0x0100#14, 0x0180#14, 0x0200#14, 0x0280#14, 0x0300#14, 0x0380#14, 0x0400#14, 0x0480#14,
      0x0500#14, 0x0580#14]) ∧
  (∀ (e : Entry) (a : Word) (s : State), s.trapped (s.trap e a) e.offset a) ∧
  (∀ ra rb typ mbz (s : State), (s.palmode = true ∨ s.ibox.icsr.getLsbD 27 = true ∧ s.ibox.icm = 0#2) →
    (typ = 3#2 →
      exec (.hwRei ra rb typ mbz) s = .next { s with
        pc := s.ibox.excAddr - (s.ibox.excAddr &&& 3#64), palmode := s.ibox.excAddr.getLsbD 0
        itbPending := false, istreamLost := false }) ∧
    (typ = 2#2 →
      exec (.hwRei ra rb typ mbz) s = .next { s with
        pc := s.ibox.excAddr - (s.ibox.excAddr &&& 3#64), palmode := s.ibox.excAddr.getLsbD 0
        istreamLost := s.istreamLost || s.itbPending }) ∧
    (typ = 0#2 ∨ typ = 1#2 → exec (.hwRei ra rb typ mbz) s = .refused .hwReiType)) ∧
  ∀ (e : Entry) (a : Word) ra rb mbz (s : State), a &&& 3#64 = 0#64 →
    exec (.hwRei ra rb 2#2 mbz) (s.trap e a) = .next { s with
      pc := a, intrFlag := false, istreamLost := s.istreamLost || s.itbPending
      ibox := { s.ibox with excAddr := a ||| ofBool64 s.palmode } }

/-- Where the PALcode opcodes are available, HW_LD with any modifiers whose reference reaches address a of the
memory-like region completes, with LOCK unless the Dcache is in force-hit mode, without it where the Dcache answers
plainly: Ra receives the datum of 4 bytes, sign-extended, or 8 bytes at a; with LOCK the lock flag is set and the lock
address is a; a load that the Dcache serves enters nothing in the miss address file, a miss and every load with LOCK
gets an entry of its own at its end, and nothing else changes but the PC and the DTB pointer. (That a miss gets an
entry of its own, never merged with those of other loads, and that its datum is there at once, is the model's choice,
log 16; R347 leaves both open.) If translation answers an exception, VA and MM_STAT are loaded unless locked and the
entry is taken with EXC_ADDR the address of the instruction; that a DTB hit which ends so leaves the DTB pointer alone
is the model's choice (log 10). -/
def Obligations.PalLoads : Prop :=
  ∀ ra rb phys alt wrtck quad vpte lock disp (s : State), (s.palmode = true ∨ s.ibox.icsr.getLsbD 27 = true ∧ s.ibox.icm = 0#2) →
    let va := s.readInt rb + disp.signExtend 64
    let r : Ref := ⟨va, quad, false, false, phys, alt, vpte, wrtck, ra, 0x1B#6⟩
    (∀ a, s.reaches r a → (if lock then s.mbox.dcMode.extractLsb' 0 2 ≠ 3#2 else s.dcSteady quad false a) →
      ∃ t v, exec (.hwLd ra rb phys alt wrtck quad vpte lock disp) s = .next t ∧ s.datum lock quad a v ∧
        s.intWrite t ra (if quad then v else (v.setWidth 32).signExtend 64) ∧ t.pc = s.pc + 4#64 ∧
        t.lockFlag = (lock || s.lockFlag) ∧ t.lockAddr = (if lock then a else s.lockAddr) ∧
        t.maf = s.mafAfter lock quad a (.int (s.intSlot ra) (!quad)) ∧
        s.sameBut { t with
          ints := s.ints, shadow := s.shadow, pc := s.pc, lockFlag := s.lockFlag, lockAddr := s.lockAddr, maf := s.maf }) ∧
    (∀ e bits, s.translate r = .except e bits →
      ∃ t u, exec (.hwLd ra rb phys alt wrtck quad vpte lock disp) s = .next t ∧
        u = (if s.mbox.mmLock = true then s
          else { s with mbox := { s.mbox with va := va, mmStat := 0x1B#6 ++ (ra ++ bits), mmLock := true } }) ∧
        u.trapped t e.offset s.pc)

/-- Where the PALcode opcodes are available, HW_ST with bits <13> and <11> clear whose reference reaches address a of
the memory-like region completes: without COND, where the Dcache answers plainly, the 4 or 8 bytes at a as this
processor then reads them are those of Rav, every other byte reads as before and no register changes; with COND,
outside the force-hit modes, it does what STL_C and STQ_C do (StoreConditional). If translation answers an exception,
VA and MM_STAT are loaded unless locked and the entry is taken with EXC_ADDR the address of the instruction; that a
DTB hit which ends so leaves the DTB pointer alone is the model's choice (log 10). With bit <13> or <11> set it is
UNPREDICTABLE and refused by name (D17). -/
def Obligations.PalStores : Prop :=
  ∀ ra rb phys alt mbz13 quad mbz11 cond disp (s : State), (s.palmode = true ∨ s.ibox.icsr.getLsbD 27 = true ∧ s.ibox.icm = 0#2) →
    let va := s.readInt rb + disp.signExtend 64
    let r : Ref := ⟨va, quad, true, false, phys, alt, false, false, ra, 0x1F#6⟩
    let i := Instr.hwSt ra rb phys alt mbz13 quad mbz11 cond disp
    (mbz13 = true ∨ mbz11 = true → exec i s = .refused .hwStMustBeZero) ∧
    (mbz13 = false → mbz11 = false →
      (∀ a, cond = false → s.reachesPlainly r a →
        ∃ t, exec i s = .next t ∧ s.stored t quad a (s.readInt ra) ∧ t.pc = s.pc + 4#64 ∧
          s.sameBut { t with dcache := s.dcache, wb := s.wb, wbFence := s.wbFence, pc := s.pc }) ∧
      (∀ a, cond = true → s.scFhit = false → s.bcFhit = false → s.reaches r a →
        ∃ t, exec i s = .next t ∧ s.condStored t quad a ra (s.readInt ra)) ∧
      (∀ e bits, s.translate r = .except e bits →
        ∃ t u, exec i s = .next t ∧
          u = (if s.mbox.mmLock = true then s
            else { s with mbox := { s.mbox with va := va, mmStat := 0x1F#6 ++ (ra ++ bits), mmLock := true } }) ∧
          u.trapped t e.offset s.pc))

/-- Where the PALcode opcodes are available, HW_MTPR to every register of the two index ranges completes, unless it
writes a one to the must-be-zero bits 3 or 5 of MCSR, which is refused by name, and changes no general, shadow or
floating-point register, no byte of memory, no lock and no flag, only the PC and internal processor registers,
translation buffers, caches, the mark of an ITB write and the count of free values; IprWriteEffects and
TranslationBuffers say exactly what, register by register. An index that names no register is UNDEFINED and refused by
name. For ITB_ASN, SIRR, ASTRR, ASTER, EXC_ADDR, PAL_BASE, ICM, IPLR, IVPTBR, ICSR, PMCTR, the PALtemps, MCSR,
DC_TEST_CTL, DC_MODE and MAF_MODE, a following HW_MFPR returns the written value in the stored bits. -/
def Obligations.IprWrites : Prop :=
  (∀ ra rb index (s : State), (s.palmode = true ∨ s.ibox.icsr.getLsbD 27 = true ∧ s.ibox.icm = 0#2) →
    (∀ r, iprOf index = some r → (index = 0x20F#16 → (s.readInt ra).getLsbD 3 = false ∧ (s.readInt ra).getLsbD 5 = false) →
      ∃ t, exec (.hwMtpr ra rb index) s = .next t ∧ t.pc = s.pc + 4#64 ∧
        { t with
          pc := s.pc, ibox := s.ibox, mbox := s.mbox, palTemps := s.palTemps, itb := s.itb, dtb := s.dtb
          icache := s.icache, dcache := s.dcache, itbPending := s.itbPending, freeCount := s.freeCount } = s) ∧
    (index = 0x20F#16 → (s.readInt ra).getLsbD 3 = true ∨ (s.readInt ra).getLsbD 5 = true →
      exec (.hwMtpr ra rb index) s = .refused .mustBeZeroBit) ∧
    (iprOf index = none → exec (.hwMtpr ra rb index) s = .refused .undefinedIprIndex)) ∧
  ∀ row ∈ ([(0x103#16, 0x7F0#64), (0x108#16, ~~~0#64), (0x109#16, 0xF#64), (0x10A#16, 0xF#64), (0x10B#16, ~~~0#64),
      (0x10E#16, ~~~0#64), (0x10F#16, ~~~0#64), (0x110#16, ~~~0#64), (0x113#16, 0xFFFFFFFE3FFFFFFF#64), (0x118#16, 0x9F7FF00300#64), (0x11C#16, ~~~0#64),
      (0x20F#16, 0x3F#64), (0x213#16, 0x1FFF#64), (0x216#16, 0xF#64), (0x217#16, 0x3F#64)] ++
      (List.range 24).map (fun k => (BitVec.ofNat 16 (0x140 + k), ~~~0#64)) : List (BitVec 16 × Word)),
    let kept : Word := if row.1 = 0x103#16 then 0x7F0#64 else if row.1 = 0x108#16 then 0x7FFF0#64
      else if row.1 = 0x10B#16 then ~~~2#64 else if row.1 = 0x10E#16 then ~~~0x3FFF#64
      else if row.1 = 0x10F#16 then 0x18#64 else if row.1 = 0x110#16 then 0x1F#64
      else if row.1 = 0x113#16 then 0xFFFFFFFFC0000000#64 else ~~~0#64
    ∀ ra rb ra' rb' (s t : State), (s.palmode = true ∨ s.ibox.icsr.getLsbD 27 = true ∧ s.ibox.icm = 0#2) → t.palAllowed = true → ra' ≠ 31#5 →
      exec (.hwMtpr ra rb row.1) s = .next t →
      ∃ u, exec (.hwMfpr ra' rb' row.1) t = .next u ∧ u.readInt ra' &&& row.2 = s.readInt ra &&& kept &&& row.2

/-- Where the PALcode opcodes are available, a HW_MTPR of each index moves the PC on by 4 and changes exactly this:
ITB_TAG, SIRR, ASTRR, ASTER, PAL_BASE, ICM, IPLR, IVPTBR, PMCTR, DTB_ASN, DTB_CM, MVPTBR, ALT_MODE, DC_TEST_CTL,
DC_MODE, MAF_MODE and the PALtemps take their fields of the value; EXC_ADDR all of it but bit 1; ITB_ASN its field, to
be followed by HW_REI_STALL; EXC_SUM clears EXC_SUM, its block on SWC and EXC_MASK; HWINT_CLR clears the
performance-counter, correctable-error and serial-line requests that it names; SL_XMIT takes bit 7; ICPERR_STAT clears
the bits written one; DC_PERR_STAT clears all but SEO if LOCK is written one, and SEO if SEO is; CC takes the high
half; CC_CTL the enable and bits <31:4> of the low half; ICSR and MCSR their writable bits, ICSR<37> being any value
if written zero; IC_FLUSH_CTL empties the Icache, leaves of the refill buffer some blocks or none, and starts the
count of instructions (log 12); DC_FLUSH clears the valid bits of both banks; DC_TEST_TAG writes tag, tag parity and
valid bits of the block DC_TEST_CTL names, in the banks it names. A write to a read-only register changes nothing else
(D4). The other indexes are in TranslationBuffers. -/
def Obligations.IprWriteEffects : Prop :=
  ∀ ra rb (s : State), (s.palmode = true ∨ s.ibox.icsr.getLsbD 27 = true ∧ s.ibox.icm = 0#2) →
    let v := s.readInt ra
    let wr (index : BitVec 16) := exec (.hwMtpr ra rb index) s
    (∀ row ∈ ([(0x101#16, { s with ibox := { s.ibox with itbTag := v.extractLsb' 13 30 } }),
      (0x103#16, { s with ibox := { s.ibox with itbAsn := v.extractLsb' 4 7 }, itbPending := true }),
      (0x108#16, { s with ibox := { s.ibox with sirr := v.extractLsb' 4 15 } }),
      (0x109#16, { s with ibox := { s.ibox with astrr := v.extractLsb' 0 4 } }),
      (0x10A#16, { s with ibox := { s.ibox with aster := v.extractLsb' 0 4 } }),
      (0x10B#16, { s with ibox := { s.ibox with excAddr := v &&& ~~~2#64 } }),
      (0x10C#16, { s with ibox := { s.ibox with excSum := 0#7, swcBlocked := false, excMask := 0#64 } }),
      (0x10E#16, { s with ibox := { s.ibox with palBase := v.extractLsb' 14 50 } }),
      (0x10F#16, { s with ibox := { s.ibox with icm := v.extractLsb' 3 2 } }),
      (0x110#16, { s with ibox := { s.ibox with iplr := v.extractLsb' 0 5 } }),
      (0x113#16, { s with ibox := { s.ibox with ivptbr := v.extractLsb' 30 34 } }),
      (0x115#16, { s with ibox := { s.ibox with
        pcReq := s.ibox.pcReq &&& ~~~v.extractLsb' 27 3, crdReq := s.ibox.crdReq && !v.getLsbD 32
        sliReq := s.ibox.sliReq && !v.getLsbD 33 } }),
      (0x116#16, { s with ibox := { s.ibox with slXmit := v.getLsbD 7 } }),
      (0x11A#16, { s with ibox := { s.ibox with icperrStat := s.ibox.icperrStat &&& ~~~v.extractLsb' 11 3 } }),
      (0x11C#16, { s with ibox := { s.ibox with pmctr := v } }),
      (0x200#16, { s with mbox := { s.mbox with dtbAsn := v.extractLsb' 57 7 } }),
      (0x201#16, { s with mbox := { s.mbox with dtbCm := v.extractLsb' 3 2 } }),
      (0x208#16, { s with mbox := { s.mbox with mvptbr := v.extractLsb' 30 34 } }),
      (0x20C#16, { s with mbox := { s.mbox with altMode := v.extractLsb' 3 2 } }),
      (0x20D#16, { s with mbox := { s.mbox with ccHi := v.extractLsb' 32 32 } }),
      (0x20E#16, { s with mbox := { s.mbox with ccLo := v.extractLsb' 4 28 ++ 0#4, ccEna := v.getLsbD 32 } }),
      (0x212#16, { s with mbox := { s.mbox with 
        dcPerrStat := (if v.getLsbD 1 then s.mbox.dcPerrStat &&& 1#6 else s.mbox.dcPerrStat) &&& (if v.getLsbD 0 then 0x3E#6 else 0x3F#6) } }),
      (0x213#16, { s with mbox := { s.mbox with dcTestCtl := v.extractLsb' 0 13 } }),
      (0x216#16, { s with mbox := { s.mbox with dcMode := v.extractLsb' 0 4 } }),
      (0x217#16, { s with mbox := { s.mbox with mafMode := v.extractLsb' 0 6 } })] :
      List (BitVec 16 × State)), wr row.1 = .next { row.2 with pc := s.pc + 4#64 }) ∧
    (∀ index ∈ [0x100#16, 0x104#16, 0x10D#16, 0x111#16, 0x112#16, 0x117#16, 0x204#16, 0x205#16, 0x206#16, 0x207#16, 0x215#16],
      wr index = .next { s with pc := s.pc + 4#64 }) ∧
    (∀ k : Fin 24, wr (BitVec.ofNat 16 (0x140 + k.val)) = .next { s with palTemps := s.palTemps.set k v, pc := s.pc + 4#64 }) ∧
    (let icsr := v &&& 0xBF7FF00300#64 ||| s.ibox.icsr &&& 0x4000000000#64;
      (v.getLsbD 37 = true → wr 0x118#16 = .next { s with ibox := { s.ibox with icsr := icsr }, pc := s.pc + 4#64 }) ∧
      (v.getLsbD 37 = false → ∃ bit37 : Word, wr 0x118#16 = .next { s with
        ibox := { s.ibox with icsr := icsr ||| bit37 &&& 0x2000000000#64 }
        pc := s.pc + 4#64, freeCount := s.freeCount + 1 })) ∧
    (v.getLsbD 3 = false → v.getLsbD 5 = false →
      wr 0x20F#16 = .next { s with mbox := { s.mbox with mcsr := v.extractLsb' 0 6 }, pc := s.pc + 4#64 }) ∧
    (∃ t, ∃ l : List RefillLine, wr 0x119#16 = .next t ∧ t.pc = s.pc + 4#64 ∧ l.Sublist s.icache.refill ∧
      t.icache = ⟨[], l.map fun r => { r with old := true }, 45⟩ ∧
      { t with pc := s.pc, icache := s.icache, freeCount := s.freeCount } = s) ∧
    (∃ t, wr 0x210#16 = .next t ∧ t.pc = s.pc + 4#64 ∧ { t with pc := s.pc, dcache := s.dcache } = s ∧
      ∀ bank1 i, dcGet i (t.dcache.bank bank1) = { dcGet i (s.dcache.bank bank1) with valid0 := false, valid1 := false }) ∧
    ∃ t, wr 0x214#16 = .next t ∧ t.pc = s.pc + 4#64 ∧ { t with pc := s.pc, dcache := s.dcache } = s ∧
      ∀ bank1 i, dcGet i (t.dcache.bank bank1) =
        if s.mbox.dcTestCtl.getLsbD (if bank1 then 1 else 0) = true ∧ i = (s.mbox.dcTestCtl.extractLsb' 5 8).toNat then
          { dcGet i (s.dcache.bank bank1) with
            tag := v.extractLsb' 13 26, parity := v.getLsbD 2, valid0 := v.getLsbD 11, valid1 := v.getLsbD 12 }
        else dcGet i (s.dcache.bank bank1)

/-- Where the PALcode opcodes are available, HW_MFPR of every index completes and changes nothing but Ra, the PC, the
count of free values, and by index: VA unlocks VA and MM_STAT; ITB_PTE and DTB_PTE return zero, load ITB_PTE_TEMP or
DTB_PTE_TEMP and move the pointer on by one; DC_TEST_TAG loads DC_TEST_TAG_TEMP. ITB_PTE_TEMP then holds the entry at
the pointer with PFN in <58:32>, GH as a thermometer code in <31:29>, ASM in <13>, the read enables in <12:9> and
zeros elsewhere (R103), DTB_PTE_TEMP the entry with FOR in <1>, FOW in <2>, ASM in <4>, GH in <6:5>, the read enables
in <11:8>, the write enables in <15:12>, PFN in <58:32> and zeros elsewhere (D6). INTID returns the highest target
level of the requests that are pending and enabled, 0 if there is none: 1 to 15 of a software request, 2 of an AST, 20
to 23 of irq_h, 29 of a performance counter, 30 of power fail, 31 of a system machine check or a correctable error
(R119). EXC_ADDR, EXC_SUM, EXC_MASK, IFAULT_VA_FORM, ICPERR_STAT, ITB_PTE_TEMP, DTB_PTE_TEMP, MM_STAT, VA, VA_FORM in
both formats, DC_PERR_STAT, DC_TEST_TAG_TEMP and the PALtemps return their contents in the bits the spec states; ISR
the requests bit by bit; SL_RCV the serial line; MAF_MODE its bits, whether a load waits in the miss address file or
for a fill, and whether the write buffer holds anything. DC_TEST_TAG reads tag, tag parity and valid bits of the block
that DC_TEST_CTL names, of bank 0 if BANK0 is set, else of bank 1, and the data parity bits of both banks for its
quadword (their sense: log 13). -/
def Obligations.IprReads : Prop :=
  ∀ ra rb (index : BitVec 16) (s : State), (s.palmode = true ∨ s.ibox.icsr.getLsbD 27 = true ∧ s.ibox.icm = 0#2) →
    let asks (n : Nat) : Prop :=
      (1 ≤ n ∧ n ≤ 15 ∧ s.ibox.sirr.getLsbD (n - 1) = true) ∨
      (n = 2 ∧ ∃ m, m ≤ s.ibox.icm.toNat ∧ s.ibox.astrr.getLsbD m = true ∧ s.ibox.aster.getLsbD m = true) ∨
      (∃ k, k < 4 ∧ n = 20 + k ∧ s.pins.irq.getLsbD k = true ∧ s.ibox.icsr.getLsbD (20 + k) = false) ∨
      (∃ k, k < 3 ∧ n = 29 ∧ s.ibox.pcReq.getLsbD k = true ∧ s.ibox.icsr.extractLsb' 8 2 ≠ 0#2 ∧
        s.ibox.pmctr.getLsbD (15 - 2 * k) = true) ∨
      (n = 30 ∧ s.pins.pwrFail = true) ∨
      (n = 31 ∧ (s.pins.sysMchChk = true ∨ s.ibox.crdReq = true ∧ s.ibox.icsr.getLsbD 32 = true))
    ∃ t v, exec (.hwMfpr ra rb index) s = .next t ∧ s.intWrite t ra v ∧ t.pc = s.pc + 4#64 ∧
      { t with
        ints := s.ints, shadow := s.shadow, pc := s.pc, freeCount := s.freeCount
        ibox := { t.ibox with itbPteTemp := s.ibox.itbPteTemp }
        mbox := { t.mbox with
          mmLock := s.mbox.mmLock, dtbPteTemp := s.mbox.dtbPteTemp, dcTestTagTemp := s.mbox.dcTestTagTemp }
        itb := { t.itb with next := s.itb.next }, dtb := { t.dtb with next := s.dtb.next } } = s ∧
      (t.mbox.mmLock = if index = 0x206#16 then false else s.mbox.mmLock) ∧
      (t.itb.next = if index = 0x102#16 then s.itb.next + 1 else s.itb.next) ∧
      (t.dtb.next = if index = 0x203#16 then s.dtb.next + 1 else s.dtb.next) ∧
      (index = 0x102#16 →
        let e := s.itb.entries[s.itb.next]
        let x := t.ibox.itbPteTemp
        v = 0#64 ∧ x.extractLsb' 32 27 = e.pfn ∧ x.getLsbD 31 = decide (e.gh.toNat = 3) ∧
        x.getLsbD 30 = decide (2 ≤ e.gh.toNat) ∧ x.getLsbD 29 = decide (1 ≤ e.gh.toNat) ∧ x.getLsbD 13 = e.asm ∧
        x.extractLsb' 9 4 = e.re ∧ x &&& ~~~0x7FFFFFFE0003E00#64 = 0#64) ∧
      (index ≠ 0x102#16 → t.ibox.itbPteTemp = s.ibox.itbPteTemp) ∧
      (index = 0x203#16 →
        let e := s.dtb.entries[s.dtb.next]
        let x := t.mbox.dtbPteTemp
        v = 0#64 ∧ x.getLsbD 1 = e.faultRd ∧ x.getLsbD 2 = e.faultWr ∧ x.getLsbD 4 = e.asm ∧ x.extractLsb' 5 2 = e.gh ∧
        x.extractLsb' 8 4 = e.re ∧ x.extractLsb' 12 4 = e.we ∧ x.extractLsb' 32 27 = e.pfn ∧
        x &&& ~~~0x7FFFFFF0000FF76#64 = 0#64) ∧
      (index ≠ 0x203#16 → t.mbox.dtbPteTemp = s.mbox.dtbPteTemp) ∧
      (index ≠ 0x214#16 → t.mbox.dcTestTagTemp = s.mbox.dcTestTagTemp) ∧
      (index = 0x10B#16 → v = s.ibox.excAddr) ∧
      (index = 0x10C#16 → v = 0#47 ++ (s.ibox.excSum ++ 0#10)) ∧
      (index = 0x10D#16 → v = s.ibox.excMask) ∧
      (index = 0x111#16 →
        let level := (v.extractLsb' 0 5).toNat
        (∀ n, asks n → n ≤ level) ∧ (level = 0 ∨ asks level)) ∧
      (index = 0x205#16 → v.extractLsb' 0 17 = s.mbox.mmStat) ∧
      (index = 0x206#16 → v = s.mbox.va) ∧
      (index = 0x207#16 → s.mbox.mcsr.getLsbD 1 = false →
        v = s.mbox.mvptbr.extractLsb' 3 31 ++ (s.mbox.va.extractLsb' 13 30 ++ 0#3)) ∧
      (index = 0x207#16 → s.mbox.mcsr.getLsbD 1 = true →
        v = s.mbox.mvptbr ++ (0#8 ++ (s.mbox.va.extractLsb' 13 19 ++ 0#3))) ∧
      (index = 0x100#16 →
        v.extractLsb' 0 4 = s.ibox.astrr &&& s.ibox.aster ∧ v.extractLsb' 4 15 = s.ibox.sirr ∧
        (v.getLsbD 19 = true ↔
          ∃ m, m ≤ s.ibox.icm.toNat ∧ s.ibox.astrr.getLsbD m = true ∧ s.ibox.aster.getLsbD m = true) ∧
        v.extractLsb' 20 4 = s.pins.irq ∧ v.extractLsb' 27 3 = s.ibox.pcReq ∧ v.getLsbD 30 = s.pins.pwrFail ∧
        v.getLsbD 31 = s.pins.sysMchChk ∧ v.getLsbD 32 = s.ibox.crdReq ∧ v.getLsbD 33 = s.ibox.sliReq ∧
        v.getLsbD 34 = s.pins.mchHlt) ∧
      (index = 0x104#16 → v = s.ibox.itbPteTemp) ∧ (index = 0x204#16 → v = s.mbox.dtbPteTemp) ∧
      (index = 0x112#16 → v = s.ibox.ifaultVaForm) ∧ (index = 0x117#16 → v.getLsbD 6 = s.pins.sromData) ∧
      (index = 0x11A#16 → v.extractLsb' 11 3 = s.ibox.icperrStat) ∧
      (index = 0x212#16 → v.extractLsb' 0 6 = s.mbox.dcPerrStat) ∧
      (index = 0x215#16 → v &&& 0x7FFFFFF87C#64 = s.mbox.dcTestTagTemp &&& 0x7FFFFFF87C#64) ∧
      (index = 0x217#16 → v.extractLsb' 0 6 = s.mbox.mafMode ∧ v.getLsbD 6 = (!s.maf.isEmpty || !s.loadsWaiting.isEmpty) ∧ v.getLsbD 7 = !s.wb.isEmpty) ∧
      (index = 0x214#16 →
        let bank (b : Bool) := dcGet (s.mbox.dcTestCtl.extractLsb' 5 8).toNat (s.dcache.bank b)
        let l := if s.mbox.dcTestCtl.getLsbD 0 then bank false else bank true
        let x := t.mbox.dcTestTagTemp
        let long (k : Nat) := 2 * (s.mbox.dcTestCtl.extractLsb' 3 2).toNat + k
        x.extractLsb' 13 26 = l.tag ∧ x.getLsbD 2 = l.parity ∧ x.getLsbD 11 = l.valid0 ∧ x.getLsbD 12 = l.valid1 ∧
        ∀ b : Bool, ∀ k < 2, x.getLsbD ((if b then 5 else 3) + k) =
          (parityOf (hexLong (bank b).data (long k)) != (bank b).badData.getLsbD (long k))) ∧
      ∀ k : Fin 24, index = BitVec.ofNat 16 (0x140 + k.val) → v = s.palTemps[k]

/-- Where the PALcode opcodes are available: HW_MTPR DTB_PTE keeps the value and leaves the DTB alone, and HW_MTPR
DTB_TAG then writes the entry at the pointer from that value, VA<42:13> and DTB_ASN, leaves the other 63 entries and
moves the pointer on by one modulo 64; HW_MTPR ITB_PTE writes an ITB entry the same way from its value, ITB_TAG and
ITB_ASN, modulo 48. xTB_IA makes every entry invalid and sets the pointer to 0; xTB_IAP makes exactly the entries with
ASM clear invalid; xTB_IS exactly those that match the address; neither moves the pointer. Each ITB write is to be
followed by HW_REI_STALL (R683), which the model notes; nothing else changes but the PC. -/
def Obligations.TranslationBuffers : Prop :=
  ∀ ra rb (s : State), (s.palmode = true ∨ s.ibox.icsr.getLsbD 27 = true ∧ s.ibox.icm = 0#2) →
    let v := s.readInt ra
    let p := s.mbox.dtbPteHold
    exec (.hwMtpr ra rb 0x203#16) s = .next { s with pc := s.pc + 4#64, mbox := { s.mbox with dtbPteHold := v } } ∧
    exec (.hwMtpr ra rb 0x202#16) s = .next { s with
      pc := s.pc + 4#64
      dtb := ⟨s.dtb.entries.set s.dtb.next
        { valid := true, tag := v.extractLsb' 13 30, asn := s.mbox.dtbAsn, asm := p.getLsbD 4, gh := p.extractLsb' 5 2,
          faultRd := p.getLsbD 1, faultWr := p.getLsbD 2, re := p.extractLsb' 8 4, we := p.extractLsb' 12 4,
          pfn := p.extractLsb' 32 27 }, ⟨(s.dtb.next.val + 1) % 64, Nat.mod_lt _ (by decide)⟩⟩ } ∧
    exec (.hwMtpr ra rb 0x102#16) s = .next { s with
      pc := s.pc + 4#64
      itb := ⟨s.itb.entries.set s.itb.next
        { valid := true, tag := s.ibox.itbTag, asn := s.ibox.itbAsn, asm := v.getLsbD 4, gh := v.extractLsb' 5 2,
          re := v.extractLsb' 8 4, pfn := v.extractLsb' 32 27 }, ⟨(s.itb.next.val + 1) % 48, Nat.mod_lt _ (by decide)⟩⟩
      itbPending := true } ∧
    (∀ row ∈ ([(0x105#16, fun _ => false, true), (0x106#16, fun e => e.asm, false),
        (0x107#16, fun e => !e.matches (v.extractLsb' 13 30) s.ibox.itbAsn, false)] :
        List (BitVec 16 × (ItbEntry → Bool) × Bool)),
      ∃ t, exec (.hwMtpr ra rb row.1) s = .next t ∧ { t with pc := s.pc, itb := s.itb, itbPending := s.itbPending } = s ∧ t.itbPending = true ∧
        t.pc = s.pc + 4#64 ∧
        (t.itb.next = if row.2.2 then 0 else s.itb.next) ∧
        ∀ k : Fin 48, t.itb.entries[k] =
          { s.itb.entries[k] with valid := s.itb.entries[k].valid && row.2.1 s.itb.entries[k] }) ∧
    (∀ row ∈ ([(0x20A#16, fun _ => false, true), (0x209#16, fun e => e.asm, false),
        (0x20B#16, fun e => !e.matches (v.extractLsb' 13 30) s.mbox.dtbAsn, false)] :
        List (BitVec 16 × (DtbEntry → Bool) × Bool)),
      ∃ t, exec (.hwMtpr ra rb row.1) s = .next t ∧ { t with pc := s.pc, dtb := s.dtb } = s ∧ t.pc = s.pc + 4#64 ∧
        (t.dtb.next = if row.2.2 then 0 else s.dtb.next) ∧
        ∀ k : Fin 64, t.dtb.entries[k] =
          { s.dtb.entries[k] with valid := s.dtb.entries[k].valid && row.2.1 s.dtb.entries[k] })

/-- In PALmode, or in kernel mode with ICSR<HWE>, a physical quadword HW_LD of SC_CTL, SC_STAT, SC_ADDR, BC_TAG_ADDR,
EI_STAT, EI_ADDR or FILL_SYN, with BC_CONTROL<ALLOC_CYC> clear and no MB owed (R241), returns the register in its
stated bits: SC_ADDR if it is locked or in force-hit mode, BC_TAG_ADDR with the tag bits that the Bcache size does not
use zero. Reading SC_STAT clears it and unlocks it and SC_ADDR; reading EI_STAT clears and unlocks it, EI_ADDR,
FILL_SYN and BC_TAG_ADDR, unless a correctable and a hard error are both recorded: then only the correctable bit is
cleared and the locks stay; the others change nothing. A read of SC_STAT or EI_STAT that is owed leaves an MB owed
before a store. Nothing else changes but Ra, the PC, the mark of an MB and the count of free values. With ALLOC_CYC
set the read is refused by name (R241 (j)), and while an MB is owed every load is (R241 (a), (b)). An address of the
register region that is none of the nine faults (R240). -/
def Obligations.CboxLoads : Prop :=
  ∀ ra rb disp (s : State), (s.palmode = true ∨ s.ibox.icsr.getLsbD 27 = true ∧ s.ibox.icm = 0#2) →
    let a : PAddr := (s.readInt rb + disp.signExtend 64).setWidth 40
    let ld := exec (.hwLd ra rb true false false true false false disp) s
    ((∃ ei, s.owed = .mbThenRead ei) ∨ s.owed = .mb → ld = .refused .cboxOrder) ∧
    (s.owed ≠ .mb → (∀ ei, s.owed ≠ .mbThenRead ei) →
      (∀ row ∈ ([(0xFFFFF000A8#40, 0x7FFFF#64, s.cbox.scCtl.setWidth 64, s.cbox),
        (0xFFFFF000E8#40, 0x1FFFF#64, s.cbox.scStat.setWidth 64, { s.cbox with scStat := 0#17, scLock := false }),
        (0xFFFFF00188#40, if s.scFhit || s.cbox.scLock then 0xFFFFFFFFF0#64 else 0x8000000000#64,
          s.cbox.scAddr &&& 0x7FFFFFFFFF#64, s.cbox),
        (0xFFFFF00108#40, 0x7FFFF3F000#64,
          s.cbox.bcTagAddr &&& ~~~BitVec.ofNat 64 ((2 ^ ((s.cbox.bcConfig.extractLsb' 0 3).toNat - 1) - 1) * 2 ^ 20), s.cbox),
        (0xFFFFF00168#40, 0xFF0000000#64, s.cbox.eiStat.setWidth 64 <<< 28,
          if s.cbox.eiStat.getLsbD 3 = true ∧ s.cbox.eiStat &&& 0x33#8 ≠ 0#8 then
            { s.cbox with eiStat := s.cbox.eiStat &&& 0xF7#8 }
          else { s.cbox with eiStat := 0#8, eiLock := false, bcTagLock := false }),
        (0xFFFFF00148#40, 0xFFFFFFFFF0#64, s.cbox.eiAddr.setWidth 64 <<< 4, s.cbox),
        (0xFFFFF00068#40, 0xFFFF#64, s.cbox.fillSyn.setWidth 64, s.cbox)] : List (PAddr × Word × Word × Cbox)),
        a = row.1 →
        (s.allocCyc = true → ld = .refused .cboxReadWithAllocCyc) ∧
        (s.allocCyc = false →
          ∃ t v, ld = .next t ∧ s.intWrite t ra v ∧ v &&& row.2.1 = row.2.2.1 &&& row.2.1 ∧ t.cbox = row.2.2.2 ∧
            t.pc = s.pc + 4#64 ∧
            t.owed = (if s.owed = .read false ∧ row.1 = 0xFFFFF000E8#40 ∨ s.owed = .read true ∧ row.1 = 0xFFFFF00168#40
              then .mbBeforeStore else s.owed) ∧ t.afterMb = false ∧
            { t with
              ints := s.ints, shadow := s.shadow, pc := s.pc, cbox := s.cbox, freeCount := s.freeCount, owed := s.owed
              afterMb := s.afterMb } = s)) ∧
      (0xFFFFF00000 ≤ a.toNat → (∀ r ∈ CboxReg.all, a.toNat / 8 ≠ r.address.toNat / 8) → ld = .fault .cboxNoSuchRegister))

/-- In PALmode, or in kernel mode with ICSR<HWE>, with nothing owed for an earlier such store, a physical quadword
HW_ST of a legal value to SC_CTL, BC_CONTROL or BC_CONFIG, right after an MB if it changes a bit, stores the value;
SC_FLUSH leaves no valid block in the Scache and in the Dcache; a change of BC_FHIT from 0 to 1 unlocks BC_TAG_ADDR
(log 15). After a change an MB is owed before the next load or store, after the end of a force-hit mode also a load of
SC_STAT or EI_STAT. Refused by name are, in this order: ones in must-be-zero bits, SC_CTL<18:16>, BC_CONTROL<25,27>,
BC_CONFIG<3,15,19>; an SC_CTL that enables neither one set nor, outside force-hit mode, all three; a BC_CONTROL with
BC_TAG_STAT nonzero outside force-hit mode; a value of any of the three with which the Bcache speeds are out of range;
and a change of a bit without the MB (R241, R242, R248, R251, R252). The speeds are in range for an enabled Bcache if
the size is nonzero, both speeds are at least 4 and fewer than four apart, the read speed at least 4 above the wave
pipelining, and with 32-byte blocks at least 5 and without wave pipelining (R250, R251, R418, R420); for one that is
fitted and not enabled the same without the wave pipelining, or as for none; for none, if both speeds are the system
clock ratio and the size is 0, 1, 2 or 4 (R252). A store to a read-only register changes nothing else; one to an
address of the region that is none of the nine faults. Nothing else changes but the PC and the mark of an MB. -/
def Obligations.CboxStores : Prop :=
  ∀ ra rb disp (s : State), (s.palmode = true ∨ s.ibox.icsr.getLsbD 27 = true ∧ s.ibox.icm = 0#2) → s.owed = .nothing →
    let a : PAddr := (s.readInt rb + disp.signExtend 64).setWidth 40
    let st := exec (.hwSt ra rb true false false true false false disp) s
    let v := s.readInt ra
    let done (changed ends : Prop) [Decidable changed] [Decidable ends] (ei : Bool) (u : State) : State :=
      { u with
        pc := s.pc + 4#64, afterMb := false
        owed := if changed then (if ends then .mbThenRead ei else .mb) else .nothing }
    let speeds (big : Bool) (config : BitVec 29) : Prop :=
      let rd := (config.extractLsb' 4 4).toNat
      let wr := (config.extractLsb' 8 4).toNat
      config.extractLsb' 0 3 ≠ 0#3 ∧ 4 ≤ rd ∧ 4 ≤ wr ∧ rd < wr + 4 ∧ wr < rd + 4 ∧ (big = true ∨ 5 ≤ rd)
    let enabledOk (big : Bool) (control config : BitVec 29) : Prop :=
      let wave := (control.extractLsb' 17 2).toNat
      speeds big config ∧ wave + 4 ≤ (config.extractLsb' 4 4).toNat ∧ (big = true ∨ wave = 0)
    let big := s.cbox.scCtl.getLsbD 12
    (a = 0xFFFFF000A8#40 →
      let mbz := v.extractLsb' 16 3 ≠ 0#3
      let legal := v.extractLsb' 13 3 ∈ [1#3, 2#3, 4#3] ∨ v.extractLsb' 13 3 = 7#3 ∧ v.getLsbD 0 = false
      let inRange := s.cbox.bcControl.getLsbD 0 = true → enabledOk (v.getLsbD 12) s.cbox.bcControl s.cbox.bcConfig
      let changed := v.extractLsb' 0 16 ≠ s.cbox.scCtl
      (mbz → st = .refused .mustBeZeroBit) ∧
      (¬ mbz → ¬ legal → st = .refused .scacheSetEnable) ∧
      (¬ mbz → legal → ¬ inRange → st = .refused .bcacheConfig) ∧
      (¬ mbz → legal → inRange → changed → s.afterMb = false → st = .refused .cboxOrder) ∧
      (¬ mbz → legal → inRange → (changed → s.afterMb = true) →
        ∃ t, st = .next t ∧
          { t with scache := s.scache, dcache := s.dcache } =
            done changed (s.cbox.scCtl.getLsbD 0 = true ∧ v.getLsbD 0 = false) false
              { s with cbox := { s.cbox with scCtl := v.extractLsb' 0 16 } } ∧
          (v.getLsbD 1 = false → t.scache = s.scache ∧ t.dcache = s.dcache) ∧
          (v.getLsbD 1 = true → (∀ b, t.scFind b = none) ∧ ∀ bank1 x, t.dcByte bank1 x = none))) ∧
    (a = 0xFFFFF00128#40 →
      let mbz := v.getLsbD 25 = true ∨ v.getLsbD 27 = true
      let tagStat := v.extractLsb' 8 5 ≠ 0#5 ∧ v.getLsbD 7 = false
      let inRange := v.getLsbD 0 = true → enabledOk big (v.extractLsb' 0 29) s.cbox.bcConfig
      let changed := v.extractLsb' 0 29 ≠ s.cbox.bcControl
      (mbz → st = .refused .mustBeZeroBit) ∧
      (¬ mbz → tagStat → st = .refused .bcacheTagStat) ∧
      (¬ mbz → ¬ tagStat → ¬ inRange → st = .refused .bcacheConfig) ∧
      (¬ mbz → ¬ tagStat → inRange → changed → s.afterMb = false → st = .refused .cboxOrder) ∧
      (¬ mbz → ¬ tagStat → inRange → (changed → s.afterMb = true) →
        st = .next (done changed (s.cbox.bcControl.getLsbD 7 = true ∧ v.getLsbD 7 = false) true
          { s with cbox := { s.cbox with
            bcControl := v.extractLsb' 0 29
            bcTagLock := s.cbox.bcTagLock && !(v.getLsbD 7 && !s.cbox.bcControl.getLsbD 7) } }))) ∧
    (a = 0xFFFFF001C8#40 →
      let c := v.extractLsb' 0 29
      let mbz := v.getLsbD 3 = true ∨ v.getLsbD 15 = true ∨ v.getLsbD 19 = true
      let absent := c.extractLsb' 4 4 = s.pins.sysclkRatio ∧ c.extractLsb' 8 4 = s.pins.sysclkRatio ∧
        c.extractLsb' 0 3 ∈ [0#3, 1#3, 2#3, 4#3]
      let inRange := if s.cbox.bcControl.getLsbD 0 then enabledOk big s.cbox.bcControl c
        else absent ∨ s.pins.bcacheSize ≠ 0#3 ∧ speeds big c
      let changed := c ≠ s.cbox.bcConfig
      (mbz → st = .refused .mustBeZeroBit) ∧
      (¬ mbz → ¬ inRange → st = .refused .bcacheConfig) ∧
      (¬ mbz → inRange → changed → s.afterMb = false → st = .refused .cboxOrder) ∧
      (¬ mbz → inRange → (changed → s.afterMb = true) →
        st = .next (done changed False false { s with cbox := { s.cbox with bcConfig := c } }))) ∧
    (a ∈ [0xFFFFF000E8#40, 0xFFFFF00188#40, 0xFFFFF00108#40, 0xFFFFF00168#40, 0xFFFFF00148#40, 0xFFFFF00068#40] →
      st = .next { s with pc := s.pc + 4#64, afterMb := false }) ∧
    (0xFFFFF00000 ≤ a.toNat → (∀ r ∈ CboxReg.all, a.toNat / 8 ≠ r.address.toNat / 8) → st = .fault .cboxNoSuchRegister)

/-- TRAPB and EXCB complete in every state and change only the PC (an ARITH trap is delivered at once: the model's
choice, log 6). WMB closes every write-buffer entry to further stores and gives the next one the WMB flag; MB leaves
it to the end of the step to drain the buffers (log 16), notes that it stands right before what follows, and pays an
MB that is owed (R241). FETCH and FETCH_M of an address that translates put their command, with the block, in the
write buffer and change nothing else but the PC and the DTB pointer (log 10); of an address that does not, they change
only the PC (D14). RPCC gives the cycle counter, RC and RS the interrupt flag, which RC clears and RS sets, and change
nothing else but the PC (a write to R31 is discarded, the flag still changes). -/
def Obligations.MiscellaneousInstructions : Prop :=
  ∀ ra rb (s : State),
    (∀ row ∈ ([(0x0000#16, Instr.trapb), (0x0400#16, Instr.excb)] : List (BitVec 16 × MkMisc)),
      decode (encMisc row.1 ra rb) = .ok (row.2 ra rb) ∧
        exec (row.2 ra rb) s = .next { s with pc := s.pc + 4#64 }) ∧
    (decode (encMisc 0x4400#16 ra rb) = .ok (.wmb ra rb) ∧
      exec (.wmb ra rb) s = .next { s with
        pc := s.pc + 4#64, wb := s.wb.map fun e => { e with closed := true }, wbFence := true }) ∧
    (decode (encMisc 0x4000#16 ra rb) = .ok (.mb ra rb) ∧
      exec (.mb ra rb) s = .next { s with
        pc := s.pc + 4#64, mbWaits := true, afterMb := true
        owed := match s.owed with
          | .nothing | .mb | .mbBeforeStore => .nothing
          | .mbThenRead ei | .read ei => .read ei }) ∧
    (∀ row ∈ ([(0x8000#16, Instr.fetch, WbKind.fetch), (0xA000#16, Instr.fetchM, WbKind.fetchM)] :
        List (BitVec 16 × MkMisc × WbKind)),
      decode (encMisc row.1 ra rb) = .ok (row.2.1 ra rb) ∧
      (∀ pa hit, s.translate (Ref.unaligned (s.readInt rb) false ra 0x18#6) = .ok pa hit →
        ∃ t e, exec (row.2.1 ra rb) s = .next t ∧ t.wb = e :: s.wb ∧ e.block = granule pa ∧ e.kind = row.2.2 ∧
          t.pc = s.pc + 4#64 ∧
          { t with wb := s.wb, wbFence := s.wbFence, pc := s.pc, dtb := { t.dtb with next := s.dtb.next } } = s) ∧
      (∀ e bits, s.translate (Ref.unaligned (s.readInt rb) false ra 0x18#6) = .except e bits →
        exec (row.2.1 ra rb) s = .next { s with pc := s.pc + 4#64 })) ∧
    (decode (encMisc 0xC000#16 ra rb) = .ok (.rpcc ra rb) ∧
      ∃ t, exec (.rpcc ra rb) s = .next t ∧ s.onlyInt t ra (s.mbox.ccHi ++ s.mbox.ccLo)) ∧
    (∀ row ∈ ([(0xE000#16, Instr.rc, false), (0xF000#16, Instr.rs, true)] : List (BitVec 16 × MkMisc × Bool)),
      decode (encMisc row.1 ra rb) = .ok (row.2.1 ra rb) ∧
      ∃ t, exec (row.2.1 ra rb) s = .next t ∧ t.intrFlag = row.2.2 ∧
        s.onlyInt { t with intrFlag := s.intrFlag } ra (if s.intrFlag then 1#64 else 0#64))

/-- An interrupt is deliverable exactly when a software request above IPLR, an enabled AST for the current or a more
privileged mode with IPLR below 2, an asserted and unmasked irq_h<n> with IPLR below 20 + n, a performance-counter
request whose counter may still interrupt (ICSR<PME> and CTLk) with IPLR below 29, power fail with IPLR below 30,
system machine check or an enabled correctable-error request with IPLR below 31, a halt, or a serial-line request is
present. A step with no environment event waiting, outside PALmode, with an interrupt deliverable, first gives waiting
loads their data (R705); then, if no machine check comes of it, it enters INTERRUPT if nothing more is on its way to a
register, and lets time pass if something is; where nothing waits in the buffers it does nothing else, and EXC_ADDR is
the PC. That it is taken at the first boundary, and that the enables of a counter also gate the delivery, is the
model's choice (log 7); how the step waits for what is on its way is log 16. -/
def Obligations.InterruptDelivery : Prop :=
  ∀ s : State,
    let below (n : Nat) : Prop := s.ibox.iplr.toNat < n
    (s.interruptPending = true ↔
      (∃ level, 1 ≤ level ∧ level ≤ 15 ∧ s.ibox.sirr.getLsbD (level - 1) = true ∧ below level) ∨
      (∃ m, m ≤ s.ibox.icm.toNat ∧ s.ibox.astrr.getLsbD m = true ∧ s.ibox.aster.getLsbD m = true ∧ below 2) ∨
      (∃ n, n < 4 ∧ s.pins.irq.getLsbD n = true ∧ s.ibox.icsr.getLsbD (20 + n) = false ∧ below (20 + n)) ∨
      (∃ k, k < 3 ∧ s.ibox.pcReq.getLsbD k = true ∧ s.ibox.icsr.extractLsb' 8 2 ≠ 0#2 ∧
        s.ibox.pmctr.getLsbD (15 - 2 * k) = true ∧ below 29) ∨
      (s.pins.pwrFail = true ∧ below 30) ∨ (s.pins.sysMchChk = true ∧ below 31) ∨
      (s.ibox.crdReq = true ∧ s.ibox.icsr.getLsbD 32 = true ∧ below 31) ∨ s.pins.mchHlt = true ∨ s.ibox.sliReq = true) ∧
    (s.inputs = [] → s.palmode = false → s.interruptPending = true → s.mchkPending = false →
      let u := State.awaitLoads { s with ended := .retired, nopParity := false }
      (u.mchkPending = false → u.drained = true → step s = .next (State.settle (u.trap .interrupt u.pc))) ∧
      (u.mchkPending = false → u.drained = false → step s = .next u.idled.settle) ∧
      (u.drained = true ↔ u.maf = [] ∧ u.missLoads false = [] ∧ u.missLoads true = [] ∧ u.wb.any WbEntry.isCond = false) ∧
      (s.idle → ∃ t, step s = .next t ∧ State.trapped { s with nopParity := false } t 0x0100#14 s.pc))

/-- With no environment event and no machine check waiting, and in PALmode or with no interrupt deliverable: if the
fetch gives the word w in state u and w decodes to instruction i, loads that wait get their data unless w needs none
of them, in state v. If a machine check comes of that, it is all the step does before the work of the buffers
(settle). If w has to wait in v, time passes. Otherwise the step is exec of i in v, followed after a next state by the
counters, the count of instructions after IC_FLUSH_CTL, and settle; only if it takes an exception while something is
on its way to a register, that arrives first and the instruction is tried again (R705). A fault or a refusal stands.
Nothing has to wait where nothing is on its way, no MB is under way and the write buffer has room; where nothing waits
in the buffers, v is u and settle changes nothing. Moving the counters on changes only the low half of the cycle
counter, PMCTR, the performance-counter requests, the timeout counter and pulse, the events counted and the count of
free values, and but for the timeout counter and the events nothing at all while CC_CTL<CC_ENA> is clear, no
performance counter is enabled and no pulse lasts. That the counters move at all, how far, and only after the
instruction, is the model's choice (log 9); what waits, and when the buffers do their work, is log 16. -/
def Obligations.StepRunsDecoded : Prop :=
  (∀ (w : Longword) (i : Instr) (s u : State), s.inputs = [] → s.mchkPending = false →
    (s.palmode = true ∨ s.interruptPending = false) →
    State.fetch { s with ended := .retired, nopParity := false } = .insn w u → decode w = .ok i →
    let v := u.readyFor w
    (v.mchkPending = true → step s = .next v.settle) ∧
    (v.mchkPending = false → v.blocked w = true → step s = .next v.idled.settle) ∧
    (v.mchkPending = false → v.blocked w = false →
      (∀ t, exec i v = .next t → (t.ended = .retired ∨ v.drained = true) →
        step s = .next (State.settle (State.count v t).drainRefill)) ∧
      (∀ t, exec i v = .next t → t.ended ≠ .retired → v.drained = false → step s = .next v.drain.settle) ∧
      (∀ f, exec i v = .fault f → step s = .fault f) ∧ (∀ r, exec i v = .refused r → step s = .refused r))) ∧
  (∀ (s : State) w, (s.drained = true → s.mbWaits = false → s.wb.length < 6 → s.blocked w = false) ∧
    (s.idle → s.readyFor w = s ∧ s.drained = true ∧ s.blocked w = false ∧ s.settle = s)) ∧
  (∀ s : State, s.icache.drain = 0 → s.drainRefill = s) ∧
  ∀ u t : State,
    { State.count u t with
      mbox := { (State.count u t).mbox with ccLo := t.mbox.ccLo }
      ibox := { (State.count u t).ibox with pmctr := t.ibox.pmctr, pcReq := t.ibox.pcReq }
      freeCount := t.freeCount, pulse := t.pulse, stalled := t.stalled, tally := t.tally } = t ∧
    (t.mbox.ccEna = false → t.pmActive = false → t.pulse = 0 → State.count u t = { t with stalled := 0, tally := [] })

/-- In PALmode the physical address of the fetch is PC<39:0>. If no Icache entry stands at its index, neither the
refill buffer nor a prefetch holds the block, the address is in the memory-like region, and the Scache, all of whose
sets are enabled and whose parities are right, and main memory are all there is (no Bcache, no victim waiting, no
answer given, idle_bc_h not asserted), the fetch gives the little-endian longword at the aligned address as the Scache
over main memory holds it, and exactly if the Scache lacks the block drives one READ MISS, with int4_valid_h zero,
scache_set_h the set that will be filled, and victim_pending_h if that set gives up a dirty block (R425); it changes
only the caches, the events counted, the lock flag (ANDed with system_lock_flag_h by the fill), what is driven, and
the count of free values. Until the Icache changes the same fetch gives the same longword whatever memory holds then
(that the Icache keeps the whole block is the model's choice, log 11). An Icache hit, by index, tag, physical bit, and
ASM or ASN outside PALmode, without bad parity and without ICSR<FMS>, gives the longword of the entry and changes
nothing. A fetch from the noncached region that misses drives one READ MISS, with int4_valid_h zero and no set, and
fills the Icache only; while idle_bc_h is asserted it waits, and nothing changes (R467). One from the register region
faults. -/
def Obligations.InstructionFetch : Prop :=
  (∀ s : State,
    let pa : PAddr := s.pc.setWidth 40
    let long := hexLong (s.below (granule pa)) (pa.toNat / 4 % 8)
    let hit := (s.scFind (granule pa)).isSome
    s.palmode = true → icFind (pa.extractLsb' 5 8).toNat s.icache.lines = none →
      refillFind (granule pa) s.icache.refill = none → s.miss0 = none → s.miss1 = none → regionOf pa = .memory →
      s.bcEnabled = false → s.scFhit = false → s.cbox.scCtl.extractLsb' 13 3 = 7#3 → s.victims = [] → s.answers = [] →
      s.pins.idleBc = false → s.mchkPending = false → (∀ l ∈ s.scache, l.tagError = false ∧ l.sub0.bad = 0#8 ∧ l.sub1.bad = 0#8) →
      ∃ u, s.fetch = .insn long u ∧
        (let way := s.scVictimWay (granule pa)
         u.busOut = if hit then s.busOut
          else .readMiss false (some way) (s.scRoomDirty way (granule pa)) (pa &&& ~~~15#40) 0#4 :: s.busOut) ∧
        u.lockFlag = (s.lockFlag && (hit || s.pins.systemLockFlag)) ∧
        { u with
          icache := s.icache, scache := s.scache, victims := s.victims, dcache := s.dcache, tally := s.tally
          lockFlag := s.lockFlag, busOut := s.busOut, freeCount := s.freeCount } = s ∧
        (s.icsrBit 34 = false → s.icsrBit 35 = false → s.icsrBit 36 = false →
          ∀ m, State.fetch { u with mem := m } = .insn long { u with mem := m })) ∧
  ∀ (s : State) (pa : PAddr) (asm : Bool),
    let a : Word := if s.palmode then pa.setWidth 64 else s.pc
    (∀ l, icFind (a.extractLsb' 5 8).toNat s.icache.lines = some l → s.icsrBit 34 = false → l.tagBad = false →
      l.dataBad = false → (if a.getLsbD 4 then l.valid1 else l.valid0) = true → l.tag = a.extractLsb' 13 30 →
      l.phys = s.palmode → (s.palmode = true ∨ l.asm = true ∨ l.asn = s.ibox.itbAsn) →
      s.fetchAt pa asm = .insn l.insns[(a.extractLsb' 2 3).toFin] s) ∧
    (icFind (a.extractLsb' 5 8).toNat s.icache.lines = none → refillFind (granule pa) s.icache.refill = none →
      s.miss0 = none → s.miss1 = none →
      (regionOf pa = .cbox → s.fetchAt pa asm = .fault .fetchFromRegisterRegion) ∧
      (regionOf pa = .noncached → s.pins.idleBc = true → s.fetchAt pa asm = .waits s) ∧
      (regionOf pa = .noncached → s.pins.idleBc = false → s.answers = [] → s.mchkPending = false →
        ∃ w u, s.fetchAt pa asm = .insn w u ∧
          u.busOut = .readMiss false none false (pa &&& ~~~15#40) 0#4 :: s.busOut ∧
          { u with icache := s.icache, busOut := s.busOut, freeCount := s.freeCount } = s))

/-- In PALmode a fetch is made at physical address PC<39:0>. Outside it, while Istream translation is not
UNPREDICTABLE (R683): a PC that is not the sign extension of its low 43 bits gives IACCVIO; with ICSR<SPE<1>> and
PC<42:41> = 2 the fetch is made at PC<39:0> in kernel mode, with ICSR<SPE<0>> and PC<42:30> = 1FFE hex at PC<29:0>,
and both give IACCVIO outside kernel mode; elsewhere a PC whose page no ITB entry covers gives ITBMISS; if exactly one
entry covers it, the fetch is made at the page frame number with its low 3 * GH bits from the page number, then the
byte within the page, if the entry has the read enable of ICM, and gives IACCVIO if not. An exception has EXC_ADDR the
PC, ITB_TAG its page number, IFAULT_VA_FORM the formatted address (unchanged for the sign check), and nothing else
changes. (Where the ITB pointer stands after a hit is log 10; when IFAULT_VA_FORM is formatted, log 11.) -/
def Obligations.FetchTranslation : Prop :=
  ∀ s : State,
    let formed : Word :=
      if s.icsrBit 28 then s.ibox.ivptbr ++ (0#8 ++ (s.pc.extractLsb' 13 19 ++ 0#3))
      else s.ibox.ivptbr.extractLsb' 3 31 ++ (s.pc.extractLsb' 13 30 ++ 0#3)
    let fails (offset : BitVec 14) (form : Word) : Prop := ∃ t u, s.fetch = .trap t ∧ u.trapped t offset s.pc ∧
      u = { s with ibox := { s.ibox with itbTag := s.pc.extractLsb' 13 30, ifaultVaForm := form } }
    let page := s.pc.toNat / 8192 % 2 ^ 30
    let covers (e : ItbEntry) : Prop := e.valid = true ∧ e.tag.toNat / 8 ^ e.gh.toNat = page / 8 ^ e.gh.toNat ∧
      (e.asm = true ∨ e.asn = s.ibox.itbAsn)
    (s.palmode = true → s.fetch = s.fetchAt (s.pc.setWidth 40) false) ∧
    (s.palmode = false → s.istreamLost = false →
      ((s.pc.toInt < -(2 ^ 42) ∨ 2 ^ 42 ≤ s.pc.toInt) → fails 0x0080#14 s.ibox.ifaultVaForm) ∧
      (-(2 ^ 42) ≤ s.pc.toInt → s.pc.toInt < 2 ^ 42 →
        let high := s.icsrBit 29 = true ∧ s.pc.extractLsb' 41 2 = 2#2
        let low := s.icsrBit 28 = true ∧ s.pc.extractLsb' 30 13 = 0x1FFE#13
        (high → s.ibox.icm = 0#2 → s.fetch = s.fetchAt (s.pc.setWidth 40) true) ∧
        (¬ high → low → s.ibox.icm = 0#2 → s.fetch = s.fetchAt ((s.pc.setWidth 30).setWidth 40) true) ∧
        (high ∨ low → s.ibox.icm ≠ 0#2 → fails 0x0080#14 formed) ∧
        (¬ high → ¬ low → (∀ k : Fin 48, ¬ covers s.itb.entries[k]) → fails 0x0180#14 formed) ∧
        (¬ high → ¬ low → ∀ k : Fin 48, covers s.itb.entries[k] → (∀ j, j ≠ k → ¬ covers s.itb.entries[j]) →
          let e := s.itb.entries[k]
          let span := 8 ^ e.gh.toNat
          (e.re.getLsbD s.ibox.icm.toNat = true → ∃ pa next, s.fetch =
            State.fetchAt { s with itb := { s.itb with next := next } } pa e.asm ∧
              pa.toNat = e.pfn.toNat / span * span * 8192 + s.pc.toNat % (span * 8192)) ∧
          (e.re.getLsbD s.ibox.icm.toNat = false → fails 0x0080#14 formed))))

/-- A register number 8 to 14 or 25 names its shadow register in PALmode with ICSR<SDE> set and the integer register
otherwise; every other number below 31 names its integer register; number 31 reads as zero in both files. A write is
read back under the same mapping, changes no other register, and to number 31 changes nothing at all; the register
that is hidden keeps its value. -/
def Obligations.RegisterMapping : Prop :=
  ∀ (n : RegNum) (v : Word) (s : State),
    let shadowed := s.palmode = true ∧ s.ibox.icsr.getLsbD 30 = true
    (∀ k : Fin 7, n.toNat = 8 + k.val → shadowed → s.readInt n = s.shadow[k.val]) ∧
    (n = 25#5 → shadowed → s.readInt n = s.shadow[7]) ∧
    (∀ k : Fin 31, n.toNat = k.val → ¬ (shadowed ∧ (8 ≤ k.val ∧ k.val ≤ 14 ∨ k.val = 25)) → s.readInt n = s.ints[k]) ∧
    (∀ k : Fin 31, n.toNat = k.val → s.readFp n = s.fregs[k]) ∧
    s.readInt 31#5 = 0#64 ∧ s.readFp 31#5 = 0#64 ∧ s.writeInt 31#5 v = s ∧ s.writeFp 31#5 v = s ∧
    s.intWrite (s.writeInt n v) n v ∧ s.fpWrite (s.writeFp n v) n v ∧
    { s.writeInt n v with ints := s.ints, shadow := s.shadow } = s ∧ { s.writeFp n v with fregs := s.fregs } = s

/-- An Icache parity error sets ICPERR_STAT<DPE> or <TPE>. A load for which each Dcache bank has a parity error meets
that of one bank, which gives its register any value (which bank serves is log 13); the first sets DC_PERR_STAT<LOCK>
and its bits, a later one SEO; VA and MM_STAT are loaded unless locked. The first Scache parity error outside
force-hit mode loads and locks SC_STAT, with the command of Table 5-28, and SC_ADDR; a later one sets SC_SCND_ERR. The
first uncorrectable error of the external interface that is not hidden loads and locks EI_STAT, EI_ADDR and, for one
of data, FILL_SYN, and locks BC_TAG_ADDR; a later one sets SEO_HRD_ERR. A correctable error loads EI_STAT, EI_ADDR and
FILL_SYN without a lock, only sets its bit after a hard error, and changes nothing after another; it invalidates the
Dcache and requests the interrupt. All but the last ask for a machine check, for which the step ends by giving waiting
loads their data (R705) and, once nothing is on its way to a register, entering MCHK with EXC_ADDR the PC; until then
the steps let time pass, and a machine check waits after a step only if something is still on its way. That MCHK is
entered at the end of the very step, and the address it saves, is the model's choice (log 19). -/
def Obligations.ErrorRecords : Prop :=
  (∀ (s : State) (tagError dataError : Bool), s.event (.icacheParity tagError dataError) = .next { s with
    mchkPending := true
    ibox := { s.ibox with icperrStat :=
      s.ibox.icperrStat ||| (0#1 ++ (BitVec.ofBool tagError ++ BitVec.ofBool dataError)) } }) ∧
  (∀ (s : State) (r : Ref) a target, s.reaches r a → (∀ bank1, (s.dcLook bank1 r.quad false a).errors ≠ 0#4) →
    ∃ t v bank1, s.load r false target = .next t ∧
      let e := (s.dcLook bank1 r.quad false a).errors
      t = State.accessDone (State.deliver { t with
        ints := s.ints, shadow := s.shadow, fregs := s.fregs, pc := s.pc, afterMb := s.afterMb } target v) ∧
      t.mchkPending = true ∧
      t.mbox = { s.mbox with
        dcPerrStat := if s.mbox.dcPerrStat.getLsbD 1 then s.mbox.dcPerrStat ||| 1#6
          else (e ++ 2#2) ||| (s.mbox.dcPerrStat &&& 1#6)
        va := if s.mbox.mmLock then s.mbox.va else r.va
        mmStat := if s.mbox.mmLock then s.mbox.mmStat else r.opcode ++ (r.ra ++ (if r.write then 1#6 else 0#6))
        mmLock := true }) ∧
  (∀ row ∈ ([(.iread, 0b00001#5), (.dread, 0b01001#5), (.dwrite, 0b01011#5), (.victim, 0b10001#5), (.invalidate, 0b10100#5),
      (.readDirty, 0b10101#5), (.setShared, 0b10110#5)] : List (ScCommand × BitVec 5)),
    ∀ (s : State) tags data pa, s.scFhit = false → s.scError tags data row.1 pa = { s with
      mchkPending := true
      cbox := if s.cbox.scLock then { s.cbox with scStat := s.cbox.scStat ||| 0x10000#17 }
        else { s.cbox with
          scStat := 0#1 ++ (row.2 ++ (data ++ tags)), scAddr := 0#25 ++ (pa.extractLsb' 4 35 ++ 0#4), scLock := true } }) ∧
  (∀ (s : State) bits memory istream pa syndrome,
    let hard := s.cbox.eiStat &&& 0x33#8 ≠ 0#8
    let source : EiBits := (if memory then 4#8 else 0#8) ||| (if istream then 64#8 else 0#8)
    (s.hardErrorHidden bits = true → s.hardError bits memory istream pa syndrome = s) ∧
    (s.hardErrorHidden bits = false → s.hardError bits memory istream pa syndrome = { s with
      mchkPending := true
      cbox := if hard then { s.cbox with eiStat := s.cbox.eiStat ||| 0x80#8 }
        else { s.cbox with
          eiStat := (s.cbox.eiStat &&& 8#8) ||| bits ||| source, eiLock := true, eiAddr := pa.extractLsb' 4 36
          fillSyn := if bits = 16#8 then syndrome else s.cbox.fillSyn, bcTagLock := true } }) ∧
    ∃ t, s.correctableError memory istream pa syndrome = t ∧ t.ibox = { s.ibox with crdReq := true } ∧
      (∀ bank1 x, t.dcByte bank1 x = none) ∧ { t with ibox := s.ibox, cbox := s.cbox, dcache := s.dcache } = s ∧
      t.cbox = if s.cbox.eiStat.getLsbD 3 = true then s.cbox
        else if hard then { s.cbox with eiStat := s.cbox.eiStat ||| 8#8 }
        else { s.cbox with
          eiStat := s.cbox.eiStat ||| 8#8 ||| source, eiAddr := pa.extractLsb' 4 36, fillSyn := syndrome }) ∧
  (∀ s : State, s.mchkPending = true →
    let u := s.awaitLoads
    (u.drained = true → State.trapped { u with mchkPending := false } s.takeMchk 0x0400#14 u.pc) ∧
    (u.drained = false → s.takeMchk = u) ∧
    (s.drained = true → u = s) ∧
    (s.inputs = [] → step s = .next (State.settle (State.idled { s with ended := .retired, nopParity := false })))) ∧
  ∀ s t : State, step s = .next t → t.mchkPending = true → t.drained = false

/-- INVALIDATE and SET SHARED are answered ACK/Bcache with a Bcache, else ACK/Scache if the Scache has the block, else
NOACK; READ DIRTY and READ DIRTY/INVALIDATE ACK/Scache if the Scache has it dirty, else ACK/Bcache with a Bcache, else
NOACK; READ and FLUSH ACK/Scache if the Scache has it dirty, else ACK/Bcache if the Bcache has it dirty, else NOACK.
Once FLUSH, INVALIDATE or READ DIRTY/INVALIDATE of an address of the memory-like region has been served, neither the
Scache nor the Dcache holds any part of the block, and the lock flag is clear if the block is the locked one and
unchanged otherwise; SET SHARED, READ DIRTY and READ leave the lock flag. A fill of the Scache, from the system or
from the Bcache, ANDs the lock flag with system_lock_flag_h. A command with good parity waits its turn in the command
buffer, which holds two, a third is refused, and one with bad parity records a hard error and waits there too; those
that wait are answered in the order they came, that of bad parity NOACK, as soon as the Bcache is free (how the
commands and the bad cycles are queued is log 18). No other event changes the lock flag but chip reset and the sending
of a store, whose block may be filled. The lock address is never changed by these. -/
def Obligations.SystemCommands : Prop :=
  (∀ (s : State) (pa : PAddr),
    let p := s.probe pa
    let pick (sc bc : Prop) [Decidable sc] [Decidable bc] : Answer := if sc then .ackScache else if bc then .ackBcache else .noack
    (∀ c ∈ [SysCommand.invalidate, .setShared], s.commandAnswer c pa =
      pick (s.bcEnabled = false ∧ p.scHit = true) (s.bcEnabled = true)) ∧
    (∀ c ∈ [SysCommand.readDirty, .readDirtyInv], s.commandAnswer c pa = pick (p.scDirty = true) (s.bcEnabled = true)) ∧
    (∀ c ∈ [SysCommand.read, .flush], s.commandAnswer c pa = pick (p.scDirty = true) (p.bcDirty = true))) ∧
  (∀ (s : State) (c : SysCommand) (pa : PAddr),
    let t := s.serveCommand c pa
    t.lockAddr = s.lockAddr ∧
    (c ∈ [.setShared, .read, .readDirty] → t.lockFlag = s.lockFlag) ∧
    (c ∈ [.flush, .invalidate, .readDirtyInv] →
      t.lockFlag = (s.lockFlag && !(s.blockOf s.lockAddr == s.blockOf pa)) ∧
      (regionOf pa = .memory → ∀ g ∈ s.blockGranules (granule pa), t.scFind g = none ∧
        ∀ bank1 x, granule x = g → t.dcByte bank1 x = none))) ∧
  (∀ (s : State) w way a pa, (s.takeFill w way a pa).2.lockFlag = (s.lockFlag && s.pins.systemLockFlag) ∧
    (s.takeFill w way a pa).2.lockAddr = s.lockAddr ∧
    (s.takeFromBcache w pa).2.lockFlag = (s.lockFlag && s.pins.systemLockFlag) ∧
    (s.takeFromBcache w pa).2.lockAddr = s.lockAddr) ∧
  (∀ (s : State) (c : SysCommand) (pa : PAddr), regionOf pa ≠ .cbox → s.nopParity = false →
    let good := s.event (.command c.code pa (addrCmdParity c.code pa))
    (s.cmds.length < 2 → good = .next { s with cmds := s.cmds ++ [.command c pa] }) ∧
    (2 ≤ s.cmds.length → good = .refused .commandOverflow) ∧
    (s.cmds.length < 2 → s.hardErrorHidden 32#8 = false →
      s.event (.command c.code pa (!addrCmdParity c.code pa)) =
        .next { s.hardError 32#8 true false pa 0#16 with cmds := s.cmds ++ [.bad] })) ∧
  (∀ s : State,
    (s.bcEnabled = false ∨ s.pins.idleBc = false →
      s.serveCommands = s.cmds.foldl (fun t w => match w with
        | .command c pa => t.serveCommand c pa
        | .bad => { t with busOut := .response .noack none [] :: t.busOut }) { s with cmds := [] }) ∧
    (s.bcEnabled = true → s.pins.idleBc = true → s.serveCommands = s)) ∧
  ∀ (s t : State) (e : EnvEvent), s.event e = .next t → (∀ long, e ≠ .writeTimer long) → (∀ register a, e ≠ .fill register a) →
    (∀ ratio delay passed srom, e ≠ .chipReset ratio delay passed srom) →
    t.lockFlag = s.lockFlag ∧ t.lockAddr = s.lockAddr

/-- Right after reset PAL_BASE and SL_XMIT are clear, ICSR is zero but for bit 37 and the self-test bit 38,
PMCTR<15:10> is zero, every DTB entry is invalid and the DTB pointer is 0, MCSR, DC_MODE and MAF_MODE are zero, the
cycle counter is disabled, SC_CTL has <11:0> zero, <12> set and <15:13> all ones, BC_CONTROL has <6:4> and <15> set
and <1:0>, <7>, <14:13>, <16> and <27:19> clear, BC_CONFIG is 17441 hex. The PC is 0, PALmode is set, the write buffer
and the miss address file are empty, and the Icache is empty (there is no serial ROM: log 22). -/
def Obligations.ResetState : Prop :=
  let s := State.reset
  s.ibox.palBase = 0#50 ∧ s.ibox.slXmit = false ∧ s.ibox.icsr &&& ~~~0x4000000000#64 = 0x2000000000#64 ∧
  s.ibox.pmctr.extractLsb' 10 6 = 0#6 ∧ (∀ k : Fin 64, s.dtb.entries[k].valid = false) ∧ s.dtb.next = 0 ∧
  s.mbox.mcsr = 0#6 ∧ s.mbox.dcMode = 0#4 ∧ s.mbox.mafMode = 0#6 ∧ s.mbox.ccEna = false ∧
  s.cbox.scCtl = 0xF000#16 ∧ s.cbox.bcControl &&& 0xFF9E0F3#29 = 0x8070#29 ∧ s.cbox.bcConfig = 0x17441#29 ∧
  s.pc = 0#64 ∧ s.palmode = true ∧ s.wb = [] ∧ s.maf = [] ∧ s.icache.lines = []

/-- The state right after reset has an aligned PC, EXC_ADDR<1> clear, the unnamed bits of ICSR and the must-be-zero
bits of MCSR clear, and memory in canonical form and listing only addresses of the memory-like region. (That memory
lists nothing then is the model's choice, log 3.) -/
def Obligations.ResetInvariant : Prop :=
  State.reset.pcOk ∧ State.reset.reservedOk ∧ State.reset.memOk

/-- From every state in which PC<1:0> and EXC_ADDR<1> are zero and the unnamed bits of ICSR and bits 5 and 3 of MCSR
are zero, a step that answers a next state, an instruction of any kind, a trap, an interrupt or an environment event,
reset among them, answers one in which they are zero again. -/
def Obligations.StepKeepsRegisters : Prop :=
  ∀ s t : State, s.pcOk → s.reservedOk → step s = .next t → t.pcOk ∧ t.reservedOk

/-- From every state whose main memory is in canonical form (addresses rising, no byte listed that equals an unlisted
one) and lists only addresses of the memory-like region, a step that answers a next state, whatever the caches and
buffers write back in it, answers one of which the same holds. -/
def Obligations.StepKeepsMemory : Prop :=
  ∀ s t : State, s.memOk → step s = .next t → t.memOk

/-- For every well-formed instruction, with every operand at every value the encoding admits, decoding the four
little-endian bytes of its word, whatever bytes follow, gives the instruction and the bytes that follow: no bit of an
encoding is dropped. -/
def Obligations.DecodeEncode : Prop :=
  ∀ (i : Instr) (rest : List Byte), i.wellFormed = true →
    decodeBytes (wordBytes (encode i) ++ rest) = some (.ok i, rest)

/-- ADDL R1,R2,R3 is 40220003, LDL R1,0(R2) A0220000, BEQ R1,.-4 E43FFFFE, JMP R31,(R27) 6BFB0000, ADDT F1,F2,F3
58221403, BIS R31,R31,R31 47FF041F, HW_MTPR R31,IC_FLUSH_CTL 77FF0119 and MB 63FF4000, as the spec prints them. -/
def Obligations.DecodeWords : Prop :=
  decode 0x40220003#32 = .ok (.addl 1#5 (.reg 2#5) 3#5) ∧ decode 0xA0220000#32 = .ok (.ldl 1#5 2#5 0#16) ∧
  decode 0xE43FFFFE#32 = .ok (.beq 1#5 0x1FFFFE#21) ∧ decode 0x6BFB0000#32 = .ok (.jmp 31#5 27#5 0#14) ∧
  decode 0x58221403#32 = .ok (.addt 1#5 2#5 3#5) ∧ decode 0x47FF041F#32 = .ok (.bis 31#5 (.reg 31#5) 31#5) ∧
  decode 0x77FF0119#32 = .ok (.hwMtpr 31#5 31#5 0x0119#16) ∧ decode 0x63FF4000#32 = .ok (.mb 31#5 31#5)
end

