-- ==== Sys2Proof/Laws/Memory.lean ====
section
/-! SUPPORT. Memory: a read after a write, and that every operation keeps the canonical form. -/

namespace Sys2Proof.Machine

/-! ## Addresses below everything listed -/

/-- Every listed address is above `a`. -/
def Memory.above (a : Nat) (m : Memory) : Prop := ∀ c ∈ m, a < c.1

theorem Memory.rising_cons (c : Host.Cell) (m : Memory) :
    Memory.rising (c :: m) = true ↔ Memory.above c.1 m ∧ Memory.rising m = true := by
  induction m generalizing c with
  | nil => simp [Memory.rising, Memory.above]
  | cons d m ih =>
    simp only [Memory.rising, Bool.and_eq_true, decide_eq_true_eq, ih d, Memory.above, List.mem_cons, forall_eq_or_imp]
    constructor
    · rintro ⟨h1, h2, h3⟩
      exact ⟨⟨h1, fun e he => Nat.lt_trans h1 (h2 e he)⟩, h2, h3⟩
    · rintro ⟨⟨h1, -⟩, h2, h3⟩
      exact ⟨h1, h2, h3⟩

theorem Memory.find_above {a : Nat} {m : Memory} (h : Memory.above a m) : Memory.find a m = none := by
  induction m with
  | nil => rfl
  | cons c m ih =>
    have h1 := h c (by simp)
    rw [Memory.find, if_neg (by omega)]
    exact ih fun d hd => h d (by simp [hd])

/-! ## Insert and erase -/

theorem Memory.mem_insert {a : Nat} {b : Byte} {m : Memory} {c : Host.Cell} (h : c ∈ Memory.insert a b m) :
    c = (a, b) ∨ c ∈ m := by
  induction m with
  | nil => exact .inl (by simpa [Memory.insert] using h)
  | cons d m ih =>
    rw [Memory.insert] at h
    split at h
    · simpa using h
    · split at h
      · rcases List.mem_cons.1 h with h | h
        · exact .inl h
        · exact .inr (by simp [h])
      · rcases List.mem_cons.1 h with h | h
        · exact .inr (by simp [h])
        · rcases ih h with h | h
          · exact .inl h
          · exact .inr (by simp [h])

theorem Memory.mem_erase {a : Nat} {m : Memory} {c : Host.Cell} (h : c ∈ Memory.erase a m) : c ∈ m := by
  induction m with
  | nil => exact h
  | cons d m ih =>
    rw [Memory.erase] at h
    split at h
    · simp [h]
    · rcases List.mem_cons.1 h with h | h
      · simp [h]
      · simp [ih h]

theorem Memory.rising_insert (a : Nat) (b : Byte) {m : Memory} (h : Memory.rising m = true) :
    Memory.rising (Memory.insert a b m) = true := by
  induction m with
  | nil => rfl
  | cons d m ih =>
    obtain ⟨h1, h2⟩ := (Memory.rising_cons d m).1 h
    rw [Memory.insert]
    split
    · rename_i hlt
      refine (Memory.rising_cons _ _).2 ⟨fun c hc => ?_, h⟩
      rcases List.mem_cons.1 hc with hc | hc
      · rw [hc]; exact hlt
      · exact Nat.lt_trans hlt (h1 c hc)
    · rename_i hnlt
      split
      · rename_i heq
        exact (Memory.rising_cons _ _).2 ⟨fun c hc => by have := h1 c hc; simp only; omega, h2⟩
      · rename_i hne
        refine (Memory.rising_cons _ _).2 ⟨fun c hc => ?_, ih h2⟩
        rcases Memory.mem_insert hc with hc | hc
        · rw [hc]; simp only; omega
        · exact h1 c hc

theorem Memory.rising_erase (a : Nat) {m : Memory} (h : Memory.rising m = true) :
    Memory.rising (Memory.erase a m) = true := by
  induction m with
  | nil => rfl
  | cons d m ih =>
    obtain ⟨h1, h2⟩ := (Memory.rising_cons d m).1 h
    rw [Memory.erase]
    split
    · exact h2
    · exact (Memory.rising_cons _ _).2 ⟨fun c hc => h1 c (Memory.mem_erase hc), ih h2⟩

theorem Memory.find_insert (a x : Nat) (b : Byte) (m : Memory) :
    Memory.find x (Memory.insert a b m) = if x = a then some b else Memory.find x m := by
  induction m with
  | nil => simp [Memory.insert, Memory.find]
  | cons d m ih =>
    rw [Memory.insert]
    split
    · simp [Memory.find]
    · split
      · rename_i heq
        by_cases hx : x = a
        · simp [Memory.find, hx]
        · simp [Memory.find, hx, ← heq]
      · rename_i hne
        simp only [Memory.find, ih]
        by_cases hx : x = d.1
        · rw [if_pos hx, if_pos hx, if_neg (by omega)]
        · rw [if_neg hx, if_neg hx]

theorem Memory.find_erase (a x : Nat) {m : Memory} (h : Memory.rising m = true) :
    Memory.find x (Memory.erase a m) = if x = a then none else Memory.find x m := by
  induction m with
  | nil => simp [Memory.erase, Memory.find]
  | cons d m ih =>
    obtain ⟨h1, h2⟩ := (Memory.rising_cons d m).1 h
    rw [Memory.erase]
    split
    · rename_i heq
      by_cases hx : x = a
      · rw [if_pos hx, hx, heq]; exact Memory.find_above h1
      · rw [if_neg hx, Memory.find, if_neg (by omega)]
    · rename_i hne
      simp only [Memory.find, ih h2]
      by_cases hx : x = d.1
      · rw [if_pos hx, if_pos hx, if_neg (by omega)]
      · rw [if_neg hx, if_neg hx]

/-! ## The canonical form -/

theorem Memory.wf_iff (m : Memory) :
    m.wf = true ↔ Memory.rising m = true ∧ ∀ c ∈ m, c.2 ≠ Config.unlistedByte := by
  simp [Memory.wf, List.all_eq_true]

theorem Memory.wf_nil : Memory.wf [] = true := rfl

theorem Memory.wf_write {m : Memory} (h : m.wf = true) (a : Nat) (b : Byte) : (m.write a b).wf = true := by
  obtain ⟨h1, h2⟩ := (Memory.wf_iff m).1 h
  rw [Memory.write]
  split
  · exact (Memory.wf_iff _).2 ⟨Memory.rising_erase a h1, fun c hc => h2 c (Memory.mem_erase hc)⟩
  · rename_i hb
    refine (Memory.wf_iff _).2 ⟨Memory.rising_insert a b h1, fun c hc => ?_⟩
    rcases Memory.mem_insert hc with hc | hc
    · rw [hc]; exact hb
    · exact h2 c hc

/-- The one operation that writes several bytes keeps the canonical form. -/
theorem Memory.wf_put {m : Memory} (h : m.wf = true) (a : Nat) (p : Nat → Bool) (f : Nat → Byte) (n : Nat) :
    (m.put a p f n).wf = true := by
  induction n with
  | zero => exact h
  | succ n ih =>
    rw [Memory.put]
    split
    · exact Memory.wf_write ih _ _
    · exact ih

theorem Memory.wf_writeBytes {m : Memory} (h : m.wf = true) (a : Nat) (v : Word) (n : Nat) :
    (m.writeBytes a v n).wf = true := Memory.wf_put h _ _ _ _

theorem Memory.wf_writeBlock {m : Memory} (h : m.wf = true) (b : Block) (mask : BitVec 8) (x : Hexword) :
    (m.writeBlock b mask x).wf = true := Memory.wf_put h _ _ _ _

/-! ## Which addresses are listed -/

/-- Every listed address is below `n`. -/
def Memory.below (n : Nat) (m : Memory) : Prop := ∀ c ∈ m, c.1 < n

theorem Memory.below_write {n : Nat} {m : Memory} (h : m.below n) {a : Nat} (ha : a < n) (b : Byte) :
    (m.write a b).below n := by
  intro c hc
  rw [Memory.write] at hc
  split at hc
  · exact h c (Memory.mem_erase hc)
  · rcases Memory.mem_insert hc with hc | hc
    · rw [hc]; exact ha
    · exact h c hc

theorem Memory.below_put {n : Nat} {m : Memory} (h : m.below n) {a k : Nat} (ha : a + k ≤ n) (p : Nat → Bool)
    (f : Nat → Byte) : (m.put a p f k).below n := by
  induction k with
  | zero => exact h
  | succ k ih =>
    rw [Memory.put]
    split
    · exact Memory.below_write (ih (by omega)) (by omega) _
    · exact ih (by omega)

theorem Memory.below_writeBytes {n : Nat} {m : Memory} (h : m.below n) {a k : Nat} (ha : a + k ≤ n) (v : Word) :
    (m.writeBytes a v k).below n := Memory.below_put h ha _ _

theorem blockBase_lt (b : Block) : blockBase b + 32 ≤ 2 ^ 39 := by
  unfold blockBase
  have := (b.setWidth 34).isLt
  omega

/-- A block of the memory-like region lies inside it. -/
theorem Memory.below_writeBlock {m : Memory} (h : m.below (2 ^ 39)) (b : Block) (mask : BitVec 8) (x : Hexword) :
    (m.writeBlock b mask x).below (2 ^ 39) := Memory.below_put h (blockBase_lt b) _ _

/-! ## Reading after writing -/

theorem Memory.find_write {m : Memory} (h : Memory.rising m = true) (a x : Nat) (b : Byte) :
    Memory.find x (m.write a b) =
      if x = a then (if b = Config.unlistedByte then none else some b) else Memory.find x m := by
  rw [Memory.write]
  by_cases hb : b = Config.unlistedByte
  · rw [if_pos hb, if_pos hb, Memory.find_erase a x h]
  · rw [if_neg hb, if_neg hb, Memory.find_insert]

/-- A byte reads back as written, and every other byte is as before. -/
theorem Memory.read_write {m : Memory} (h : Memory.rising m = true) (a x : Nat) (b : Byte) :
    (m.write a b).read x = if x = a then b else m.read x := by
  rw [Memory.read, Memory.find_write h]
  by_cases hx : x = a
  · by_cases hb : b = Config.unlistedByte <;> simp [hx, hb]
  · simp [hx, Memory.read]

theorem Memory.rising_write {m : Memory} (h : Memory.rising m = true) (a : Nat) (b : Byte) :
    Memory.rising (m.write a b) = true := by
  rw [Memory.write]
  split
  · exact Memory.rising_erase a h
  · exact Memory.rising_insert a b h

theorem Memory.rising_put {m : Memory} (h : Memory.rising m = true) (a : Nat) (p : Nat → Bool) (f : Nat → Byte) (n : Nat) :
    Memory.rising (m.put a p f n) = true := by
  induction n with
  | zero => exact h
  | succ n ih =>
    rw [Memory.put]
    split
    · exact Memory.rising_write ih _ _
    · exact ih

/-- The bytes picked hold what was written, and every other byte is as before. -/
theorem Memory.read_put {m : Memory} (h : Memory.rising m = true) (a x : Nat) (p : Nat → Bool) (f : Nat → Byte) (n : Nat) :
    (m.put a p f n).read x = if a ≤ x ∧ x < a + n ∧ p (x - a) = true then f (x - a) else m.read x := by
  induction n with
  | zero => rw [Memory.put, if_neg (by omega)]
  | succ n ih =>
    rw [Memory.put]
    by_cases hp : p n = true
    · rw [if_pos hp, Memory.read_write (Memory.rising_put h a p f n), ih]
      by_cases hx : x = a + n
      · rw [if_pos hx, hx, Nat.add_sub_cancel_left, if_pos ⟨by omega, by omega, hp⟩]
      · rw [if_neg hx]
        by_cases hr : a ≤ x ∧ x < a + n ∧ p (x - a) = true
        · rw [if_pos hr, if_pos ⟨by omega, by omega, hr.2.2⟩]
        · rw [if_neg hr, if_neg (by rintro ⟨h1, h2, h3⟩; exact hr ⟨h1, by omega, h3⟩)]
    · rw [if_neg hp, ih]
      by_cases hx : x = a + n
      · rw [if_neg (by omega), if_neg (by rintro ⟨-, -, h3⟩; rw [hx, Nat.add_sub_cancel_left] at h3; exact hp h3)]
      · by_cases hr : a ≤ x ∧ x < a + n ∧ p (x - a) = true
        · rw [if_pos hr, if_pos ⟨by omega, by omega, hr.2.2⟩]
        · rw [if_neg hr, if_neg (by rintro ⟨h1, h2, h3⟩; exact hr ⟨h1, by omega, h3⟩)]

/-- Bytes `a` to `a + n - 1` hold the value, least significant byte first, and every other byte is as before. -/
theorem Memory.read_writeBytes {m : Memory} (h : Memory.rising m = true) (a x : Nat) (v : Word) (n : Nat) :
    (m.writeBytes a v n).read x = if a ≤ x ∧ x < a + n then byteOf v (x - a) else m.read x := by
  rw [Memory.writeBytes, Memory.read_put h]
  simp

end Sys2Proof.Machine
end

