-- ==== Sys2Proof/Laws/Bytes.lean ====
section
/-! SUPPORT. The 32 bytes that caches and write buffer move: bits, bytes and longwords of a merge, of the data of a store, and of
the datum of a load. -/

namespace Sys2Proof.Machine

/-! ## Masks and merges -/

theorem longOnes_bit (b : Bool) (i : Nat) : (longOnes b).getLsbD i = (decide (i < 32) && b) := by
  cases b
  · simp [longOnes]
  · by_cases h : i < 32
    · simp only [longOnes, if_true, h, decide_true, Bool.true_and]
      interval_cases i <;> rfl
    · simp [longOnes, h, BitVec.getLsbD_of_ge _ _ (Nat.le_of_not_lt h)]

theorem longMask_bit (m : BitVec 8) (i : Nat) (h : i < 256) : (longMask m).getLsbD i = m.getLsbD (i / 32) := by
  obtain ⟨k, j, hj, hk, rfl⟩ : ∃ k j, j < 32 ∧ k < 8 ∧ i = 32 * k + j := ⟨i / 32, i % 32, by omega, by omega, by omega⟩
  rw [show (32 * k + j) / 32 = k by omega]
  unfold longMask
  simp only [BitVec.getLsbD_append, longOnes_bit]
  interval_cases k
  all_goals
    repeat rw [if_pos (by omega)]
    try rw [if_neg (by omega)]
    rw [decide_eq_true (by omega), Bool.true_and]

theorem mergeHex_bit (old new : Hexword) (mask : BitVec 8) (i : Nat) (h : i < 256) :
    (mergeHex old new mask).getLsbD i = if mask.getLsbD (i / 32) then new.getLsbD i else old.getLsbD i := by
  unfold mergeHex
  simp only [BitVec.getLsbD_or, BitVec.getLsbD_and, BitVec.getLsbD_not, longMask_bit _ _ h, h, decide_true, Bool.true_and]
  cases mask.getLsbD (i / 32) <;> simp

theorem hexByte_bit (x : Hexword) (k j : Nat) (h : j < 8) : (hexByte x k).getLsbD j = x.getLsbD (8 * k + j) := by
  simp [hexByte, h]

/-- A byte of a merge. -/
theorem hexByte_mergeHex (old new : Hexword) (mask : BitVec 8) (k : Nat) (h : k < 32) :
    hexByte (mergeHex old new mask) k = if mask.getLsbD (k / 4) then hexByte new k else hexByte old k := by
  apply BitVec.eq_of_getLsbD_eq
  intro j hj
  rw [hexByte_bit _ _ _ hj, mergeHex_bit _ _ _ _ (by omega), show (8 * k + j) / 32 = k / 4 by omega]
  split <;> rw [hexByte_bit _ _ _ hj]

/-- Merging twice is merging once. -/
theorem mergeHex_mergeHex (r x data : Hexword) (m mask : BitVec 8) :
    mergeHex (mergeHex r x m) data mask = mergeHex r (mergeHex x data mask) (m ||| mask) := by
  apply BitVec.eq_of_getLsbD_eq
  intro i hi
  simp only [mergeHex_bit _ _ _ _ hi, BitVec.getLsbD_or]
  cases m.getLsbD (i / 32) <;> cases mask.getLsbD (i / 32) <;> simp

/-! ## Places in a block -/

/-- The place of an address in its block, and the address of a place. -/
theorem place_toNat (a : PAddr) : (a.setWidth 5).toNat = a.toNat % 32 := by simp

theorem granule_toNat (a : PAddr) : (granule a).toNat = a.toNat / 32 := by
  have := a.isLt
  simp only [granule, BitVec.extractLsb'_toNat, Nat.shiftRight_eq_div_pow]
  omega

theorem granule_eq_iff (a b : PAddr) : granule a = granule b ↔ a.toNat / 32 = b.toNat / 32 := by
  rw [← granule_toNat, ← granule_toNat]
  exact ⟨fun h => by rw [h], fun h => BitVec.eq_of_toNat_eq h⟩

/-- An access does not cross its block. -/
def alignedTo (quad : Bool) (a : PAddr) : Prop := a.toNat % sizeOf quad = 0

theorem sizeOf_le (quad : Bool) : sizeOf quad ≤ 8 := by cases quad <;> decide

/-- The longwords of an access. -/
theorem longsOf_bit (quad : Bool) (a : PAddr) (h : alignedTo quad a) (j : Nat) (hj : j < 8) :
    (longsOf quad a).getLsbD j =
      (decide (a.toNat % 32 ≤ 4 * j) && decide (4 * j < a.toNat % 32 + sizeOf quad)) := by
  unfold longsOf
  have hp : (a.extractLsb' 2 3).toNat = a.toNat / 4 % 8 := by
    simp [BitVec.extractLsb'_toNat, Nat.shiftRight_eq_div_pow]
  rw [BitVec.getLsbD_shiftLeft, hp]
  unfold alignedTo at h
  cases quad with
  | true =>
    simp only [Machine.sizeOf, if_true] at h ⊢
    have : (3#8).getLsbD (j - a.toNat / 4 % 8) = decide (j - a.toNat / 4 % 8 < 2) := by
      have hn : j - a.toNat / 4 % 8 < 8 := by omega
      generalize j - a.toNat / 4 % 8 = n at hn
      interval_cases n <;> rfl
    rw [this, Bool.eq_iff_iff]
    simp
    omega
  | false =>
    simp only [Machine.sizeOf, Bool.false_eq_true, if_false] at h ⊢
    have : (1#8).getLsbD (j - a.toNat / 4 % 8) = decide (j - a.toNat / 4 % 8 < 1) := by
      have hn : j - a.toNat / 4 % 8 < 8 := by omega
      generalize j - a.toNat / 4 % 8 = n at hn
      interval_cases n <;> rfl
    rw [this, Bool.eq_iff_iff]
    simp
    omega

theorem byteOf_bit (v : Word) (i j : Nat) (h : j < 8) : (byteOf v i).getLsbD j = v.getLsbD (8 * i + j) := by
  simp [byteOf, h]

/-- A byte of the data of a store. -/
theorem hexByte_blockData (quad : Bool) (a : PAddr) (v : Word) (k : Nat) (hk : k < 32)
    (h : a.toNat % 32 ≤ k ∧ k < a.toNat % 32 + sizeOf quad) :
    hexByte (blockData quad a v) k = byteOf v (k - a.toNat % 32) := by
  apply BitVec.eq_of_getLsbD_eq
  intro j hj
  rw [hexByte_bit _ _ _ hj, byteOf_bit _ _ _ hj]
  unfold blockData
  rw [BitVec.getLsbD_shiftLeft, place_toNat]
  have e : 8 * k + j - 8 * (a.toNat % 32) = 8 * (k - a.toNat % 32) + j := by omega
  have h1 : 8 * k + j < 256 := by omega
  have h2 : ¬ 8 * k + j < 8 * (a.toNat % 32) := by omega
  rw [e]
  cases quad with
  | true =>
    simp only [Machine.sizeOf, if_true] at h ⊢
    simp [h1, h2, show 8 * (k - a.toNat % 32) + j < 256 by omega]
  | false =>
    simp only [Machine.sizeOf, Bool.false_eq_true, if_false] at h ⊢
    simp [h1, h2, show 8 * (k - a.toNat % 32) + j < 256 by omega,
      show 8 * (k - a.toNat % 32) + j < 32 by omega]

/-- A byte of the datum of a load. -/
theorem byteOf_hexDatum (quad : Bool) (a : PAddr) (x : Hexword) (i : Nat) (h : alignedTo quad a) (hi : i < sizeOf quad) :
    byteOf (hexDatum quad a x) i = hexByte x (a.toNat % 32 + i) := by
  apply BitVec.eq_of_getLsbD_eq
  intro j hj
  rw [hexByte_bit _ _ _ hj, byteOf_bit _ _ _ hj]
  unfold hexDatum
  rw [place_toNat]
  have e : 8 * (a.toNat % 32) + (8 * i + j) = 8 * (a.toNat % 32 + i) + j := by omega
  cases quad with
  | true =>
    simp only [Machine.sizeOf, if_true] at hi ⊢
    simp [e, show 8 * i + j < 64 by omega]
  | false =>
    simp only [Machine.sizeOf, Bool.false_eq_true, if_false] at hi ⊢
    simp [e, show 8 * i + j < 64 by omega, show 8 * i + j < 32 by omega]

/-- Storing 4 or 8 bytes into their block, byte by byte. -/
theorem hexByte_store (quad : Bool) (a x : PAddr) (v : Word) (old : Hexword) (h : alignedTo quad a)
    (hb : granule x = granule a) :
    hexByte (mergeHex old (blockData quad a v) (longsOf quad a)) (x.setWidth 5).toNat =
      if a.toNat ≤ x.toNat ∧ x.toNat < a.toNat + sizeOf quad then byteOf v (x.toNat - a.toNat)
      else hexByte old (x.setWidth 5).toNat := by
  have hb' := (granule_eq_iff x a).1 hb
  rw [place_toNat, hexByte_mergeHex _ _ _ _ (by omega), longsOf_bit quad a h _ (by omega)]
  have hs : sizeOf quad = 4 ∨ sizeOf quad = 8 := by cases quad <;> simp [Machine.sizeOf]
  unfold alignedTo at h
  by_cases hr : a.toNat ≤ x.toNat ∧ x.toNat < a.toNat + sizeOf quad
  · rw [if_pos hr, if_pos, hexByte_blockData quad a v _ (by omega) (by omega)]
    · congr 1; omega
    · simp only [Bool.and_eq_true, decide_eq_true_eq]; rcases hs with hs | hs <;> rw [hs] at h hr ⊢ <;> omega
  · rw [if_neg hr, if_neg]
    simp only [Bool.and_eq_true, decide_eq_true_eq]
    rcases hs with hs | hs <;> rw [hs] at h hr ⊢ <;> omega

end Sys2Proof.Machine
end

