-- ==== Sys2Proof/Laws/State.lean ====
section
/-! SUPPORT. One lemma per field of State for each operation that leaves it unchanged, and the values of the fields it
changes. -/

namespace Sys2Proof.Machine

variable (s : State)

/-! ### drawn -/

@[simp] theorem State.drawn_ints : (s.drawn).ints = s.ints := rfl
@[simp] theorem State.drawn_shadow : (s.drawn).shadow = s.shadow := rfl
@[simp] theorem State.drawn_fregs : (s.drawn).fregs = s.fregs := rfl
@[simp] theorem State.drawn_palTemps : (s.drawn).palTemps = s.palTemps := rfl
@[simp] theorem State.drawn_pc : (s.drawn).pc = s.pc := rfl
@[simp] theorem State.drawn_palmode : (s.drawn).palmode = s.palmode := rfl
@[simp] theorem State.drawn_fpcr : (s.drawn).fpcr = s.fpcr := rfl
@[simp] theorem State.drawn_lockFlag : (s.drawn).lockFlag = s.lockFlag := rfl
@[simp] theorem State.drawn_lockAddr : (s.drawn).lockAddr = s.lockAddr := rfl
@[simp] theorem State.drawn_intrFlag : (s.drawn).intrFlag = s.intrFlag := rfl
@[simp] theorem State.drawn_ibox : (s.drawn).ibox = s.ibox := rfl
@[simp] theorem State.drawn_mbox : (s.drawn).mbox = s.mbox := rfl
@[simp] theorem State.drawn_cbox : (s.drawn).cbox = s.cbox := rfl
@[simp] theorem State.drawn_itb : (s.drawn).itb = s.itb := rfl
@[simp] theorem State.drawn_dtb : (s.drawn).dtb = s.dtb := rfl
@[simp] theorem State.drawn_icache : (s.drawn).icache = s.icache := rfl
@[simp] theorem State.drawn_dcache : (s.drawn).dcache = s.dcache := rfl
@[simp] theorem State.drawn_wb : (s.drawn).wb = s.wb := rfl
@[simp] theorem State.drawn_wbFence : (s.drawn).wbFence = s.wbFence := rfl
@[simp] theorem State.drawn_maf : (s.drawn).maf = s.maf := rfl
@[simp] theorem State.drawn_imaf : (s.drawn).imaf = s.imaf := rfl
@[simp] theorem State.drawn_mbWaits : (s.drawn).mbWaits = s.mbWaits := rfl
@[simp] theorem State.drawn_scache : (s.drawn).scache = s.scache := rfl
@[simp] theorem State.drawn_victims : (s.drawn).victims = s.victims := rfl
@[simp] theorem State.drawn_bcTags : (s.drawn).bcTags = s.bcTags := rfl
@[simp] theorem State.drawn_bcDatas : (s.drawn).bcDatas = s.bcDatas := rfl
@[simp] theorem State.drawn_miss0 : (s.drawn).miss0 = s.miss0 := rfl
@[simp] theorem State.drawn_miss1 : (s.drawn).miss1 = s.miss1 := rfl
@[simp] theorem State.drawn_cmds : (s.drawn).cmds = s.cmds := rfl
@[simp] theorem State.drawn_nopParity : (s.drawn).nopParity = s.nopParity := rfl
@[simp] theorem State.drawn_mchkPending : (s.drawn).mchkPending = s.mchkPending := rfl
@[simp] theorem State.drawn_afterMb : (s.drawn).afterMb = s.afterMb := rfl
@[simp] theorem State.drawn_owed : (s.drawn).owed = s.owed := rfl
@[simp] theorem State.drawn_itbPending : (s.drawn).itbPending = s.itbPending := rfl
@[simp] theorem State.drawn_istreamLost : (s.drawn).istreamLost = s.istreamLost := rfl
@[simp] theorem State.drawn_stalled : (s.drawn).stalled = s.stalled := rfl
@[simp] theorem State.drawn_pulse : (s.drawn).pulse = s.pulse := rfl
@[simp] theorem State.drawn_mem : (s.drawn).mem = s.mem := rfl
@[simp] theorem State.drawn_pins : (s.drawn).pins = s.pins := rfl
@[simp] theorem State.drawn_inputs : (s.drawn).inputs = s.inputs := rfl
@[simp] theorem State.drawn_answers : (s.drawn).answers = s.answers := rfl
@[simp] theorem State.drawn_busOut : (s.drawn).busOut = s.busOut := rfl
@[simp] theorem State.drawn_tally : (s.drawn).tally = s.tally := rfl
@[simp] theorem State.drawn_ended : (s.drawn).ended = s.ended := rfl

/-! ### advance -/

@[simp] theorem State.advance_ints : (s.advance).ints = s.ints := rfl
@[simp] theorem State.advance_shadow : (s.advance).shadow = s.shadow := rfl
@[simp] theorem State.advance_fregs : (s.advance).fregs = s.fregs := rfl
@[simp] theorem State.advance_palTemps : (s.advance).palTemps = s.palTemps := rfl
@[simp] theorem State.advance_palmode : (s.advance).palmode = s.palmode := rfl
@[simp] theorem State.advance_fpcr : (s.advance).fpcr = s.fpcr := rfl
@[simp] theorem State.advance_lockFlag : (s.advance).lockFlag = s.lockFlag := rfl
@[simp] theorem State.advance_lockAddr : (s.advance).lockAddr = s.lockAddr := rfl
@[simp] theorem State.advance_intrFlag : (s.advance).intrFlag = s.intrFlag := rfl
@[simp] theorem State.advance_ibox : (s.advance).ibox = s.ibox := rfl
@[simp] theorem State.advance_mbox : (s.advance).mbox = s.mbox := rfl
@[simp] theorem State.advance_cbox : (s.advance).cbox = s.cbox := rfl
@[simp] theorem State.advance_itb : (s.advance).itb = s.itb := rfl
@[simp] theorem State.advance_dtb : (s.advance).dtb = s.dtb := rfl
@[simp] theorem State.advance_icache : (s.advance).icache = s.icache := rfl
@[simp] theorem State.advance_dcache : (s.advance).dcache = s.dcache := rfl
@[simp] theorem State.advance_wb : (s.advance).wb = s.wb := rfl
@[simp] theorem State.advance_wbFence : (s.advance).wbFence = s.wbFence := rfl
@[simp] theorem State.advance_maf : (s.advance).maf = s.maf := rfl
@[simp] theorem State.advance_imaf : (s.advance).imaf = s.imaf := rfl
@[simp] theorem State.advance_mbWaits : (s.advance).mbWaits = s.mbWaits := rfl
@[simp] theorem State.advance_scache : (s.advance).scache = s.scache := rfl
@[simp] theorem State.advance_victims : (s.advance).victims = s.victims := rfl
@[simp] theorem State.advance_bcTags : (s.advance).bcTags = s.bcTags := rfl
@[simp] theorem State.advance_bcDatas : (s.advance).bcDatas = s.bcDatas := rfl
@[simp] theorem State.advance_miss0 : (s.advance).miss0 = s.miss0 := rfl
@[simp] theorem State.advance_miss1 : (s.advance).miss1 = s.miss1 := rfl
@[simp] theorem State.advance_cmds : (s.advance).cmds = s.cmds := rfl
@[simp] theorem State.advance_nopParity : (s.advance).nopParity = s.nopParity := rfl
@[simp] theorem State.advance_mchkPending : (s.advance).mchkPending = s.mchkPending := rfl
@[simp] theorem State.advance_afterMb : (s.advance).afterMb = s.afterMb := rfl
@[simp] theorem State.advance_owed : (s.advance).owed = s.owed := rfl
@[simp] theorem State.advance_itbPending : (s.advance).itbPending = s.itbPending := rfl
@[simp] theorem State.advance_istreamLost : (s.advance).istreamLost = s.istreamLost := rfl
@[simp] theorem State.advance_stalled : (s.advance).stalled = s.stalled := rfl
@[simp] theorem State.advance_pulse : (s.advance).pulse = s.pulse := rfl
@[simp] theorem State.advance_mem : (s.advance).mem = s.mem := rfl
@[simp] theorem State.advance_pins : (s.advance).pins = s.pins := rfl
@[simp] theorem State.advance_inputs : (s.advance).inputs = s.inputs := rfl
@[simp] theorem State.advance_answers : (s.advance).answers = s.answers := rfl
@[simp] theorem State.advance_busOut : (s.advance).busOut = s.busOut := rfl
@[simp] theorem State.advance_freeCount : (s.advance).freeCount = s.freeCount := rfl
@[simp] theorem State.advance_tally : (s.advance).tally = s.tally := rfl
@[simp] theorem State.advance_ended : (s.advance).ended = s.ended := rfl

/-! ### jumpTo -/

@[simp] theorem State.jumpTo_ints (a : Word) : (s.jumpTo a).ints = s.ints := rfl
@[simp] theorem State.jumpTo_shadow (a : Word) : (s.jumpTo a).shadow = s.shadow := rfl
@[simp] theorem State.jumpTo_fregs (a : Word) : (s.jumpTo a).fregs = s.fregs := rfl
@[simp] theorem State.jumpTo_palTemps (a : Word) : (s.jumpTo a).palTemps = s.palTemps := rfl
@[simp] theorem State.jumpTo_palmode (a : Word) : (s.jumpTo a).palmode = s.palmode := rfl
@[simp] theorem State.jumpTo_fpcr (a : Word) : (s.jumpTo a).fpcr = s.fpcr := rfl
@[simp] theorem State.jumpTo_lockFlag (a : Word) : (s.jumpTo a).lockFlag = s.lockFlag := rfl
@[simp] theorem State.jumpTo_lockAddr (a : Word) : (s.jumpTo a).lockAddr = s.lockAddr := rfl
@[simp] theorem State.jumpTo_intrFlag (a : Word) : (s.jumpTo a).intrFlag = s.intrFlag := rfl
@[simp] theorem State.jumpTo_ibox (a : Word) : (s.jumpTo a).ibox = s.ibox := rfl
@[simp] theorem State.jumpTo_mbox (a : Word) : (s.jumpTo a).mbox = s.mbox := rfl
@[simp] theorem State.jumpTo_cbox (a : Word) : (s.jumpTo a).cbox = s.cbox := rfl
@[simp] theorem State.jumpTo_itb (a : Word) : (s.jumpTo a).itb = s.itb := rfl
@[simp] theorem State.jumpTo_dtb (a : Word) : (s.jumpTo a).dtb = s.dtb := rfl
@[simp] theorem State.jumpTo_icache (a : Word) : (s.jumpTo a).icache = s.icache := rfl
@[simp] theorem State.jumpTo_dcache (a : Word) : (s.jumpTo a).dcache = s.dcache := rfl
@[simp] theorem State.jumpTo_wb (a : Word) : (s.jumpTo a).wb = s.wb := rfl
@[simp] theorem State.jumpTo_wbFence (a : Word) : (s.jumpTo a).wbFence = s.wbFence := rfl
@[simp] theorem State.jumpTo_maf (a : Word) : (s.jumpTo a).maf = s.maf := rfl
@[simp] theorem State.jumpTo_imaf (a : Word) : (s.jumpTo a).imaf = s.imaf := rfl
@[simp] theorem State.jumpTo_mbWaits (a : Word) : (s.jumpTo a).mbWaits = s.mbWaits := rfl
@[simp] theorem State.jumpTo_scache (a : Word) : (s.jumpTo a).scache = s.scache := rfl
@[simp] theorem State.jumpTo_victims (a : Word) : (s.jumpTo a).victims = s.victims := rfl
@[simp] theorem State.jumpTo_bcTags (a : Word) : (s.jumpTo a).bcTags = s.bcTags := rfl
@[simp] theorem State.jumpTo_bcDatas (a : Word) : (s.jumpTo a).bcDatas = s.bcDatas := rfl
@[simp] theorem State.jumpTo_miss0 (a : Word) : (s.jumpTo a).miss0 = s.miss0 := rfl
@[simp] theorem State.jumpTo_miss1 (a : Word) : (s.jumpTo a).miss1 = s.miss1 := rfl
@[simp] theorem State.jumpTo_cmds (a : Word) : (s.jumpTo a).cmds = s.cmds := rfl
@[simp] theorem State.jumpTo_nopParity (a : Word) : (s.jumpTo a).nopParity = s.nopParity := rfl
@[simp] theorem State.jumpTo_mchkPending (a : Word) : (s.jumpTo a).mchkPending = s.mchkPending := rfl
@[simp] theorem State.jumpTo_afterMb (a : Word) : (s.jumpTo a).afterMb = s.afterMb := rfl
@[simp] theorem State.jumpTo_owed (a : Word) : (s.jumpTo a).owed = s.owed := rfl
@[simp] theorem State.jumpTo_itbPending (a : Word) : (s.jumpTo a).itbPending = s.itbPending := rfl
@[simp] theorem State.jumpTo_istreamLost (a : Word) : (s.jumpTo a).istreamLost = s.istreamLost := rfl
@[simp] theorem State.jumpTo_stalled (a : Word) : (s.jumpTo a).stalled = s.stalled := rfl
@[simp] theorem State.jumpTo_pulse (a : Word) : (s.jumpTo a).pulse = s.pulse := rfl
@[simp] theorem State.jumpTo_mem (a : Word) : (s.jumpTo a).mem = s.mem := rfl
@[simp] theorem State.jumpTo_pins (a : Word) : (s.jumpTo a).pins = s.pins := rfl
@[simp] theorem State.jumpTo_inputs (a : Word) : (s.jumpTo a).inputs = s.inputs := rfl
@[simp] theorem State.jumpTo_answers (a : Word) : (s.jumpTo a).answers = s.answers := rfl
@[simp] theorem State.jumpTo_busOut (a : Word) : (s.jumpTo a).busOut = s.busOut := rfl
@[simp] theorem State.jumpTo_freeCount (a : Word) : (s.jumpTo a).freeCount = s.freeCount := rfl
@[simp] theorem State.jumpTo_tally (a : Word) : (s.jumpTo a).tally = s.tally := rfl
@[simp] theorem State.jumpTo_ended (a : Word) : (s.jumpTo a).ended = s.ended := rfl

/-! ### setExcAddr -/

@[simp] theorem State.setExcAddr_ints (a : Word) : (s.setExcAddr a).ints = s.ints := rfl
@[simp] theorem State.setExcAddr_shadow (a : Word) : (s.setExcAddr a).shadow = s.shadow := rfl
@[simp] theorem State.setExcAddr_fregs (a : Word) : (s.setExcAddr a).fregs = s.fregs := rfl
@[simp] theorem State.setExcAddr_palTemps (a : Word) : (s.setExcAddr a).palTemps = s.palTemps := rfl
@[simp] theorem State.setExcAddr_pc (a : Word) : (s.setExcAddr a).pc = s.pc := rfl
@[simp] theorem State.setExcAddr_palmode (a : Word) : (s.setExcAddr a).palmode = s.palmode := rfl
@[simp] theorem State.setExcAddr_fpcr (a : Word) : (s.setExcAddr a).fpcr = s.fpcr := rfl
@[simp] theorem State.setExcAddr_lockFlag (a : Word) : (s.setExcAddr a).lockFlag = s.lockFlag := rfl
@[simp] theorem State.setExcAddr_lockAddr (a : Word) : (s.setExcAddr a).lockAddr = s.lockAddr := rfl
@[simp] theorem State.setExcAddr_intrFlag (a : Word) : (s.setExcAddr a).intrFlag = s.intrFlag := rfl
@[simp] theorem State.setExcAddr_mbox (a : Word) : (s.setExcAddr a).mbox = s.mbox := rfl
@[simp] theorem State.setExcAddr_cbox (a : Word) : (s.setExcAddr a).cbox = s.cbox := rfl
@[simp] theorem State.setExcAddr_itb (a : Word) : (s.setExcAddr a).itb = s.itb := rfl
@[simp] theorem State.setExcAddr_dtb (a : Word) : (s.setExcAddr a).dtb = s.dtb := rfl
@[simp] theorem State.setExcAddr_icache (a : Word) : (s.setExcAddr a).icache = s.icache := rfl
@[simp] theorem State.setExcAddr_dcache (a : Word) : (s.setExcAddr a).dcache = s.dcache := rfl
@[simp] theorem State.setExcAddr_wb (a : Word) : (s.setExcAddr a).wb = s.wb := rfl
@[simp] theorem State.setExcAddr_wbFence (a : Word) : (s.setExcAddr a).wbFence = s.wbFence := rfl
@[simp] theorem State.setExcAddr_maf (a : Word) : (s.setExcAddr a).maf = s.maf := rfl
@[simp] theorem State.setExcAddr_imaf (a : Word) : (s.setExcAddr a).imaf = s.imaf := rfl
@[simp] theorem State.setExcAddr_mbWaits (a : Word) : (s.setExcAddr a).mbWaits = s.mbWaits := rfl
@[simp] theorem State.setExcAddr_scache (a : Word) : (s.setExcAddr a).scache = s.scache := rfl
@[simp] theorem State.setExcAddr_victims (a : Word) : (s.setExcAddr a).victims = s.victims := rfl
@[simp] theorem State.setExcAddr_bcTags (a : Word) : (s.setExcAddr a).bcTags = s.bcTags := rfl
@[simp] theorem State.setExcAddr_bcDatas (a : Word) : (s.setExcAddr a).bcDatas = s.bcDatas := rfl
@[simp] theorem State.setExcAddr_miss0 (a : Word) : (s.setExcAddr a).miss0 = s.miss0 := rfl
@[simp] theorem State.setExcAddr_miss1 (a : Word) : (s.setExcAddr a).miss1 = s.miss1 := rfl
@[simp] theorem State.setExcAddr_cmds (a : Word) : (s.setExcAddr a).cmds = s.cmds := rfl
@[simp] theorem State.setExcAddr_nopParity (a : Word) : (s.setExcAddr a).nopParity = s.nopParity := rfl
@[simp] theorem State.setExcAddr_mchkPending (a : Word) : (s.setExcAddr a).mchkPending = s.mchkPending := rfl
@[simp] theorem State.setExcAddr_afterMb (a : Word) : (s.setExcAddr a).afterMb = s.afterMb := rfl
@[simp] theorem State.setExcAddr_owed (a : Word) : (s.setExcAddr a).owed = s.owed := rfl
@[simp] theorem State.setExcAddr_itbPending (a : Word) : (s.setExcAddr a).itbPending = s.itbPending := rfl
@[simp] theorem State.setExcAddr_istreamLost (a : Word) : (s.setExcAddr a).istreamLost = s.istreamLost := rfl
@[simp] theorem State.setExcAddr_stalled (a : Word) : (s.setExcAddr a).stalled = s.stalled := rfl
@[simp] theorem State.setExcAddr_pulse (a : Word) : (s.setExcAddr a).pulse = s.pulse := rfl
@[simp] theorem State.setExcAddr_mem (a : Word) : (s.setExcAddr a).mem = s.mem := rfl
@[simp] theorem State.setExcAddr_pins (a : Word) : (s.setExcAddr a).pins = s.pins := rfl
@[simp] theorem State.setExcAddr_inputs (a : Word) : (s.setExcAddr a).inputs = s.inputs := rfl
@[simp] theorem State.setExcAddr_answers (a : Word) : (s.setExcAddr a).answers = s.answers := rfl
@[simp] theorem State.setExcAddr_busOut (a : Word) : (s.setExcAddr a).busOut = s.busOut := rfl
@[simp] theorem State.setExcAddr_freeCount (a : Word) : (s.setExcAddr a).freeCount = s.freeCount := rfl
@[simp] theorem State.setExcAddr_tally (a : Word) : (s.setExcAddr a).tally = s.tally := rfl
@[simp] theorem State.setExcAddr_ended (a : Word) : (s.setExcAddr a).ended = s.ended := rfl

/-! ### enterPal -/

@[simp] theorem State.enterPal_ints (o : BitVec 14) (a : Word) : (s.enterPal o a).ints = s.ints := rfl
@[simp] theorem State.enterPal_shadow (o : BitVec 14) (a : Word) : (s.enterPal o a).shadow = s.shadow := rfl
@[simp] theorem State.enterPal_fregs (o : BitVec 14) (a : Word) : (s.enterPal o a).fregs = s.fregs := rfl
@[simp] theorem State.enterPal_palTemps (o : BitVec 14) (a : Word) : (s.enterPal o a).palTemps = s.palTemps := rfl
@[simp] theorem State.enterPal_fpcr (o : BitVec 14) (a : Word) : (s.enterPal o a).fpcr = s.fpcr := rfl
@[simp] theorem State.enterPal_lockFlag (o : BitVec 14) (a : Word) : (s.enterPal o a).lockFlag = s.lockFlag := rfl
@[simp] theorem State.enterPal_lockAddr (o : BitVec 14) (a : Word) : (s.enterPal o a).lockAddr = s.lockAddr := rfl
@[simp] theorem State.enterPal_intrFlag (o : BitVec 14) (a : Word) : (s.enterPal o a).intrFlag = s.intrFlag := rfl
@[simp] theorem State.enterPal_mbox (o : BitVec 14) (a : Word) : (s.enterPal o a).mbox = s.mbox := rfl
@[simp] theorem State.enterPal_cbox (o : BitVec 14) (a : Word) : (s.enterPal o a).cbox = s.cbox := rfl
@[simp] theorem State.enterPal_itb (o : BitVec 14) (a : Word) : (s.enterPal o a).itb = s.itb := rfl
@[simp] theorem State.enterPal_dtb (o : BitVec 14) (a : Word) : (s.enterPal o a).dtb = s.dtb := rfl
@[simp] theorem State.enterPal_icache (o : BitVec 14) (a : Word) : (s.enterPal o a).icache = s.icache := rfl
@[simp] theorem State.enterPal_dcache (o : BitVec 14) (a : Word) : (s.enterPal o a).dcache = s.dcache := rfl
@[simp] theorem State.enterPal_wb (o : BitVec 14) (a : Word) : (s.enterPal o a).wb = s.wb := rfl
@[simp] theorem State.enterPal_wbFence (o : BitVec 14) (a : Word) : (s.enterPal o a).wbFence = s.wbFence := rfl
@[simp] theorem State.enterPal_maf (o : BitVec 14) (a : Word) : (s.enterPal o a).maf = s.maf := rfl
@[simp] theorem State.enterPal_imaf (o : BitVec 14) (a : Word) : (s.enterPal o a).imaf = s.imaf := rfl
@[simp] theorem State.enterPal_mbWaits (o : BitVec 14) (a : Word) : (s.enterPal o a).mbWaits = s.mbWaits := rfl
@[simp] theorem State.enterPal_scache (o : BitVec 14) (a : Word) : (s.enterPal o a).scache = s.scache := rfl
@[simp] theorem State.enterPal_victims (o : BitVec 14) (a : Word) : (s.enterPal o a).victims = s.victims := rfl
@[simp] theorem State.enterPal_bcTags (o : BitVec 14) (a : Word) : (s.enterPal o a).bcTags = s.bcTags := rfl
@[simp] theorem State.enterPal_bcDatas (o : BitVec 14) (a : Word) : (s.enterPal o a).bcDatas = s.bcDatas := rfl
@[simp] theorem State.enterPal_miss0 (o : BitVec 14) (a : Word) : (s.enterPal o a).miss0 = s.miss0 := rfl
@[simp] theorem State.enterPal_miss1 (o : BitVec 14) (a : Word) : (s.enterPal o a).miss1 = s.miss1 := rfl
@[simp] theorem State.enterPal_cmds (o : BitVec 14) (a : Word) : (s.enterPal o a).cmds = s.cmds := rfl
@[simp] theorem State.enterPal_nopParity (o : BitVec 14) (a : Word) : (s.enterPal o a).nopParity = s.nopParity := rfl
@[simp] theorem State.enterPal_mchkPending (o : BitVec 14) (a : Word) : (s.enterPal o a).mchkPending = s.mchkPending := rfl
@[simp] theorem State.enterPal_afterMb (o : BitVec 14) (a : Word) : (s.enterPal o a).afterMb = s.afterMb := rfl
@[simp] theorem State.enterPal_owed (o : BitVec 14) (a : Word) : (s.enterPal o a).owed = s.owed := rfl
@[simp] theorem State.enterPal_itbPending (o : BitVec 14) (a : Word) : (s.enterPal o a).itbPending = s.itbPending := rfl
@[simp] theorem State.enterPal_istreamLost (o : BitVec 14) (a : Word) : (s.enterPal o a).istreamLost = s.istreamLost := rfl
@[simp] theorem State.enterPal_stalled (o : BitVec 14) (a : Word) : (s.enterPal o a).stalled = s.stalled := rfl
@[simp] theorem State.enterPal_pulse (o : BitVec 14) (a : Word) : (s.enterPal o a).pulse = s.pulse := rfl
@[simp] theorem State.enterPal_mem (o : BitVec 14) (a : Word) : (s.enterPal o a).mem = s.mem := rfl
@[simp] theorem State.enterPal_pins (o : BitVec 14) (a : Word) : (s.enterPal o a).pins = s.pins := rfl
@[simp] theorem State.enterPal_inputs (o : BitVec 14) (a : Word) : (s.enterPal o a).inputs = s.inputs := rfl
@[simp] theorem State.enterPal_answers (o : BitVec 14) (a : Word) : (s.enterPal o a).answers = s.answers := rfl
@[simp] theorem State.enterPal_busOut (o : BitVec 14) (a : Word) : (s.enterPal o a).busOut = s.busOut := rfl
@[simp] theorem State.enterPal_freeCount (o : BitVec 14) (a : Word) : (s.enterPal o a).freeCount = s.freeCount := rfl
@[simp] theorem State.enterPal_tally (o : BitVec 14) (a : Word) : (s.enterPal o a).tally = s.tally := rfl
@[simp] theorem State.enterPal_ended (o : BitVec 14) (a : Word) : (s.enterPal o a).ended = s.ended := rfl

/-! ### trap -/

@[simp] theorem State.trap_ints (e : Entry) (a : Word) : (s.trap e a).ints = s.ints := rfl
@[simp] theorem State.trap_shadow (e : Entry) (a : Word) : (s.trap e a).shadow = s.shadow := rfl
@[simp] theorem State.trap_fregs (e : Entry) (a : Word) : (s.trap e a).fregs = s.fregs := rfl
@[simp] theorem State.trap_palTemps (e : Entry) (a : Word) : (s.trap e a).palTemps = s.palTemps := rfl
@[simp] theorem State.trap_fpcr (e : Entry) (a : Word) : (s.trap e a).fpcr = s.fpcr := rfl
@[simp] theorem State.trap_lockFlag (e : Entry) (a : Word) : (s.trap e a).lockFlag = s.lockFlag := rfl
@[simp] theorem State.trap_lockAddr (e : Entry) (a : Word) : (s.trap e a).lockAddr = s.lockAddr := rfl
@[simp] theorem State.trap_mbox (e : Entry) (a : Word) : (s.trap e a).mbox = s.mbox := rfl
@[simp] theorem State.trap_cbox (e : Entry) (a : Word) : (s.trap e a).cbox = s.cbox := rfl
@[simp] theorem State.trap_itb (e : Entry) (a : Word) : (s.trap e a).itb = s.itb := rfl
@[simp] theorem State.trap_dtb (e : Entry) (a : Word) : (s.trap e a).dtb = s.dtb := rfl
@[simp] theorem State.trap_icache (e : Entry) (a : Word) : (s.trap e a).icache = s.icache := rfl
@[simp] theorem State.trap_dcache (e : Entry) (a : Word) : (s.trap e a).dcache = s.dcache := rfl
@[simp] theorem State.trap_wb (e : Entry) (a : Word) : (s.trap e a).wb = s.wb := rfl
@[simp] theorem State.trap_wbFence (e : Entry) (a : Word) : (s.trap e a).wbFence = s.wbFence := rfl
@[simp] theorem State.trap_maf (e : Entry) (a : Word) : (s.trap e a).maf = s.maf := rfl
@[simp] theorem State.trap_imaf (e : Entry) (a : Word) : (s.trap e a).imaf = s.imaf := rfl
@[simp] theorem State.trap_mbWaits (e : Entry) (a : Word) : (s.trap e a).mbWaits = s.mbWaits := rfl
@[simp] theorem State.trap_scache (e : Entry) (a : Word) : (s.trap e a).scache = s.scache := rfl
@[simp] theorem State.trap_victims (e : Entry) (a : Word) : (s.trap e a).victims = s.victims := rfl
@[simp] theorem State.trap_bcTags (e : Entry) (a : Word) : (s.trap e a).bcTags = s.bcTags := rfl
@[simp] theorem State.trap_bcDatas (e : Entry) (a : Word) : (s.trap e a).bcDatas = s.bcDatas := rfl
@[simp] theorem State.trap_miss0 (e : Entry) (a : Word) : (s.trap e a).miss0 = s.miss0 := rfl
@[simp] theorem State.trap_miss1 (e : Entry) (a : Word) : (s.trap e a).miss1 = s.miss1 := rfl
@[simp] theorem State.trap_cmds (e : Entry) (a : Word) : (s.trap e a).cmds = s.cmds := rfl
@[simp] theorem State.trap_nopParity (e : Entry) (a : Word) : (s.trap e a).nopParity = s.nopParity := rfl
@[simp] theorem State.trap_mchkPending (e : Entry) (a : Word) : (s.trap e a).mchkPending = s.mchkPending := rfl
@[simp] theorem State.trap_afterMb (e : Entry) (a : Word) : (s.trap e a).afterMb = s.afterMb := rfl
@[simp] theorem State.trap_owed (e : Entry) (a : Word) : (s.trap e a).owed = s.owed := rfl
@[simp] theorem State.trap_itbPending (e : Entry) (a : Word) : (s.trap e a).itbPending = s.itbPending := rfl
@[simp] theorem State.trap_istreamLost (e : Entry) (a : Word) : (s.trap e a).istreamLost = s.istreamLost := rfl
@[simp] theorem State.trap_stalled (e : Entry) (a : Word) : (s.trap e a).stalled = s.stalled := rfl
@[simp] theorem State.trap_pulse (e : Entry) (a : Word) : (s.trap e a).pulse = s.pulse := rfl
@[simp] theorem State.trap_mem (e : Entry) (a : Word) : (s.trap e a).mem = s.mem := rfl
@[simp] theorem State.trap_pins (e : Entry) (a : Word) : (s.trap e a).pins = s.pins := rfl
@[simp] theorem State.trap_inputs (e : Entry) (a : Word) : (s.trap e a).inputs = s.inputs := rfl
@[simp] theorem State.trap_answers (e : Entry) (a : Word) : (s.trap e a).answers = s.answers := rfl
@[simp] theorem State.trap_busOut (e : Entry) (a : Word) : (s.trap e a).busOut = s.busOut := rfl
@[simp] theorem State.trap_freeCount (e : Entry) (a : Word) : (s.trap e a).freeCount = s.freeCount := rfl
@[simp] theorem State.trap_tally (e : Entry) (a : Word) : (s.trap e a).tally = s.tally := rfl

/-! ### precise -/

@[simp] theorem State.precise_ints (e : Entry) : (s.precise e).ints = s.ints := rfl
@[simp] theorem State.precise_shadow (e : Entry) : (s.precise e).shadow = s.shadow := rfl
@[simp] theorem State.precise_fregs (e : Entry) : (s.precise e).fregs = s.fregs := rfl
@[simp] theorem State.precise_palTemps (e : Entry) : (s.precise e).palTemps = s.palTemps := rfl
@[simp] theorem State.precise_fpcr (e : Entry) : (s.precise e).fpcr = s.fpcr := rfl
@[simp] theorem State.precise_lockFlag (e : Entry) : (s.precise e).lockFlag = s.lockFlag := rfl
@[simp] theorem State.precise_lockAddr (e : Entry) : (s.precise e).lockAddr = s.lockAddr := rfl
@[simp] theorem State.precise_mbox (e : Entry) : (s.precise e).mbox = s.mbox := rfl
@[simp] theorem State.precise_cbox (e : Entry) : (s.precise e).cbox = s.cbox := rfl
@[simp] theorem State.precise_itb (e : Entry) : (s.precise e).itb = s.itb := rfl
@[simp] theorem State.precise_dtb (e : Entry) : (s.precise e).dtb = s.dtb := rfl
@[simp] theorem State.precise_icache (e : Entry) : (s.precise e).icache = s.icache := rfl
@[simp] theorem State.precise_dcache (e : Entry) : (s.precise e).dcache = s.dcache := rfl
@[simp] theorem State.precise_wb (e : Entry) : (s.precise e).wb = s.wb := rfl
@[simp] theorem State.precise_wbFence (e : Entry) : (s.precise e).wbFence = s.wbFence := rfl
@[simp] theorem State.precise_maf (e : Entry) : (s.precise e).maf = s.maf := rfl
@[simp] theorem State.precise_imaf (e : Entry) : (s.precise e).imaf = s.imaf := rfl
@[simp] theorem State.precise_mbWaits (e : Entry) : (s.precise e).mbWaits = s.mbWaits := rfl
@[simp] theorem State.precise_scache (e : Entry) : (s.precise e).scache = s.scache := rfl
@[simp] theorem State.precise_victims (e : Entry) : (s.precise e).victims = s.victims := rfl
@[simp] theorem State.precise_bcTags (e : Entry) : (s.precise e).bcTags = s.bcTags := rfl
@[simp] theorem State.precise_bcDatas (e : Entry) : (s.precise e).bcDatas = s.bcDatas := rfl
@[simp] theorem State.precise_miss0 (e : Entry) : (s.precise e).miss0 = s.miss0 := rfl
@[simp] theorem State.precise_miss1 (e : Entry) : (s.precise e).miss1 = s.miss1 := rfl
@[simp] theorem State.precise_cmds (e : Entry) : (s.precise e).cmds = s.cmds := rfl
@[simp] theorem State.precise_nopParity (e : Entry) : (s.precise e).nopParity = s.nopParity := rfl
@[simp] theorem State.precise_mchkPending (e : Entry) : (s.precise e).mchkPending = s.mchkPending := rfl
@[simp] theorem State.precise_afterMb (e : Entry) : (s.precise e).afterMb = s.afterMb := rfl
@[simp] theorem State.precise_owed (e : Entry) : (s.precise e).owed = s.owed := rfl
@[simp] theorem State.precise_itbPending (e : Entry) : (s.precise e).itbPending = s.itbPending := rfl
@[simp] theorem State.precise_istreamLost (e : Entry) : (s.precise e).istreamLost = s.istreamLost := rfl
@[simp] theorem State.precise_stalled (e : Entry) : (s.precise e).stalled = s.stalled := rfl
@[simp] theorem State.precise_pulse (e : Entry) : (s.precise e).pulse = s.pulse := rfl
@[simp] theorem State.precise_mem (e : Entry) : (s.precise e).mem = s.mem := rfl
@[simp] theorem State.precise_pins (e : Entry) : (s.precise e).pins = s.pins := rfl
@[simp] theorem State.precise_inputs (e : Entry) : (s.precise e).inputs = s.inputs := rfl
@[simp] theorem State.precise_answers (e : Entry) : (s.precise e).answers = s.answers := rfl
@[simp] theorem State.precise_busOut (e : Entry) : (s.precise e).busOut = s.busOut := rfl
@[simp] theorem State.precise_freeCount (e : Entry) : (s.precise e).freeCount = s.freeCount := rfl
@[simp] theorem State.precise_tally (e : Entry) : (s.precise e).tally = s.tally := rfl

/-! ### arith -/

@[simp] theorem State.arith_ints : (s.arith).ints = s.ints := rfl
@[simp] theorem State.arith_shadow : (s.arith).shadow = s.shadow := rfl
@[simp] theorem State.arith_fregs : (s.arith).fregs = s.fregs := rfl
@[simp] theorem State.arith_palTemps : (s.arith).palTemps = s.palTemps := rfl
@[simp] theorem State.arith_fpcr : (s.arith).fpcr = s.fpcr := rfl
@[simp] theorem State.arith_lockFlag : (s.arith).lockFlag = s.lockFlag := rfl
@[simp] theorem State.arith_lockAddr : (s.arith).lockAddr = s.lockAddr := rfl
@[simp] theorem State.arith_mbox : (s.arith).mbox = s.mbox := rfl
@[simp] theorem State.arith_cbox : (s.arith).cbox = s.cbox := rfl
@[simp] theorem State.arith_itb : (s.arith).itb = s.itb := rfl
@[simp] theorem State.arith_dtb : (s.arith).dtb = s.dtb := rfl
@[simp] theorem State.arith_icache : (s.arith).icache = s.icache := rfl
@[simp] theorem State.arith_dcache : (s.arith).dcache = s.dcache := rfl
@[simp] theorem State.arith_wb : (s.arith).wb = s.wb := rfl
@[simp] theorem State.arith_wbFence : (s.arith).wbFence = s.wbFence := rfl
@[simp] theorem State.arith_maf : (s.arith).maf = s.maf := rfl
@[simp] theorem State.arith_imaf : (s.arith).imaf = s.imaf := rfl
@[simp] theorem State.arith_mbWaits : (s.arith).mbWaits = s.mbWaits := rfl
@[simp] theorem State.arith_scache : (s.arith).scache = s.scache := rfl
@[simp] theorem State.arith_victims : (s.arith).victims = s.victims := rfl
@[simp] theorem State.arith_bcTags : (s.arith).bcTags = s.bcTags := rfl
@[simp] theorem State.arith_bcDatas : (s.arith).bcDatas = s.bcDatas := rfl
@[simp] theorem State.arith_miss0 : (s.arith).miss0 = s.miss0 := rfl
@[simp] theorem State.arith_miss1 : (s.arith).miss1 = s.miss1 := rfl
@[simp] theorem State.arith_cmds : (s.arith).cmds = s.cmds := rfl
@[simp] theorem State.arith_nopParity : (s.arith).nopParity = s.nopParity := rfl
@[simp] theorem State.arith_mchkPending : (s.arith).mchkPending = s.mchkPending := rfl
@[simp] theorem State.arith_afterMb : (s.arith).afterMb = s.afterMb := rfl
@[simp] theorem State.arith_owed : (s.arith).owed = s.owed := rfl
@[simp] theorem State.arith_itbPending : (s.arith).itbPending = s.itbPending := rfl
@[simp] theorem State.arith_istreamLost : (s.arith).istreamLost = s.istreamLost := rfl
@[simp] theorem State.arith_stalled : (s.arith).stalled = s.stalled := rfl
@[simp] theorem State.arith_pulse : (s.arith).pulse = s.pulse := rfl
@[simp] theorem State.arith_mem : (s.arith).mem = s.mem := rfl
@[simp] theorem State.arith_pins : (s.arith).pins = s.pins := rfl
@[simp] theorem State.arith_inputs : (s.arith).inputs = s.inputs := rfl
@[simp] theorem State.arith_answers : (s.arith).answers = s.answers := rfl
@[simp] theorem State.arith_busOut : (s.arith).busOut = s.busOut := rfl
@[simp] theorem State.arith_freeCount : (s.arith).freeCount = s.freeCount := rfl
@[simp] theorem State.arith_tally : (s.arith).tally = s.tally := rfl

/-! ### returnFromPal -/

@[simp] theorem State.returnFromPal_ints : (s.returnFromPal).ints = s.ints := rfl
@[simp] theorem State.returnFromPal_shadow : (s.returnFromPal).shadow = s.shadow := rfl
@[simp] theorem State.returnFromPal_fregs : (s.returnFromPal).fregs = s.fregs := rfl
@[simp] theorem State.returnFromPal_palTemps : (s.returnFromPal).palTemps = s.palTemps := rfl
@[simp] theorem State.returnFromPal_fpcr : (s.returnFromPal).fpcr = s.fpcr := rfl
@[simp] theorem State.returnFromPal_lockFlag : (s.returnFromPal).lockFlag = s.lockFlag := rfl
@[simp] theorem State.returnFromPal_lockAddr : (s.returnFromPal).lockAddr = s.lockAddr := rfl
@[simp] theorem State.returnFromPal_intrFlag : (s.returnFromPal).intrFlag = s.intrFlag := rfl
@[simp] theorem State.returnFromPal_ibox : (s.returnFromPal).ibox = s.ibox := rfl
@[simp] theorem State.returnFromPal_mbox : (s.returnFromPal).mbox = s.mbox := rfl
@[simp] theorem State.returnFromPal_cbox : (s.returnFromPal).cbox = s.cbox := rfl
@[simp] theorem State.returnFromPal_itb : (s.returnFromPal).itb = s.itb := rfl
@[simp] theorem State.returnFromPal_dtb : (s.returnFromPal).dtb = s.dtb := rfl
@[simp] theorem State.returnFromPal_icache : (s.returnFromPal).icache = s.icache := rfl
@[simp] theorem State.returnFromPal_dcache : (s.returnFromPal).dcache = s.dcache := rfl
@[simp] theorem State.returnFromPal_wb : (s.returnFromPal).wb = s.wb := rfl
@[simp] theorem State.returnFromPal_wbFence : (s.returnFromPal).wbFence = s.wbFence := rfl
@[simp] theorem State.returnFromPal_maf : (s.returnFromPal).maf = s.maf := rfl
@[simp] theorem State.returnFromPal_imaf : (s.returnFromPal).imaf = s.imaf := rfl
@[simp] theorem State.returnFromPal_mbWaits : (s.returnFromPal).mbWaits = s.mbWaits := rfl
@[simp] theorem State.returnFromPal_scache : (s.returnFromPal).scache = s.scache := rfl
@[simp] theorem State.returnFromPal_victims : (s.returnFromPal).victims = s.victims := rfl
@[simp] theorem State.returnFromPal_bcTags : (s.returnFromPal).bcTags = s.bcTags := rfl
@[simp] theorem State.returnFromPal_bcDatas : (s.returnFromPal).bcDatas = s.bcDatas := rfl
@[simp] theorem State.returnFromPal_miss0 : (s.returnFromPal).miss0 = s.miss0 := rfl
@[simp] theorem State.returnFromPal_miss1 : (s.returnFromPal).miss1 = s.miss1 := rfl
@[simp] theorem State.returnFromPal_cmds : (s.returnFromPal).cmds = s.cmds := rfl
@[simp] theorem State.returnFromPal_nopParity : (s.returnFromPal).nopParity = s.nopParity := rfl
@[simp] theorem State.returnFromPal_mchkPending : (s.returnFromPal).mchkPending = s.mchkPending := rfl
@[simp] theorem State.returnFromPal_afterMb : (s.returnFromPal).afterMb = s.afterMb := rfl
@[simp] theorem State.returnFromPal_owed : (s.returnFromPal).owed = s.owed := rfl
@[simp] theorem State.returnFromPal_itbPending : (s.returnFromPal).itbPending = s.itbPending := rfl
@[simp] theorem State.returnFromPal_istreamLost : (s.returnFromPal).istreamLost = s.istreamLost := rfl
@[simp] theorem State.returnFromPal_stalled : (s.returnFromPal).stalled = s.stalled := rfl
@[simp] theorem State.returnFromPal_pulse : (s.returnFromPal).pulse = s.pulse := rfl
@[simp] theorem State.returnFromPal_mem : (s.returnFromPal).mem = s.mem := rfl
@[simp] theorem State.returnFromPal_pins : (s.returnFromPal).pins = s.pins := rfl
@[simp] theorem State.returnFromPal_inputs : (s.returnFromPal).inputs = s.inputs := rfl
@[simp] theorem State.returnFromPal_answers : (s.returnFromPal).answers = s.answers := rfl
@[simp] theorem State.returnFromPal_busOut : (s.returnFromPal).busOut = s.busOut := rfl
@[simp] theorem State.returnFromPal_freeCount : (s.returnFromPal).freeCount = s.freeCount := rfl
@[simp] theorem State.returnFromPal_tally : (s.returnFromPal).tally = s.tally := rfl
@[simp] theorem State.returnFromPal_ended : (s.returnFromPal).ended = s.ended := rfl

/-! ### writeSlot -/

@[simp] theorem State.writeSlot_fregs (n : IntSlot) (v : Word) : (s.writeSlot n v).fregs = s.fregs := by
  unfold State.writeSlot; split <;> rfl
@[simp] theorem State.writeSlot_palTemps (n : IntSlot) (v : Word) : (s.writeSlot n v).palTemps = s.palTemps := by
  unfold State.writeSlot; split <;> rfl
@[simp] theorem State.writeSlot_pc (n : IntSlot) (v : Word) : (s.writeSlot n v).pc = s.pc := by
  unfold State.writeSlot; split <;> rfl
@[simp] theorem State.writeSlot_palmode (n : IntSlot) (v : Word) : (s.writeSlot n v).palmode = s.palmode := by
  unfold State.writeSlot; split <;> rfl
@[simp] theorem State.writeSlot_fpcr (n : IntSlot) (v : Word) : (s.writeSlot n v).fpcr = s.fpcr := by
  unfold State.writeSlot; split <;> rfl
@[simp] theorem State.writeSlot_lockFlag (n : IntSlot) (v : Word) : (s.writeSlot n v).lockFlag = s.lockFlag := by
  unfold State.writeSlot; split <;> rfl
@[simp] theorem State.writeSlot_lockAddr (n : IntSlot) (v : Word) : (s.writeSlot n v).lockAddr = s.lockAddr := by
  unfold State.writeSlot; split <;> rfl
@[simp] theorem State.writeSlot_intrFlag (n : IntSlot) (v : Word) : (s.writeSlot n v).intrFlag = s.intrFlag := by
  unfold State.writeSlot; split <;> rfl
@[simp] theorem State.writeSlot_ibox (n : IntSlot) (v : Word) : (s.writeSlot n v).ibox = s.ibox := by
  unfold State.writeSlot; split <;> rfl
@[simp] theorem State.writeSlot_mbox (n : IntSlot) (v : Word) : (s.writeSlot n v).mbox = s.mbox := by
  unfold State.writeSlot; split <;> rfl
@[simp] theorem State.writeSlot_cbox (n : IntSlot) (v : Word) : (s.writeSlot n v).cbox = s.cbox := by
  unfold State.writeSlot; split <;> rfl
@[simp] theorem State.writeSlot_itb (n : IntSlot) (v : Word) : (s.writeSlot n v).itb = s.itb := by
  unfold State.writeSlot; split <;> rfl
@[simp] theorem State.writeSlot_dtb (n : IntSlot) (v : Word) : (s.writeSlot n v).dtb = s.dtb := by
  unfold State.writeSlot; split <;> rfl
@[simp] theorem State.writeSlot_icache (n : IntSlot) (v : Word) : (s.writeSlot n v).icache = s.icache := by
  unfold State.writeSlot; split <;> rfl
@[simp] theorem State.writeSlot_dcache (n : IntSlot) (v : Word) : (s.writeSlot n v).dcache = s.dcache := by
  unfold State.writeSlot; split <;> rfl
@[simp] theorem State.writeSlot_wb (n : IntSlot) (v : Word) : (s.writeSlot n v).wb = s.wb := by
  unfold State.writeSlot; split <;> rfl
@[simp] theorem State.writeSlot_wbFence (n : IntSlot) (v : Word) : (s.writeSlot n v).wbFence = s.wbFence := by
  unfold State.writeSlot; split <;> rfl
@[simp] theorem State.writeSlot_maf (n : IntSlot) (v : Word) : (s.writeSlot n v).maf = s.maf := by
  unfold State.writeSlot; split <;> rfl
@[simp] theorem State.writeSlot_imaf (n : IntSlot) (v : Word) : (s.writeSlot n v).imaf = s.imaf := by
  unfold State.writeSlot; split <;> rfl
@[simp] theorem State.writeSlot_mbWaits (n : IntSlot) (v : Word) : (s.writeSlot n v).mbWaits = s.mbWaits := by
  unfold State.writeSlot; split <;> rfl
@[simp] theorem State.writeSlot_scache (n : IntSlot) (v : Word) : (s.writeSlot n v).scache = s.scache := by
  unfold State.writeSlot; split <;> rfl
@[simp] theorem State.writeSlot_victims (n : IntSlot) (v : Word) : (s.writeSlot n v).victims = s.victims := by
  unfold State.writeSlot; split <;> rfl
@[simp] theorem State.writeSlot_bcTags (n : IntSlot) (v : Word) : (s.writeSlot n v).bcTags = s.bcTags := by
  unfold State.writeSlot; split <;> rfl
@[simp] theorem State.writeSlot_bcDatas (n : IntSlot) (v : Word) : (s.writeSlot n v).bcDatas = s.bcDatas := by
  unfold State.writeSlot; split <;> rfl
@[simp] theorem State.writeSlot_miss0 (n : IntSlot) (v : Word) : (s.writeSlot n v).miss0 = s.miss0 := by
  unfold State.writeSlot; split <;> rfl
@[simp] theorem State.writeSlot_miss1 (n : IntSlot) (v : Word) : (s.writeSlot n v).miss1 = s.miss1 := by
  unfold State.writeSlot; split <;> rfl
@[simp] theorem State.writeSlot_cmds (n : IntSlot) (v : Word) : (s.writeSlot n v).cmds = s.cmds := by
  unfold State.writeSlot; split <;> rfl
@[simp] theorem State.writeSlot_nopParity (n : IntSlot) (v : Word) : (s.writeSlot n v).nopParity = s.nopParity := by
  unfold State.writeSlot; split <;> rfl
@[simp] theorem State.writeSlot_mchkPending (n : IntSlot) (v : Word) : (s.writeSlot n v).mchkPending = s.mchkPending := by
  unfold State.writeSlot; split <;> rfl
@[simp] theorem State.writeSlot_afterMb (n : IntSlot) (v : Word) : (s.writeSlot n v).afterMb = s.afterMb := by
  unfold State.writeSlot; split <;> rfl
@[simp] theorem State.writeSlot_owed (n : IntSlot) (v : Word) : (s.writeSlot n v).owed = s.owed := by
  unfold State.writeSlot; split <;> rfl
@[simp] theorem State.writeSlot_itbPending (n : IntSlot) (v : Word) : (s.writeSlot n v).itbPending = s.itbPending := by
  unfold State.writeSlot; split <;> rfl
@[simp] theorem State.writeSlot_istreamLost (n : IntSlot) (v : Word) : (s.writeSlot n v).istreamLost = s.istreamLost := by
  unfold State.writeSlot; split <;> rfl
@[simp] theorem State.writeSlot_stalled (n : IntSlot) (v : Word) : (s.writeSlot n v).stalled = s.stalled := by
  unfold State.writeSlot; split <;> rfl
@[simp] theorem State.writeSlot_pulse (n : IntSlot) (v : Word) : (s.writeSlot n v).pulse = s.pulse := by
  unfold State.writeSlot; split <;> rfl
@[simp] theorem State.writeSlot_mem (n : IntSlot) (v : Word) : (s.writeSlot n v).mem = s.mem := by
  unfold State.writeSlot; split <;> rfl
@[simp] theorem State.writeSlot_pins (n : IntSlot) (v : Word) : (s.writeSlot n v).pins = s.pins := by
  unfold State.writeSlot; split <;> rfl
@[simp] theorem State.writeSlot_inputs (n : IntSlot) (v : Word) : (s.writeSlot n v).inputs = s.inputs := by
  unfold State.writeSlot; split <;> rfl
@[simp] theorem State.writeSlot_answers (n : IntSlot) (v : Word) : (s.writeSlot n v).answers = s.answers := by
  unfold State.writeSlot; split <;> rfl
@[simp] theorem State.writeSlot_busOut (n : IntSlot) (v : Word) : (s.writeSlot n v).busOut = s.busOut := by
  unfold State.writeSlot; split <;> rfl
@[simp] theorem State.writeSlot_freeCount (n : IntSlot) (v : Word) : (s.writeSlot n v).freeCount = s.freeCount := by
  unfold State.writeSlot; split <;> rfl
@[simp] theorem State.writeSlot_tally (n : IntSlot) (v : Word) : (s.writeSlot n v).tally = s.tally := by
  unfold State.writeSlot; split <;> rfl
@[simp] theorem State.writeSlot_ended (n : IntSlot) (v : Word) : (s.writeSlot n v).ended = s.ended := by
  unfold State.writeSlot; split <;> rfl

/-! ### writeInt -/

@[simp] theorem State.writeInt_fregs (n : RegNum) (v : Word) : (s.writeInt n v).fregs = s.fregs := by
  simp [State.writeInt]
@[simp] theorem State.writeInt_palTemps (n : RegNum) (v : Word) : (s.writeInt n v).palTemps = s.palTemps := by
  simp [State.writeInt]
@[simp] theorem State.writeInt_pc (n : RegNum) (v : Word) : (s.writeInt n v).pc = s.pc := by
  simp [State.writeInt]
@[simp] theorem State.writeInt_palmode (n : RegNum) (v : Word) : (s.writeInt n v).palmode = s.palmode := by
  simp [State.writeInt]
@[simp] theorem State.writeInt_fpcr (n : RegNum) (v : Word) : (s.writeInt n v).fpcr = s.fpcr := by
  simp [State.writeInt]
@[simp] theorem State.writeInt_lockFlag (n : RegNum) (v : Word) : (s.writeInt n v).lockFlag = s.lockFlag := by
  simp [State.writeInt]
@[simp] theorem State.writeInt_lockAddr (n : RegNum) (v : Word) : (s.writeInt n v).lockAddr = s.lockAddr := by
  simp [State.writeInt]
@[simp] theorem State.writeInt_intrFlag (n : RegNum) (v : Word) : (s.writeInt n v).intrFlag = s.intrFlag := by
  simp [State.writeInt]
@[simp] theorem State.writeInt_ibox (n : RegNum) (v : Word) : (s.writeInt n v).ibox = s.ibox := by
  simp [State.writeInt]
@[simp] theorem State.writeInt_mbox (n : RegNum) (v : Word) : (s.writeInt n v).mbox = s.mbox := by
  simp [State.writeInt]
@[simp] theorem State.writeInt_cbox (n : RegNum) (v : Word) : (s.writeInt n v).cbox = s.cbox := by
  simp [State.writeInt]
@[simp] theorem State.writeInt_itb (n : RegNum) (v : Word) : (s.writeInt n v).itb = s.itb := by
  simp [State.writeInt]
@[simp] theorem State.writeInt_dtb (n : RegNum) (v : Word) : (s.writeInt n v).dtb = s.dtb := by
  simp [State.writeInt]
@[simp] theorem State.writeInt_icache (n : RegNum) (v : Word) : (s.writeInt n v).icache = s.icache := by
  simp [State.writeInt]
@[simp] theorem State.writeInt_dcache (n : RegNum) (v : Word) : (s.writeInt n v).dcache = s.dcache := by
  simp [State.writeInt]
@[simp] theorem State.writeInt_wb (n : RegNum) (v : Word) : (s.writeInt n v).wb = s.wb := by
  simp [State.writeInt]
@[simp] theorem State.writeInt_wbFence (n : RegNum) (v : Word) : (s.writeInt n v).wbFence = s.wbFence := by
  simp [State.writeInt]
@[simp] theorem State.writeInt_maf (n : RegNum) (v : Word) : (s.writeInt n v).maf = s.maf := by
  simp [State.writeInt]
@[simp] theorem State.writeInt_imaf (n : RegNum) (v : Word) : (s.writeInt n v).imaf = s.imaf := by
  simp [State.writeInt]
@[simp] theorem State.writeInt_mbWaits (n : RegNum) (v : Word) : (s.writeInt n v).mbWaits = s.mbWaits := by
  simp [State.writeInt]
@[simp] theorem State.writeInt_scache (n : RegNum) (v : Word) : (s.writeInt n v).scache = s.scache := by
  simp [State.writeInt]
@[simp] theorem State.writeInt_victims (n : RegNum) (v : Word) : (s.writeInt n v).victims = s.victims := by
  simp [State.writeInt]
@[simp] theorem State.writeInt_bcTags (n : RegNum) (v : Word) : (s.writeInt n v).bcTags = s.bcTags := by
  simp [State.writeInt]
@[simp] theorem State.writeInt_bcDatas (n : RegNum) (v : Word) : (s.writeInt n v).bcDatas = s.bcDatas := by
  simp [State.writeInt]
@[simp] theorem State.writeInt_miss0 (n : RegNum) (v : Word) : (s.writeInt n v).miss0 = s.miss0 := by
  simp [State.writeInt]
@[simp] theorem State.writeInt_miss1 (n : RegNum) (v : Word) : (s.writeInt n v).miss1 = s.miss1 := by
  simp [State.writeInt]
@[simp] theorem State.writeInt_cmds (n : RegNum) (v : Word) : (s.writeInt n v).cmds = s.cmds := by
  simp [State.writeInt]
@[simp] theorem State.writeInt_nopParity (n : RegNum) (v : Word) : (s.writeInt n v).nopParity = s.nopParity := by
  simp [State.writeInt]
@[simp] theorem State.writeInt_mchkPending (n : RegNum) (v : Word) : (s.writeInt n v).mchkPending = s.mchkPending := by
  simp [State.writeInt]
@[simp] theorem State.writeInt_afterMb (n : RegNum) (v : Word) : (s.writeInt n v).afterMb = s.afterMb := by
  simp [State.writeInt]
@[simp] theorem State.writeInt_owed (n : RegNum) (v : Word) : (s.writeInt n v).owed = s.owed := by
  simp [State.writeInt]
@[simp] theorem State.writeInt_itbPending (n : RegNum) (v : Word) : (s.writeInt n v).itbPending = s.itbPending := by
  simp [State.writeInt]
@[simp] theorem State.writeInt_istreamLost (n : RegNum) (v : Word) : (s.writeInt n v).istreamLost = s.istreamLost := by
  simp [State.writeInt]
@[simp] theorem State.writeInt_stalled (n : RegNum) (v : Word) : (s.writeInt n v).stalled = s.stalled := by
  simp [State.writeInt]
@[simp] theorem State.writeInt_pulse (n : RegNum) (v : Word) : (s.writeInt n v).pulse = s.pulse := by
  simp [State.writeInt]
@[simp] theorem State.writeInt_mem (n : RegNum) (v : Word) : (s.writeInt n v).mem = s.mem := by
  simp [State.writeInt]
@[simp] theorem State.writeInt_pins (n : RegNum) (v : Word) : (s.writeInt n v).pins = s.pins := by
  simp [State.writeInt]
@[simp] theorem State.writeInt_inputs (n : RegNum) (v : Word) : (s.writeInt n v).inputs = s.inputs := by
  simp [State.writeInt]
@[simp] theorem State.writeInt_answers (n : RegNum) (v : Word) : (s.writeInt n v).answers = s.answers := by
  simp [State.writeInt]
@[simp] theorem State.writeInt_busOut (n : RegNum) (v : Word) : (s.writeInt n v).busOut = s.busOut := by
  simp [State.writeInt]
@[simp] theorem State.writeInt_freeCount (n : RegNum) (v : Word) : (s.writeInt n v).freeCount = s.freeCount := by
  simp [State.writeInt]
@[simp] theorem State.writeInt_tally (n : RegNum) (v : Word) : (s.writeInt n v).tally = s.tally := by
  simp [State.writeInt]
@[simp] theorem State.writeInt_ended (n : RegNum) (v : Word) : (s.writeInt n v).ended = s.ended := by
  simp [State.writeInt]

/-! ### writeFp -/

@[simp] theorem State.writeFp_ints (n : RegNum) (v : Word) : (s.writeFp n v).ints = s.ints := by
  unfold State.writeFp; split <;> rfl
@[simp] theorem State.writeFp_shadow (n : RegNum) (v : Word) : (s.writeFp n v).shadow = s.shadow := by
  unfold State.writeFp; split <;> rfl
@[simp] theorem State.writeFp_palTemps (n : RegNum) (v : Word) : (s.writeFp n v).palTemps = s.palTemps := by
  unfold State.writeFp; split <;> rfl
@[simp] theorem State.writeFp_pc (n : RegNum) (v : Word) : (s.writeFp n v).pc = s.pc := by
  unfold State.writeFp; split <;> rfl
@[simp] theorem State.writeFp_palmode (n : RegNum) (v : Word) : (s.writeFp n v).palmode = s.palmode := by
  unfold State.writeFp; split <;> rfl
@[simp] theorem State.writeFp_fpcr (n : RegNum) (v : Word) : (s.writeFp n v).fpcr = s.fpcr := by
  unfold State.writeFp; split <;> rfl
@[simp] theorem State.writeFp_lockFlag (n : RegNum) (v : Word) : (s.writeFp n v).lockFlag = s.lockFlag := by
  unfold State.writeFp; split <;> rfl
@[simp] theorem State.writeFp_lockAddr (n : RegNum) (v : Word) : (s.writeFp n v).lockAddr = s.lockAddr := by
  unfold State.writeFp; split <;> rfl
@[simp] theorem State.writeFp_intrFlag (n : RegNum) (v : Word) : (s.writeFp n v).intrFlag = s.intrFlag := by
  unfold State.writeFp; split <;> rfl
@[simp] theorem State.writeFp_ibox (n : RegNum) (v : Word) : (s.writeFp n v).ibox = s.ibox := by
  unfold State.writeFp; split <;> rfl
@[simp] theorem State.writeFp_mbox (n : RegNum) (v : Word) : (s.writeFp n v).mbox = s.mbox := by
  unfold State.writeFp; split <;> rfl
@[simp] theorem State.writeFp_cbox (n : RegNum) (v : Word) : (s.writeFp n v).cbox = s.cbox := by
  unfold State.writeFp; split <;> rfl
@[simp] theorem State.writeFp_itb (n : RegNum) (v : Word) : (s.writeFp n v).itb = s.itb := by
  unfold State.writeFp; split <;> rfl
@[simp] theorem State.writeFp_dtb (n : RegNum) (v : Word) : (s.writeFp n v).dtb = s.dtb := by
  unfold State.writeFp; split <;> rfl
@[simp] theorem State.writeFp_icache (n : RegNum) (v : Word) : (s.writeFp n v).icache = s.icache := by
  unfold State.writeFp; split <;> rfl
@[simp] theorem State.writeFp_dcache (n : RegNum) (v : Word) : (s.writeFp n v).dcache = s.dcache := by
  unfold State.writeFp; split <;> rfl
@[simp] theorem State.writeFp_wb (n : RegNum) (v : Word) : (s.writeFp n v).wb = s.wb := by
  unfold State.writeFp; split <;> rfl
@[simp] theorem State.writeFp_wbFence (n : RegNum) (v : Word) : (s.writeFp n v).wbFence = s.wbFence := by
  unfold State.writeFp; split <;> rfl
@[simp] theorem State.writeFp_maf (n : RegNum) (v : Word) : (s.writeFp n v).maf = s.maf := by
  unfold State.writeFp; split <;> rfl
@[simp] theorem State.writeFp_imaf (n : RegNum) (v : Word) : (s.writeFp n v).imaf = s.imaf := by
  unfold State.writeFp; split <;> rfl
@[simp] theorem State.writeFp_mbWaits (n : RegNum) (v : Word) : (s.writeFp n v).mbWaits = s.mbWaits := by
  unfold State.writeFp; split <;> rfl
@[simp] theorem State.writeFp_scache (n : RegNum) (v : Word) : (s.writeFp n v).scache = s.scache := by
  unfold State.writeFp; split <;> rfl
@[simp] theorem State.writeFp_victims (n : RegNum) (v : Word) : (s.writeFp n v).victims = s.victims := by
  unfold State.writeFp; split <;> rfl
@[simp] theorem State.writeFp_bcTags (n : RegNum) (v : Word) : (s.writeFp n v).bcTags = s.bcTags := by
  unfold State.writeFp; split <;> rfl
@[simp] theorem State.writeFp_bcDatas (n : RegNum) (v : Word) : (s.writeFp n v).bcDatas = s.bcDatas := by
  unfold State.writeFp; split <;> rfl
@[simp] theorem State.writeFp_miss0 (n : RegNum) (v : Word) : (s.writeFp n v).miss0 = s.miss0 := by
  unfold State.writeFp; split <;> rfl
@[simp] theorem State.writeFp_miss1 (n : RegNum) (v : Word) : (s.writeFp n v).miss1 = s.miss1 := by
  unfold State.writeFp; split <;> rfl
@[simp] theorem State.writeFp_cmds (n : RegNum) (v : Word) : (s.writeFp n v).cmds = s.cmds := by
  unfold State.writeFp; split <;> rfl
@[simp] theorem State.writeFp_nopParity (n : RegNum) (v : Word) : (s.writeFp n v).nopParity = s.nopParity := by
  unfold State.writeFp; split <;> rfl
@[simp] theorem State.writeFp_mchkPending (n : RegNum) (v : Word) : (s.writeFp n v).mchkPending = s.mchkPending := by
  unfold State.writeFp; split <;> rfl
@[simp] theorem State.writeFp_afterMb (n : RegNum) (v : Word) : (s.writeFp n v).afterMb = s.afterMb := by
  unfold State.writeFp; split <;> rfl
@[simp] theorem State.writeFp_owed (n : RegNum) (v : Word) : (s.writeFp n v).owed = s.owed := by
  unfold State.writeFp; split <;> rfl
@[simp] theorem State.writeFp_itbPending (n : RegNum) (v : Word) : (s.writeFp n v).itbPending = s.itbPending := by
  unfold State.writeFp; split <;> rfl
@[simp] theorem State.writeFp_istreamLost (n : RegNum) (v : Word) : (s.writeFp n v).istreamLost = s.istreamLost := by
  unfold State.writeFp; split <;> rfl
@[simp] theorem State.writeFp_stalled (n : RegNum) (v : Word) : (s.writeFp n v).stalled = s.stalled := by
  unfold State.writeFp; split <;> rfl
@[simp] theorem State.writeFp_pulse (n : RegNum) (v : Word) : (s.writeFp n v).pulse = s.pulse := by
  unfold State.writeFp; split <;> rfl
@[simp] theorem State.writeFp_mem (n : RegNum) (v : Word) : (s.writeFp n v).mem = s.mem := by
  unfold State.writeFp; split <;> rfl
@[simp] theorem State.writeFp_pins (n : RegNum) (v : Word) : (s.writeFp n v).pins = s.pins := by
  unfold State.writeFp; split <;> rfl
@[simp] theorem State.writeFp_inputs (n : RegNum) (v : Word) : (s.writeFp n v).inputs = s.inputs := by
  unfold State.writeFp; split <;> rfl
@[simp] theorem State.writeFp_answers (n : RegNum) (v : Word) : (s.writeFp n v).answers = s.answers := by
  unfold State.writeFp; split <;> rfl
@[simp] theorem State.writeFp_busOut (n : RegNum) (v : Word) : (s.writeFp n v).busOut = s.busOut := by
  unfold State.writeFp; split <;> rfl
@[simp] theorem State.writeFp_freeCount (n : RegNum) (v : Word) : (s.writeFp n v).freeCount = s.freeCount := by
  unfold State.writeFp; split <;> rfl
@[simp] theorem State.writeFp_tally (n : RegNum) (v : Word) : (s.writeFp n v).tally = s.tally := by
  unfold State.writeFp; split <;> rfl
@[simp] theorem State.writeFp_ended (n : RegNum) (v : Word) : (s.writeFp n v).ended = s.ended := by
  unfold State.writeFp; split <;> rfl

/-! ### writeFpResult -/

@[simp] theorem State.writeFpResult_ints (n : RegNum) (v : Option Word) : (s.writeFpResult n v).ints = s.ints := by
  cases v <;> simp [State.writeFpResult]
@[simp] theorem State.writeFpResult_shadow (n : RegNum) (v : Option Word) : (s.writeFpResult n v).shadow = s.shadow := by
  cases v <;> simp [State.writeFpResult]
@[simp] theorem State.writeFpResult_palTemps (n : RegNum) (v : Option Word) : (s.writeFpResult n v).palTemps = s.palTemps := by
  cases v <;> simp [State.writeFpResult]
@[simp] theorem State.writeFpResult_pc (n : RegNum) (v : Option Word) : (s.writeFpResult n v).pc = s.pc := by
  cases v <;> simp [State.writeFpResult]
@[simp] theorem State.writeFpResult_palmode (n : RegNum) (v : Option Word) : (s.writeFpResult n v).palmode = s.palmode := by
  cases v <;> simp [State.writeFpResult]
@[simp] theorem State.writeFpResult_fpcr (n : RegNum) (v : Option Word) : (s.writeFpResult n v).fpcr = s.fpcr := by
  cases v <;> simp [State.writeFpResult]
@[simp] theorem State.writeFpResult_lockFlag (n : RegNum) (v : Option Word) : (s.writeFpResult n v).lockFlag = s.lockFlag := by
  cases v <;> simp [State.writeFpResult]
@[simp] theorem State.writeFpResult_lockAddr (n : RegNum) (v : Option Word) : (s.writeFpResult n v).lockAddr = s.lockAddr := by
  cases v <;> simp [State.writeFpResult]
@[simp] theorem State.writeFpResult_intrFlag (n : RegNum) (v : Option Word) : (s.writeFpResult n v).intrFlag = s.intrFlag := by
  cases v <;> simp [State.writeFpResult]
@[simp] theorem State.writeFpResult_ibox (n : RegNum) (v : Option Word) : (s.writeFpResult n v).ibox = s.ibox := by
  cases v <;> simp [State.writeFpResult]
@[simp] theorem State.writeFpResult_mbox (n : RegNum) (v : Option Word) : (s.writeFpResult n v).mbox = s.mbox := by
  cases v <;> simp [State.writeFpResult]
@[simp] theorem State.writeFpResult_cbox (n : RegNum) (v : Option Word) : (s.writeFpResult n v).cbox = s.cbox := by
  cases v <;> simp [State.writeFpResult]
@[simp] theorem State.writeFpResult_itb (n : RegNum) (v : Option Word) : (s.writeFpResult n v).itb = s.itb := by
  cases v <;> simp [State.writeFpResult]
@[simp] theorem State.writeFpResult_dtb (n : RegNum) (v : Option Word) : (s.writeFpResult n v).dtb = s.dtb := by
  cases v <;> simp [State.writeFpResult]
@[simp] theorem State.writeFpResult_icache (n : RegNum) (v : Option Word) : (s.writeFpResult n v).icache = s.icache := by
  cases v <;> simp [State.writeFpResult]
@[simp] theorem State.writeFpResult_dcache (n : RegNum) (v : Option Word) : (s.writeFpResult n v).dcache = s.dcache := by
  cases v <;> simp [State.writeFpResult]
@[simp] theorem State.writeFpResult_wb (n : RegNum) (v : Option Word) : (s.writeFpResult n v).wb = s.wb := by
  cases v <;> simp [State.writeFpResult]
@[simp] theorem State.writeFpResult_wbFence (n : RegNum) (v : Option Word) : (s.writeFpResult n v).wbFence = s.wbFence := by
  cases v <;> simp [State.writeFpResult]
@[simp] theorem State.writeFpResult_maf (n : RegNum) (v : Option Word) : (s.writeFpResult n v).maf = s.maf := by
  cases v <;> simp [State.writeFpResult]
@[simp] theorem State.writeFpResult_imaf (n : RegNum) (v : Option Word) : (s.writeFpResult n v).imaf = s.imaf := by
  cases v <;> simp [State.writeFpResult]
@[simp] theorem State.writeFpResult_mbWaits (n : RegNum) (v : Option Word) : (s.writeFpResult n v).mbWaits = s.mbWaits := by
  cases v <;> simp [State.writeFpResult]
@[simp] theorem State.writeFpResult_scache (n : RegNum) (v : Option Word) : (s.writeFpResult n v).scache = s.scache := by
  cases v <;> simp [State.writeFpResult]
@[simp] theorem State.writeFpResult_victims (n : RegNum) (v : Option Word) : (s.writeFpResult n v).victims = s.victims := by
  cases v <;> simp [State.writeFpResult]
@[simp] theorem State.writeFpResult_bcTags (n : RegNum) (v : Option Word) : (s.writeFpResult n v).bcTags = s.bcTags := by
  cases v <;> simp [State.writeFpResult]
@[simp] theorem State.writeFpResult_bcDatas (n : RegNum) (v : Option Word) : (s.writeFpResult n v).bcDatas = s.bcDatas := by
  cases v <;> simp [State.writeFpResult]
@[simp] theorem State.writeFpResult_miss0 (n : RegNum) (v : Option Word) : (s.writeFpResult n v).miss0 = s.miss0 := by
  cases v <;> simp [State.writeFpResult]
@[simp] theorem State.writeFpResult_miss1 (n : RegNum) (v : Option Word) : (s.writeFpResult n v).miss1 = s.miss1 := by
  cases v <;> simp [State.writeFpResult]
@[simp] theorem State.writeFpResult_cmds (n : RegNum) (v : Option Word) : (s.writeFpResult n v).cmds = s.cmds := by
  cases v <;> simp [State.writeFpResult]
@[simp] theorem State.writeFpResult_nopParity (n : RegNum) (v : Option Word) : (s.writeFpResult n v).nopParity = s.nopParity := by
  cases v <;> simp [State.writeFpResult]
@[simp] theorem State.writeFpResult_mchkPending (n : RegNum) (v : Option Word) : (s.writeFpResult n v).mchkPending = s.mchkPending := by
  cases v <;> simp [State.writeFpResult]
@[simp] theorem State.writeFpResult_afterMb (n : RegNum) (v : Option Word) : (s.writeFpResult n v).afterMb = s.afterMb := by
  cases v <;> simp [State.writeFpResult]
@[simp] theorem State.writeFpResult_owed (n : RegNum) (v : Option Word) : (s.writeFpResult n v).owed = s.owed := by
  cases v <;> simp [State.writeFpResult]
@[simp] theorem State.writeFpResult_itbPending (n : RegNum) (v : Option Word) : (s.writeFpResult n v).itbPending = s.itbPending := by
  cases v <;> simp [State.writeFpResult]
@[simp] theorem State.writeFpResult_istreamLost (n : RegNum) (v : Option Word) : (s.writeFpResult n v).istreamLost = s.istreamLost := by
  cases v <;> simp [State.writeFpResult]
@[simp] theorem State.writeFpResult_stalled (n : RegNum) (v : Option Word) : (s.writeFpResult n v).stalled = s.stalled := by
  cases v <;> simp [State.writeFpResult]
@[simp] theorem State.writeFpResult_pulse (n : RegNum) (v : Option Word) : (s.writeFpResult n v).pulse = s.pulse := by
  cases v <;> simp [State.writeFpResult]
@[simp] theorem State.writeFpResult_mem (n : RegNum) (v : Option Word) : (s.writeFpResult n v).mem = s.mem := by
  cases v <;> simp [State.writeFpResult]
@[simp] theorem State.writeFpResult_pins (n : RegNum) (v : Option Word) : (s.writeFpResult n v).pins = s.pins := by
  cases v <;> simp [State.writeFpResult]
@[simp] theorem State.writeFpResult_inputs (n : RegNum) (v : Option Word) : (s.writeFpResult n v).inputs = s.inputs := by
  cases v <;> simp [State.writeFpResult]
@[simp] theorem State.writeFpResult_answers (n : RegNum) (v : Option Word) : (s.writeFpResult n v).answers = s.answers := by
  cases v <;> simp [State.writeFpResult]
@[simp] theorem State.writeFpResult_busOut (n : RegNum) (v : Option Word) : (s.writeFpResult n v).busOut = s.busOut := by
  cases v <;> simp [State.writeFpResult]
@[simp] theorem State.writeFpResult_tally (n : RegNum) (v : Option Word) : (s.writeFpResult n v).tally = s.tally := by
  cases v <;> simp [State.writeFpResult]
@[simp] theorem State.writeFpResult_ended (n : RegNum) (v : Option Word) : (s.writeFpResult n v).ended = s.ended := by
  cases v <;> simp [State.writeFpResult]

/-! ### recordFpcr -/

@[simp] theorem State.recordFpcr_ints (c : Conds) : (s.recordFpcr c).ints = s.ints := rfl
@[simp] theorem State.recordFpcr_shadow (c : Conds) : (s.recordFpcr c).shadow = s.shadow := rfl
@[simp] theorem State.recordFpcr_fregs (c : Conds) : (s.recordFpcr c).fregs = s.fregs := rfl
@[simp] theorem State.recordFpcr_palTemps (c : Conds) : (s.recordFpcr c).palTemps = s.palTemps := rfl
@[simp] theorem State.recordFpcr_pc (c : Conds) : (s.recordFpcr c).pc = s.pc := rfl
@[simp] theorem State.recordFpcr_palmode (c : Conds) : (s.recordFpcr c).palmode = s.palmode := rfl
@[simp] theorem State.recordFpcr_lockFlag (c : Conds) : (s.recordFpcr c).lockFlag = s.lockFlag := rfl
@[simp] theorem State.recordFpcr_lockAddr (c : Conds) : (s.recordFpcr c).lockAddr = s.lockAddr := rfl
@[simp] theorem State.recordFpcr_intrFlag (c : Conds) : (s.recordFpcr c).intrFlag = s.intrFlag := rfl
@[simp] theorem State.recordFpcr_ibox (c : Conds) : (s.recordFpcr c).ibox = s.ibox := rfl
@[simp] theorem State.recordFpcr_mbox (c : Conds) : (s.recordFpcr c).mbox = s.mbox := rfl
@[simp] theorem State.recordFpcr_cbox (c : Conds) : (s.recordFpcr c).cbox = s.cbox := rfl
@[simp] theorem State.recordFpcr_itb (c : Conds) : (s.recordFpcr c).itb = s.itb := rfl
@[simp] theorem State.recordFpcr_dtb (c : Conds) : (s.recordFpcr c).dtb = s.dtb := rfl
@[simp] theorem State.recordFpcr_icache (c : Conds) : (s.recordFpcr c).icache = s.icache := rfl
@[simp] theorem State.recordFpcr_dcache (c : Conds) : (s.recordFpcr c).dcache = s.dcache := rfl
@[simp] theorem State.recordFpcr_wb (c : Conds) : (s.recordFpcr c).wb = s.wb := rfl
@[simp] theorem State.recordFpcr_wbFence (c : Conds) : (s.recordFpcr c).wbFence = s.wbFence := rfl
@[simp] theorem State.recordFpcr_maf (c : Conds) : (s.recordFpcr c).maf = s.maf := rfl
@[simp] theorem State.recordFpcr_imaf (c : Conds) : (s.recordFpcr c).imaf = s.imaf := rfl
@[simp] theorem State.recordFpcr_mbWaits (c : Conds) : (s.recordFpcr c).mbWaits = s.mbWaits := rfl
@[simp] theorem State.recordFpcr_scache (c : Conds) : (s.recordFpcr c).scache = s.scache := rfl
@[simp] theorem State.recordFpcr_victims (c : Conds) : (s.recordFpcr c).victims = s.victims := rfl
@[simp] theorem State.recordFpcr_bcTags (c : Conds) : (s.recordFpcr c).bcTags = s.bcTags := rfl
@[simp] theorem State.recordFpcr_bcDatas (c : Conds) : (s.recordFpcr c).bcDatas = s.bcDatas := rfl
@[simp] theorem State.recordFpcr_miss0 (c : Conds) : (s.recordFpcr c).miss0 = s.miss0 := rfl
@[simp] theorem State.recordFpcr_miss1 (c : Conds) : (s.recordFpcr c).miss1 = s.miss1 := rfl
@[simp] theorem State.recordFpcr_cmds (c : Conds) : (s.recordFpcr c).cmds = s.cmds := rfl
@[simp] theorem State.recordFpcr_nopParity (c : Conds) : (s.recordFpcr c).nopParity = s.nopParity := rfl
@[simp] theorem State.recordFpcr_mchkPending (c : Conds) : (s.recordFpcr c).mchkPending = s.mchkPending := rfl
@[simp] theorem State.recordFpcr_afterMb (c : Conds) : (s.recordFpcr c).afterMb = s.afterMb := rfl
@[simp] theorem State.recordFpcr_owed (c : Conds) : (s.recordFpcr c).owed = s.owed := rfl
@[simp] theorem State.recordFpcr_itbPending (c : Conds) : (s.recordFpcr c).itbPending = s.itbPending := rfl
@[simp] theorem State.recordFpcr_istreamLost (c : Conds) : (s.recordFpcr c).istreamLost = s.istreamLost := rfl
@[simp] theorem State.recordFpcr_stalled (c : Conds) : (s.recordFpcr c).stalled = s.stalled := rfl
@[simp] theorem State.recordFpcr_pulse (c : Conds) : (s.recordFpcr c).pulse = s.pulse := rfl
@[simp] theorem State.recordFpcr_mem (c : Conds) : (s.recordFpcr c).mem = s.mem := rfl
@[simp] theorem State.recordFpcr_pins (c : Conds) : (s.recordFpcr c).pins = s.pins := rfl
@[simp] theorem State.recordFpcr_inputs (c : Conds) : (s.recordFpcr c).inputs = s.inputs := rfl
@[simp] theorem State.recordFpcr_answers (c : Conds) : (s.recordFpcr c).answers = s.answers := rfl
@[simp] theorem State.recordFpcr_busOut (c : Conds) : (s.recordFpcr c).busOut = s.busOut := rfl
@[simp] theorem State.recordFpcr_freeCount (c : Conds) : (s.recordFpcr c).freeCount = s.freeCount := rfl
@[simp] theorem State.recordFpcr_tally (c : Conds) : (s.recordFpcr c).tally = s.tally := rfl
@[simp] theorem State.recordFpcr_ended (c : Conds) : (s.recordFpcr c).ended = s.ended := rfl

/-! ### recordSum -/

@[simp] theorem State.recordSum_ints (c : Conds) (d : Nat) : (s.recordSum c d).ints = s.ints := rfl
@[simp] theorem State.recordSum_shadow (c : Conds) (d : Nat) : (s.recordSum c d).shadow = s.shadow := rfl
@[simp] theorem State.recordSum_fregs (c : Conds) (d : Nat) : (s.recordSum c d).fregs = s.fregs := rfl
@[simp] theorem State.recordSum_palTemps (c : Conds) (d : Nat) : (s.recordSum c d).palTemps = s.palTemps := rfl
@[simp] theorem State.recordSum_pc (c : Conds) (d : Nat) : (s.recordSum c d).pc = s.pc := rfl
@[simp] theorem State.recordSum_palmode (c : Conds) (d : Nat) : (s.recordSum c d).palmode = s.palmode := rfl
@[simp] theorem State.recordSum_fpcr (c : Conds) (d : Nat) : (s.recordSum c d).fpcr = s.fpcr := rfl
@[simp] theorem State.recordSum_lockFlag (c : Conds) (d : Nat) : (s.recordSum c d).lockFlag = s.lockFlag := rfl
@[simp] theorem State.recordSum_lockAddr (c : Conds) (d : Nat) : (s.recordSum c d).lockAddr = s.lockAddr := rfl
@[simp] theorem State.recordSum_intrFlag (c : Conds) (d : Nat) : (s.recordSum c d).intrFlag = s.intrFlag := rfl
@[simp] theorem State.recordSum_mbox (c : Conds) (d : Nat) : (s.recordSum c d).mbox = s.mbox := rfl
@[simp] theorem State.recordSum_cbox (c : Conds) (d : Nat) : (s.recordSum c d).cbox = s.cbox := rfl
@[simp] theorem State.recordSum_itb (c : Conds) (d : Nat) : (s.recordSum c d).itb = s.itb := rfl
@[simp] theorem State.recordSum_dtb (c : Conds) (d : Nat) : (s.recordSum c d).dtb = s.dtb := rfl
@[simp] theorem State.recordSum_icache (c : Conds) (d : Nat) : (s.recordSum c d).icache = s.icache := rfl
@[simp] theorem State.recordSum_dcache (c : Conds) (d : Nat) : (s.recordSum c d).dcache = s.dcache := rfl
@[simp] theorem State.recordSum_wb (c : Conds) (d : Nat) : (s.recordSum c d).wb = s.wb := rfl
@[simp] theorem State.recordSum_wbFence (c : Conds) (d : Nat) : (s.recordSum c d).wbFence = s.wbFence := rfl
@[simp] theorem State.recordSum_maf (c : Conds) (d : Nat) : (s.recordSum c d).maf = s.maf := rfl
@[simp] theorem State.recordSum_imaf (c : Conds) (d : Nat) : (s.recordSum c d).imaf = s.imaf := rfl
@[simp] theorem State.recordSum_mbWaits (c : Conds) (d : Nat) : (s.recordSum c d).mbWaits = s.mbWaits := rfl
@[simp] theorem State.recordSum_scache (c : Conds) (d : Nat) : (s.recordSum c d).scache = s.scache := rfl
@[simp] theorem State.recordSum_victims (c : Conds) (d : Nat) : (s.recordSum c d).victims = s.victims := rfl
@[simp] theorem State.recordSum_bcTags (c : Conds) (d : Nat) : (s.recordSum c d).bcTags = s.bcTags := rfl
@[simp] theorem State.recordSum_bcDatas (c : Conds) (d : Nat) : (s.recordSum c d).bcDatas = s.bcDatas := rfl
@[simp] theorem State.recordSum_miss0 (c : Conds) (d : Nat) : (s.recordSum c d).miss0 = s.miss0 := rfl
@[simp] theorem State.recordSum_miss1 (c : Conds) (d : Nat) : (s.recordSum c d).miss1 = s.miss1 := rfl
@[simp] theorem State.recordSum_cmds (c : Conds) (d : Nat) : (s.recordSum c d).cmds = s.cmds := rfl
@[simp] theorem State.recordSum_nopParity (c : Conds) (d : Nat) : (s.recordSum c d).nopParity = s.nopParity := rfl
@[simp] theorem State.recordSum_mchkPending (c : Conds) (d : Nat) : (s.recordSum c d).mchkPending = s.mchkPending := rfl
@[simp] theorem State.recordSum_afterMb (c : Conds) (d : Nat) : (s.recordSum c d).afterMb = s.afterMb := rfl
@[simp] theorem State.recordSum_owed (c : Conds) (d : Nat) : (s.recordSum c d).owed = s.owed := rfl
@[simp] theorem State.recordSum_itbPending (c : Conds) (d : Nat) : (s.recordSum c d).itbPending = s.itbPending := rfl
@[simp] theorem State.recordSum_istreamLost (c : Conds) (d : Nat) : (s.recordSum c d).istreamLost = s.istreamLost := rfl
@[simp] theorem State.recordSum_stalled (c : Conds) (d : Nat) : (s.recordSum c d).stalled = s.stalled := rfl
@[simp] theorem State.recordSum_pulse (c : Conds) (d : Nat) : (s.recordSum c d).pulse = s.pulse := rfl
@[simp] theorem State.recordSum_mem (c : Conds) (d : Nat) : (s.recordSum c d).mem = s.mem := rfl
@[simp] theorem State.recordSum_pins (c : Conds) (d : Nat) : (s.recordSum c d).pins = s.pins := rfl
@[simp] theorem State.recordSum_inputs (c : Conds) (d : Nat) : (s.recordSum c d).inputs = s.inputs := rfl
@[simp] theorem State.recordSum_answers (c : Conds) (d : Nat) : (s.recordSum c d).answers = s.answers := rfl
@[simp] theorem State.recordSum_busOut (c : Conds) (d : Nat) : (s.recordSum c d).busOut = s.busOut := rfl
@[simp] theorem State.recordSum_freeCount (c : Conds) (d : Nat) : (s.recordSum c d).freeCount = s.freeCount := rfl
@[simp] theorem State.recordSum_tally (c : Conds) (d : Nat) : (s.recordSum c d).tally = s.tally := rfl
@[simp] theorem State.recordSum_ended (c : Conds) (d : Nat) : (s.recordSum c d).ended = s.ended := rfl

/-! ### recordSwc -/

@[simp] theorem State.recordSwc_ints (b : Bool) : (s.recordSwc b).ints = s.ints := by
  unfold State.recordSwc; split <;> (try split) <;> rfl
@[simp] theorem State.recordSwc_shadow (b : Bool) : (s.recordSwc b).shadow = s.shadow := by
  unfold State.recordSwc; split <;> (try split) <;> rfl
@[simp] theorem State.recordSwc_fregs (b : Bool) : (s.recordSwc b).fregs = s.fregs := by
  unfold State.recordSwc; split <;> (try split) <;> rfl
@[simp] theorem State.recordSwc_palTemps (b : Bool) : (s.recordSwc b).palTemps = s.palTemps := by
  unfold State.recordSwc; split <;> (try split) <;> rfl
@[simp] theorem State.recordSwc_pc (b : Bool) : (s.recordSwc b).pc = s.pc := by
  unfold State.recordSwc; split <;> (try split) <;> rfl
@[simp] theorem State.recordSwc_palmode (b : Bool) : (s.recordSwc b).palmode = s.palmode := by
  unfold State.recordSwc; split <;> (try split) <;> rfl
@[simp] theorem State.recordSwc_fpcr (b : Bool) : (s.recordSwc b).fpcr = s.fpcr := by
  unfold State.recordSwc; split <;> (try split) <;> rfl
@[simp] theorem State.recordSwc_lockFlag (b : Bool) : (s.recordSwc b).lockFlag = s.lockFlag := by
  unfold State.recordSwc; split <;> (try split) <;> rfl
@[simp] theorem State.recordSwc_lockAddr (b : Bool) : (s.recordSwc b).lockAddr = s.lockAddr := by
  unfold State.recordSwc; split <;> (try split) <;> rfl
@[simp] theorem State.recordSwc_intrFlag (b : Bool) : (s.recordSwc b).intrFlag = s.intrFlag := by
  unfold State.recordSwc; split <;> (try split) <;> rfl
@[simp] theorem State.recordSwc_mbox (b : Bool) : (s.recordSwc b).mbox = s.mbox := by
  unfold State.recordSwc; split <;> (try split) <;> rfl
@[simp] theorem State.recordSwc_cbox (b : Bool) : (s.recordSwc b).cbox = s.cbox := by
  unfold State.recordSwc; split <;> (try split) <;> rfl
@[simp] theorem State.recordSwc_itb (b : Bool) : (s.recordSwc b).itb = s.itb := by
  unfold State.recordSwc; split <;> (try split) <;> rfl
@[simp] theorem State.recordSwc_dtb (b : Bool) : (s.recordSwc b).dtb = s.dtb := by
  unfold State.recordSwc; split <;> (try split) <;> rfl
@[simp] theorem State.recordSwc_icache (b : Bool) : (s.recordSwc b).icache = s.icache := by
  unfold State.recordSwc; split <;> (try split) <;> rfl
@[simp] theorem State.recordSwc_dcache (b : Bool) : (s.recordSwc b).dcache = s.dcache := by
  unfold State.recordSwc; split <;> (try split) <;> rfl
@[simp] theorem State.recordSwc_wb (b : Bool) : (s.recordSwc b).wb = s.wb := by
  unfold State.recordSwc; split <;> (try split) <;> rfl
@[simp] theorem State.recordSwc_wbFence (b : Bool) : (s.recordSwc b).wbFence = s.wbFence := by
  unfold State.recordSwc; split <;> (try split) <;> rfl
@[simp] theorem State.recordSwc_maf (b : Bool) : (s.recordSwc b).maf = s.maf := by
  unfold State.recordSwc; split <;> (try split) <;> rfl
@[simp] theorem State.recordSwc_imaf (b : Bool) : (s.recordSwc b).imaf = s.imaf := by
  unfold State.recordSwc; split <;> (try split) <;> rfl
@[simp] theorem State.recordSwc_mbWaits (b : Bool) : (s.recordSwc b).mbWaits = s.mbWaits := by
  unfold State.recordSwc; split <;> (try split) <;> rfl
@[simp] theorem State.recordSwc_scache (b : Bool) : (s.recordSwc b).scache = s.scache := by
  unfold State.recordSwc; split <;> (try split) <;> rfl
@[simp] theorem State.recordSwc_victims (b : Bool) : (s.recordSwc b).victims = s.victims := by
  unfold State.recordSwc; split <;> (try split) <;> rfl
@[simp] theorem State.recordSwc_bcTags (b : Bool) : (s.recordSwc b).bcTags = s.bcTags := by
  unfold State.recordSwc; split <;> (try split) <;> rfl
@[simp] theorem State.recordSwc_bcDatas (b : Bool) : (s.recordSwc b).bcDatas = s.bcDatas := by
  unfold State.recordSwc; split <;> (try split) <;> rfl
@[simp] theorem State.recordSwc_miss0 (b : Bool) : (s.recordSwc b).miss0 = s.miss0 := by
  unfold State.recordSwc; split <;> (try split) <;> rfl
@[simp] theorem State.recordSwc_miss1 (b : Bool) : (s.recordSwc b).miss1 = s.miss1 := by
  unfold State.recordSwc; split <;> (try split) <;> rfl
@[simp] theorem State.recordSwc_cmds (b : Bool) : (s.recordSwc b).cmds = s.cmds := by
  unfold State.recordSwc; split <;> (try split) <;> rfl
@[simp] theorem State.recordSwc_nopParity (b : Bool) : (s.recordSwc b).nopParity = s.nopParity := by
  unfold State.recordSwc; split <;> (try split) <;> rfl
@[simp] theorem State.recordSwc_mchkPending (b : Bool) : (s.recordSwc b).mchkPending = s.mchkPending := by
  unfold State.recordSwc; split <;> (try split) <;> rfl
@[simp] theorem State.recordSwc_afterMb (b : Bool) : (s.recordSwc b).afterMb = s.afterMb := by
  unfold State.recordSwc; split <;> (try split) <;> rfl
@[simp] theorem State.recordSwc_owed (b : Bool) : (s.recordSwc b).owed = s.owed := by
  unfold State.recordSwc; split <;> (try split) <;> rfl
@[simp] theorem State.recordSwc_itbPending (b : Bool) : (s.recordSwc b).itbPending = s.itbPending := by
  unfold State.recordSwc; split <;> (try split) <;> rfl
@[simp] theorem State.recordSwc_istreamLost (b : Bool) : (s.recordSwc b).istreamLost = s.istreamLost := by
  unfold State.recordSwc; split <;> (try split) <;> rfl
@[simp] theorem State.recordSwc_stalled (b : Bool) : (s.recordSwc b).stalled = s.stalled := by
  unfold State.recordSwc; split <;> (try split) <;> rfl
@[simp] theorem State.recordSwc_pulse (b : Bool) : (s.recordSwc b).pulse = s.pulse := by
  unfold State.recordSwc; split <;> (try split) <;> rfl
@[simp] theorem State.recordSwc_mem (b : Bool) : (s.recordSwc b).mem = s.mem := by
  unfold State.recordSwc; split <;> (try split) <;> rfl
@[simp] theorem State.recordSwc_pins (b : Bool) : (s.recordSwc b).pins = s.pins := by
  unfold State.recordSwc; split <;> (try split) <;> rfl
@[simp] theorem State.recordSwc_inputs (b : Bool) : (s.recordSwc b).inputs = s.inputs := by
  unfold State.recordSwc; split <;> (try split) <;> rfl
@[simp] theorem State.recordSwc_answers (b : Bool) : (s.recordSwc b).answers = s.answers := by
  unfold State.recordSwc; split <;> (try split) <;> rfl
@[simp] theorem State.recordSwc_busOut (b : Bool) : (s.recordSwc b).busOut = s.busOut := by
  unfold State.recordSwc; split <;> (try split) <;> rfl
@[simp] theorem State.recordSwc_freeCount (b : Bool) : (s.recordSwc b).freeCount = s.freeCount := by
  unfold State.recordSwc; split <;> (try split) <;> rfl
@[simp] theorem State.recordSwc_tally (b : Bool) : (s.recordSwc b).tally = s.tally := by
  unfold State.recordSwc; split <;> (try split) <;> rfl
@[simp] theorem State.recordSwc_ended (b : Bool) : (s.recordSwc b).ended = s.ended := by
  unfold State.recordSwc; split <;> (try split) <;> rfl

/-! ### finishInt -/

@[simp] theorem State.finishInt_fregs (n : RegNum) (v : Word) (b : Bool) : (s.finishInt n v b).fregs = s.fregs := by
  cases b <;> simp [State.finishInt]
@[simp] theorem State.finishInt_palTemps (n : RegNum) (v : Word) (b : Bool) : (s.finishInt n v b).palTemps = s.palTemps := by
  cases b <;> simp [State.finishInt]
@[simp] theorem State.finishInt_fpcr (n : RegNum) (v : Word) (b : Bool) : (s.finishInt n v b).fpcr = s.fpcr := by
  cases b <;> simp [State.finishInt]
@[simp] theorem State.finishInt_lockFlag (n : RegNum) (v : Word) (b : Bool) : (s.finishInt n v b).lockFlag = s.lockFlag := by
  cases b <;> simp [State.finishInt]
@[simp] theorem State.finishInt_lockAddr (n : RegNum) (v : Word) (b : Bool) : (s.finishInt n v b).lockAddr = s.lockAddr := by
  cases b <;> simp [State.finishInt]
@[simp] theorem State.finishInt_mbox (n : RegNum) (v : Word) (b : Bool) : (s.finishInt n v b).mbox = s.mbox := by
  cases b <;> simp [State.finishInt]
@[simp] theorem State.finishInt_cbox (n : RegNum) (v : Word) (b : Bool) : (s.finishInt n v b).cbox = s.cbox := by
  cases b <;> simp [State.finishInt]
@[simp] theorem State.finishInt_itb (n : RegNum) (v : Word) (b : Bool) : (s.finishInt n v b).itb = s.itb := by
  cases b <;> simp [State.finishInt]
@[simp] theorem State.finishInt_dtb (n : RegNum) (v : Word) (b : Bool) : (s.finishInt n v b).dtb = s.dtb := by
  cases b <;> simp [State.finishInt]
@[simp] theorem State.finishInt_icache (n : RegNum) (v : Word) (b : Bool) : (s.finishInt n v b).icache = s.icache := by
  cases b <;> simp [State.finishInt]
@[simp] theorem State.finishInt_dcache (n : RegNum) (v : Word) (b : Bool) : (s.finishInt n v b).dcache = s.dcache := by
  cases b <;> simp [State.finishInt]
@[simp] theorem State.finishInt_wb (n : RegNum) (v : Word) (b : Bool) : (s.finishInt n v b).wb = s.wb := by
  cases b <;> simp [State.finishInt]
@[simp] theorem State.finishInt_wbFence (n : RegNum) (v : Word) (b : Bool) : (s.finishInt n v b).wbFence = s.wbFence := by
  cases b <;> simp [State.finishInt]
@[simp] theorem State.finishInt_maf (n : RegNum) (v : Word) (b : Bool) : (s.finishInt n v b).maf = s.maf := by
  cases b <;> simp [State.finishInt]
@[simp] theorem State.finishInt_imaf (n : RegNum) (v : Word) (b : Bool) : (s.finishInt n v b).imaf = s.imaf := by
  cases b <;> simp [State.finishInt]
@[simp] theorem State.finishInt_mbWaits (n : RegNum) (v : Word) (b : Bool) : (s.finishInt n v b).mbWaits = s.mbWaits := by
  cases b <;> simp [State.finishInt]
@[simp] theorem State.finishInt_scache (n : RegNum) (v : Word) (b : Bool) : (s.finishInt n v b).scache = s.scache := by
  cases b <;> simp [State.finishInt]
@[simp] theorem State.finishInt_victims (n : RegNum) (v : Word) (b : Bool) : (s.finishInt n v b).victims = s.victims := by
  cases b <;> simp [State.finishInt]
@[simp] theorem State.finishInt_bcTags (n : RegNum) (v : Word) (b : Bool) : (s.finishInt n v b).bcTags = s.bcTags := by
  cases b <;> simp [State.finishInt]
@[simp] theorem State.finishInt_bcDatas (n : RegNum) (v : Word) (b : Bool) : (s.finishInt n v b).bcDatas = s.bcDatas := by
  cases b <;> simp [State.finishInt]
@[simp] theorem State.finishInt_miss0 (n : RegNum) (v : Word) (b : Bool) : (s.finishInt n v b).miss0 = s.miss0 := by
  cases b <;> simp [State.finishInt]
@[simp] theorem State.finishInt_miss1 (n : RegNum) (v : Word) (b : Bool) : (s.finishInt n v b).miss1 = s.miss1 := by
  cases b <;> simp [State.finishInt]
@[simp] theorem State.finishInt_cmds (n : RegNum) (v : Word) (b : Bool) : (s.finishInt n v b).cmds = s.cmds := by
  cases b <;> simp [State.finishInt]
@[simp] theorem State.finishInt_nopParity (n : RegNum) (v : Word) (b : Bool) : (s.finishInt n v b).nopParity = s.nopParity := by
  cases b <;> simp [State.finishInt]
@[simp] theorem State.finishInt_mchkPending (n : RegNum) (v : Word) (b : Bool) : (s.finishInt n v b).mchkPending = s.mchkPending := by
  cases b <;> simp [State.finishInt]
@[simp] theorem State.finishInt_afterMb (n : RegNum) (v : Word) (b : Bool) : (s.finishInt n v b).afterMb = s.afterMb := by
  cases b <;> simp [State.finishInt]
@[simp] theorem State.finishInt_owed (n : RegNum) (v : Word) (b : Bool) : (s.finishInt n v b).owed = s.owed := by
  cases b <;> simp [State.finishInt]
@[simp] theorem State.finishInt_itbPending (n : RegNum) (v : Word) (b : Bool) : (s.finishInt n v b).itbPending = s.itbPending := by
  cases b <;> simp [State.finishInt]
@[simp] theorem State.finishInt_istreamLost (n : RegNum) (v : Word) (b : Bool) : (s.finishInt n v b).istreamLost = s.istreamLost := by
  cases b <;> simp [State.finishInt]
@[simp] theorem State.finishInt_stalled (n : RegNum) (v : Word) (b : Bool) : (s.finishInt n v b).stalled = s.stalled := by
  cases b <;> simp [State.finishInt]
@[simp] theorem State.finishInt_pulse (n : RegNum) (v : Word) (b : Bool) : (s.finishInt n v b).pulse = s.pulse := by
  cases b <;> simp [State.finishInt]
@[simp] theorem State.finishInt_mem (n : RegNum) (v : Word) (b : Bool) : (s.finishInt n v b).mem = s.mem := by
  cases b <;> simp [State.finishInt]
@[simp] theorem State.finishInt_pins (n : RegNum) (v : Word) (b : Bool) : (s.finishInt n v b).pins = s.pins := by
  cases b <;> simp [State.finishInt]
@[simp] theorem State.finishInt_inputs (n : RegNum) (v : Word) (b : Bool) : (s.finishInt n v b).inputs = s.inputs := by
  cases b <;> simp [State.finishInt]
@[simp] theorem State.finishInt_answers (n : RegNum) (v : Word) (b : Bool) : (s.finishInt n v b).answers = s.answers := by
  cases b <;> simp [State.finishInt]
@[simp] theorem State.finishInt_busOut (n : RegNum) (v : Word) (b : Bool) : (s.finishInt n v b).busOut = s.busOut := by
  cases b <;> simp [State.finishInt]
@[simp] theorem State.finishInt_freeCount (n : RegNum) (v : Word) (b : Bool) : (s.finishInt n v b).freeCount = s.freeCount := by
  cases b <;> simp [State.finishInt]
@[simp] theorem State.finishInt_tally (n : RegNum) (v : Word) (b : Bool) : (s.finishInt n v b).tally = s.tally := by
  cases b <;> simp [State.finishInt]

/-! ### finishFp -/

@[simp] theorem State.finishFp_ints (n : RegNum) (b : Bool) (o : FpOutcome) : (s.finishFp n b o).ints = s.ints := by
  unfold State.finishFp; split <;> simp
@[simp] theorem State.finishFp_shadow (n : RegNum) (b : Bool) (o : FpOutcome) : (s.finishFp n b o).shadow = s.shadow := by
  unfold State.finishFp; split <;> simp
@[simp] theorem State.finishFp_palTemps (n : RegNum) (b : Bool) (o : FpOutcome) : (s.finishFp n b o).palTemps = s.palTemps := by
  unfold State.finishFp; split <;> simp
@[simp] theorem State.finishFp_lockFlag (n : RegNum) (b : Bool) (o : FpOutcome) : (s.finishFp n b o).lockFlag = s.lockFlag := by
  unfold State.finishFp; split <;> simp
@[simp] theorem State.finishFp_lockAddr (n : RegNum) (b : Bool) (o : FpOutcome) : (s.finishFp n b o).lockAddr = s.lockAddr := by
  unfold State.finishFp; split <;> simp
@[simp] theorem State.finishFp_mbox (n : RegNum) (b : Bool) (o : FpOutcome) : (s.finishFp n b o).mbox = s.mbox := by
  unfold State.finishFp; split <;> simp
@[simp] theorem State.finishFp_cbox (n : RegNum) (b : Bool) (o : FpOutcome) : (s.finishFp n b o).cbox = s.cbox := by
  unfold State.finishFp; split <;> simp
@[simp] theorem State.finishFp_itb (n : RegNum) (b : Bool) (o : FpOutcome) : (s.finishFp n b o).itb = s.itb := by
  unfold State.finishFp; split <;> simp
@[simp] theorem State.finishFp_dtb (n : RegNum) (b : Bool) (o : FpOutcome) : (s.finishFp n b o).dtb = s.dtb := by
  unfold State.finishFp; split <;> simp
@[simp] theorem State.finishFp_icache (n : RegNum) (b : Bool) (o : FpOutcome) : (s.finishFp n b o).icache = s.icache := by
  unfold State.finishFp; split <;> simp
@[simp] theorem State.finishFp_dcache (n : RegNum) (b : Bool) (o : FpOutcome) : (s.finishFp n b o).dcache = s.dcache := by
  unfold State.finishFp; split <;> simp
@[simp] theorem State.finishFp_wb (n : RegNum) (b : Bool) (o : FpOutcome) : (s.finishFp n b o).wb = s.wb := by
  unfold State.finishFp; split <;> simp
@[simp] theorem State.finishFp_wbFence (n : RegNum) (b : Bool) (o : FpOutcome) : (s.finishFp n b o).wbFence = s.wbFence := by
  unfold State.finishFp; split <;> simp
@[simp] theorem State.finishFp_maf (n : RegNum) (b : Bool) (o : FpOutcome) : (s.finishFp n b o).maf = s.maf := by
  unfold State.finishFp; split <;> simp
@[simp] theorem State.finishFp_imaf (n : RegNum) (b : Bool) (o : FpOutcome) : (s.finishFp n b o).imaf = s.imaf := by
  unfold State.finishFp; split <;> simp
@[simp] theorem State.finishFp_mbWaits (n : RegNum) (b : Bool) (o : FpOutcome) : (s.finishFp n b o).mbWaits = s.mbWaits := by
  unfold State.finishFp; split <;> simp
@[simp] theorem State.finishFp_scache (n : RegNum) (b : Bool) (o : FpOutcome) : (s.finishFp n b o).scache = s.scache := by
  unfold State.finishFp; split <;> simp
@[simp] theorem State.finishFp_victims (n : RegNum) (b : Bool) (o : FpOutcome) : (s.finishFp n b o).victims = s.victims := by
  unfold State.finishFp; split <;> simp
@[simp] theorem State.finishFp_bcTags (n : RegNum) (b : Bool) (o : FpOutcome) : (s.finishFp n b o).bcTags = s.bcTags := by
  unfold State.finishFp; split <;> simp
@[simp] theorem State.finishFp_bcDatas (n : RegNum) (b : Bool) (o : FpOutcome) : (s.finishFp n b o).bcDatas = s.bcDatas := by
  unfold State.finishFp; split <;> simp
@[simp] theorem State.finishFp_miss0 (n : RegNum) (b : Bool) (o : FpOutcome) : (s.finishFp n b o).miss0 = s.miss0 := by
  unfold State.finishFp; split <;> simp
@[simp] theorem State.finishFp_miss1 (n : RegNum) (b : Bool) (o : FpOutcome) : (s.finishFp n b o).miss1 = s.miss1 := by
  unfold State.finishFp; split <;> simp
@[simp] theorem State.finishFp_cmds (n : RegNum) (b : Bool) (o : FpOutcome) : (s.finishFp n b o).cmds = s.cmds := by
  unfold State.finishFp; split <;> simp
@[simp] theorem State.finishFp_nopParity (n : RegNum) (b : Bool) (o : FpOutcome) : (s.finishFp n b o).nopParity = s.nopParity := by
  unfold State.finishFp; split <;> simp
@[simp] theorem State.finishFp_mchkPending (n : RegNum) (b : Bool) (o : FpOutcome) : (s.finishFp n b o).mchkPending = s.mchkPending := by
  unfold State.finishFp; split <;> simp
@[simp] theorem State.finishFp_afterMb (n : RegNum) (b : Bool) (o : FpOutcome) : (s.finishFp n b o).afterMb = s.afterMb := by
  unfold State.finishFp; split <;> simp
@[simp] theorem State.finishFp_owed (n : RegNum) (b : Bool) (o : FpOutcome) : (s.finishFp n b o).owed = s.owed := by
  unfold State.finishFp; split <;> simp
@[simp] theorem State.finishFp_itbPending (n : RegNum) (b : Bool) (o : FpOutcome) : (s.finishFp n b o).itbPending = s.itbPending := by
  unfold State.finishFp; split <;> simp
@[simp] theorem State.finishFp_istreamLost (n : RegNum) (b : Bool) (o : FpOutcome) : (s.finishFp n b o).istreamLost = s.istreamLost := by
  unfold State.finishFp; split <;> simp
@[simp] theorem State.finishFp_stalled (n : RegNum) (b : Bool) (o : FpOutcome) : (s.finishFp n b o).stalled = s.stalled := by
  unfold State.finishFp; split <;> simp
@[simp] theorem State.finishFp_pulse (n : RegNum) (b : Bool) (o : FpOutcome) : (s.finishFp n b o).pulse = s.pulse := by
  unfold State.finishFp; split <;> simp
@[simp] theorem State.finishFp_mem (n : RegNum) (b : Bool) (o : FpOutcome) : (s.finishFp n b o).mem = s.mem := by
  unfold State.finishFp; split <;> simp
@[simp] theorem State.finishFp_pins (n : RegNum) (b : Bool) (o : FpOutcome) : (s.finishFp n b o).pins = s.pins := by
  unfold State.finishFp; split <;> simp
@[simp] theorem State.finishFp_inputs (n : RegNum) (b : Bool) (o : FpOutcome) : (s.finishFp n b o).inputs = s.inputs := by
  unfold State.finishFp; split <;> simp
@[simp] theorem State.finishFp_answers (n : RegNum) (b : Bool) (o : FpOutcome) : (s.finishFp n b o).answers = s.answers := by
  unfold State.finishFp; split <;> simp
@[simp] theorem State.finishFp_busOut (n : RegNum) (b : Bool) (o : FpOutcome) : (s.finishFp n b o).busOut = s.busOut := by
  unfold State.finishFp; split <;> simp
@[simp] theorem State.finishFp_tally (n : RegNum) (b : Bool) (o : FpOutcome) : (s.finishFp n b o).tally = s.tally := by
  unfold State.finishFp; split <;> simp

/-! ### touchDtb -/

@[simp] theorem State.touchDtb_ints (k : Option (Fin 64)) : (s.touchDtb k).ints = s.ints := by
  cases k <;> rfl
@[simp] theorem State.touchDtb_shadow (k : Option (Fin 64)) : (s.touchDtb k).shadow = s.shadow := by
  cases k <;> rfl
@[simp] theorem State.touchDtb_fregs (k : Option (Fin 64)) : (s.touchDtb k).fregs = s.fregs := by
  cases k <;> rfl
@[simp] theorem State.touchDtb_palTemps (k : Option (Fin 64)) : (s.touchDtb k).palTemps = s.palTemps := by
  cases k <;> rfl
@[simp] theorem State.touchDtb_pc (k : Option (Fin 64)) : (s.touchDtb k).pc = s.pc := by
  cases k <;> rfl
@[simp] theorem State.touchDtb_palmode (k : Option (Fin 64)) : (s.touchDtb k).palmode = s.palmode := by
  cases k <;> rfl
@[simp] theorem State.touchDtb_fpcr (k : Option (Fin 64)) : (s.touchDtb k).fpcr = s.fpcr := by
  cases k <;> rfl
@[simp] theorem State.touchDtb_lockFlag (k : Option (Fin 64)) : (s.touchDtb k).lockFlag = s.lockFlag := by
  cases k <;> rfl
@[simp] theorem State.touchDtb_lockAddr (k : Option (Fin 64)) : (s.touchDtb k).lockAddr = s.lockAddr := by
  cases k <;> rfl
@[simp] theorem State.touchDtb_intrFlag (k : Option (Fin 64)) : (s.touchDtb k).intrFlag = s.intrFlag := by
  cases k <;> rfl
@[simp] theorem State.touchDtb_ibox (k : Option (Fin 64)) : (s.touchDtb k).ibox = s.ibox := by
  cases k <;> rfl
@[simp] theorem State.touchDtb_mbox (k : Option (Fin 64)) : (s.touchDtb k).mbox = s.mbox := by
  cases k <;> rfl
@[simp] theorem State.touchDtb_cbox (k : Option (Fin 64)) : (s.touchDtb k).cbox = s.cbox := by
  cases k <;> rfl
@[simp] theorem State.touchDtb_itb (k : Option (Fin 64)) : (s.touchDtb k).itb = s.itb := by
  cases k <;> rfl
@[simp] theorem State.touchDtb_icache (k : Option (Fin 64)) : (s.touchDtb k).icache = s.icache := by
  cases k <;> rfl
@[simp] theorem State.touchDtb_dcache (k : Option (Fin 64)) : (s.touchDtb k).dcache = s.dcache := by
  cases k <;> rfl
@[simp] theorem State.touchDtb_wb (k : Option (Fin 64)) : (s.touchDtb k).wb = s.wb := by
  cases k <;> rfl
@[simp] theorem State.touchDtb_wbFence (k : Option (Fin 64)) : (s.touchDtb k).wbFence = s.wbFence := by
  cases k <;> rfl
@[simp] theorem State.touchDtb_maf (k : Option (Fin 64)) : (s.touchDtb k).maf = s.maf := by
  cases k <;> rfl
@[simp] theorem State.touchDtb_imaf (k : Option (Fin 64)) : (s.touchDtb k).imaf = s.imaf := by
  cases k <;> rfl
@[simp] theorem State.touchDtb_mbWaits (k : Option (Fin 64)) : (s.touchDtb k).mbWaits = s.mbWaits := by
  cases k <;> rfl
@[simp] theorem State.touchDtb_scache (k : Option (Fin 64)) : (s.touchDtb k).scache = s.scache := by
  cases k <;> rfl
@[simp] theorem State.touchDtb_victims (k : Option (Fin 64)) : (s.touchDtb k).victims = s.victims := by
  cases k <;> rfl
@[simp] theorem State.touchDtb_bcTags (k : Option (Fin 64)) : (s.touchDtb k).bcTags = s.bcTags := by
  cases k <;> rfl
@[simp] theorem State.touchDtb_bcDatas (k : Option (Fin 64)) : (s.touchDtb k).bcDatas = s.bcDatas := by
  cases k <;> rfl
@[simp] theorem State.touchDtb_miss0 (k : Option (Fin 64)) : (s.touchDtb k).miss0 = s.miss0 := by
  cases k <;> rfl
@[simp] theorem State.touchDtb_miss1 (k : Option (Fin 64)) : (s.touchDtb k).miss1 = s.miss1 := by
  cases k <;> rfl
@[simp] theorem State.touchDtb_cmds (k : Option (Fin 64)) : (s.touchDtb k).cmds = s.cmds := by
  cases k <;> rfl
@[simp] theorem State.touchDtb_nopParity (k : Option (Fin 64)) : (s.touchDtb k).nopParity = s.nopParity := by
  cases k <;> rfl
@[simp] theorem State.touchDtb_mchkPending (k : Option (Fin 64)) : (s.touchDtb k).mchkPending = s.mchkPending := by
  cases k <;> rfl
@[simp] theorem State.touchDtb_afterMb (k : Option (Fin 64)) : (s.touchDtb k).afterMb = s.afterMb := by
  cases k <;> rfl
@[simp] theorem State.touchDtb_owed (k : Option (Fin 64)) : (s.touchDtb k).owed = s.owed := by
  cases k <;> rfl
@[simp] theorem State.touchDtb_itbPending (k : Option (Fin 64)) : (s.touchDtb k).itbPending = s.itbPending := by
  cases k <;> rfl
@[simp] theorem State.touchDtb_istreamLost (k : Option (Fin 64)) : (s.touchDtb k).istreamLost = s.istreamLost := by
  cases k <;> rfl
@[simp] theorem State.touchDtb_stalled (k : Option (Fin 64)) : (s.touchDtb k).stalled = s.stalled := by
  cases k <;> rfl
@[simp] theorem State.touchDtb_pulse (k : Option (Fin 64)) : (s.touchDtb k).pulse = s.pulse := by
  cases k <;> rfl
@[simp] theorem State.touchDtb_mem (k : Option (Fin 64)) : (s.touchDtb k).mem = s.mem := by
  cases k <;> rfl
@[simp] theorem State.touchDtb_pins (k : Option (Fin 64)) : (s.touchDtb k).pins = s.pins := by
  cases k <;> rfl
@[simp] theorem State.touchDtb_inputs (k : Option (Fin 64)) : (s.touchDtb k).inputs = s.inputs := by
  cases k <;> rfl
@[simp] theorem State.touchDtb_answers (k : Option (Fin 64)) : (s.touchDtb k).answers = s.answers := by
  cases k <;> rfl
@[simp] theorem State.touchDtb_busOut (k : Option (Fin 64)) : (s.touchDtb k).busOut = s.busOut := by
  cases k <;> rfl
@[simp] theorem State.touchDtb_freeCount (k : Option (Fin 64)) : (s.touchDtb k).freeCount = s.freeCount := by
  cases k <;> rfl
@[simp] theorem State.touchDtb_tally (k : Option (Fin 64)) : (s.touchDtb k).tally = s.tally := by
  cases k <;> rfl
@[simp] theorem State.touchDtb_ended (k : Option (Fin 64)) : (s.touchDtb k).ended = s.ended := by
  cases k <;> rfl

/-! ### captureMm -/

@[simp] theorem State.captureMm_ints (v : Word) (b : MmBits) (r : RegNum) (o : BitVec 6) : (s.captureMm v b r o).ints = s.ints := by
  unfold State.captureMm; split <;> rfl
@[simp] theorem State.captureMm_shadow (v : Word) (b : MmBits) (r : RegNum) (o : BitVec 6) : (s.captureMm v b r o).shadow = s.shadow := by
  unfold State.captureMm; split <;> rfl
@[simp] theorem State.captureMm_fregs (v : Word) (b : MmBits) (r : RegNum) (o : BitVec 6) : (s.captureMm v b r o).fregs = s.fregs := by
  unfold State.captureMm; split <;> rfl
@[simp] theorem State.captureMm_palTemps (v : Word) (b : MmBits) (r : RegNum) (o : BitVec 6) : (s.captureMm v b r o).palTemps = s.palTemps := by
  unfold State.captureMm; split <;> rfl
@[simp] theorem State.captureMm_pc (v : Word) (b : MmBits) (r : RegNum) (o : BitVec 6) : (s.captureMm v b r o).pc = s.pc := by
  unfold State.captureMm; split <;> rfl
@[simp] theorem State.captureMm_palmode (v : Word) (b : MmBits) (r : RegNum) (o : BitVec 6) : (s.captureMm v b r o).palmode = s.palmode := by
  unfold State.captureMm; split <;> rfl
@[simp] theorem State.captureMm_fpcr (v : Word) (b : MmBits) (r : RegNum) (o : BitVec 6) : (s.captureMm v b r o).fpcr = s.fpcr := by
  unfold State.captureMm; split <;> rfl
@[simp] theorem State.captureMm_lockFlag (v : Word) (b : MmBits) (r : RegNum) (o : BitVec 6) : (s.captureMm v b r o).lockFlag = s.lockFlag := by
  unfold State.captureMm; split <;> rfl
@[simp] theorem State.captureMm_lockAddr (v : Word) (b : MmBits) (r : RegNum) (o : BitVec 6) : (s.captureMm v b r o).lockAddr = s.lockAddr := by
  unfold State.captureMm; split <;> rfl
@[simp] theorem State.captureMm_intrFlag (v : Word) (b : MmBits) (r : RegNum) (o : BitVec 6) : (s.captureMm v b r o).intrFlag = s.intrFlag := by
  unfold State.captureMm; split <;> rfl
@[simp] theorem State.captureMm_ibox (v : Word) (b : MmBits) (r : RegNum) (o : BitVec 6) : (s.captureMm v b r o).ibox = s.ibox := by
  unfold State.captureMm; split <;> rfl
@[simp] theorem State.captureMm_cbox (v : Word) (b : MmBits) (r : RegNum) (o : BitVec 6) : (s.captureMm v b r o).cbox = s.cbox := by
  unfold State.captureMm; split <;> rfl
@[simp] theorem State.captureMm_itb (v : Word) (b : MmBits) (r : RegNum) (o : BitVec 6) : (s.captureMm v b r o).itb = s.itb := by
  unfold State.captureMm; split <;> rfl
@[simp] theorem State.captureMm_dtb (v : Word) (b : MmBits) (r : RegNum) (o : BitVec 6) : (s.captureMm v b r o).dtb = s.dtb := by
  unfold State.captureMm; split <;> rfl
@[simp] theorem State.captureMm_icache (v : Word) (b : MmBits) (r : RegNum) (o : BitVec 6) : (s.captureMm v b r o).icache = s.icache := by
  unfold State.captureMm; split <;> rfl
@[simp] theorem State.captureMm_dcache (v : Word) (b : MmBits) (r : RegNum) (o : BitVec 6) : (s.captureMm v b r o).dcache = s.dcache := by
  unfold State.captureMm; split <;> rfl
@[simp] theorem State.captureMm_wb (v : Word) (b : MmBits) (r : RegNum) (o : BitVec 6) : (s.captureMm v b r o).wb = s.wb := by
  unfold State.captureMm; split <;> rfl
@[simp] theorem State.captureMm_wbFence (v : Word) (b : MmBits) (r : RegNum) (o : BitVec 6) : (s.captureMm v b r o).wbFence = s.wbFence := by
  unfold State.captureMm; split <;> rfl
@[simp] theorem State.captureMm_maf (v : Word) (b : MmBits) (r : RegNum) (o : BitVec 6) : (s.captureMm v b r o).maf = s.maf := by
  unfold State.captureMm; split <;> rfl
@[simp] theorem State.captureMm_imaf (v : Word) (b : MmBits) (r : RegNum) (o : BitVec 6) : (s.captureMm v b r o).imaf = s.imaf := by
  unfold State.captureMm; split <;> rfl
@[simp] theorem State.captureMm_mbWaits (v : Word) (b : MmBits) (r : RegNum) (o : BitVec 6) : (s.captureMm v b r o).mbWaits = s.mbWaits := by
  unfold State.captureMm; split <;> rfl
@[simp] theorem State.captureMm_scache (v : Word) (b : MmBits) (r : RegNum) (o : BitVec 6) : (s.captureMm v b r o).scache = s.scache := by
  unfold State.captureMm; split <;> rfl
@[simp] theorem State.captureMm_victims (v : Word) (b : MmBits) (r : RegNum) (o : BitVec 6) : (s.captureMm v b r o).victims = s.victims := by
  unfold State.captureMm; split <;> rfl
@[simp] theorem State.captureMm_bcTags (v : Word) (b : MmBits) (r : RegNum) (o : BitVec 6) : (s.captureMm v b r o).bcTags = s.bcTags := by
  unfold State.captureMm; split <;> rfl
@[simp] theorem State.captureMm_bcDatas (v : Word) (b : MmBits) (r : RegNum) (o : BitVec 6) : (s.captureMm v b r o).bcDatas = s.bcDatas := by
  unfold State.captureMm; split <;> rfl
@[simp] theorem State.captureMm_miss0 (v : Word) (b : MmBits) (r : RegNum) (o : BitVec 6) : (s.captureMm v b r o).miss0 = s.miss0 := by
  unfold State.captureMm; split <;> rfl
@[simp] theorem State.captureMm_miss1 (v : Word) (b : MmBits) (r : RegNum) (o : BitVec 6) : (s.captureMm v b r o).miss1 = s.miss1 := by
  unfold State.captureMm; split <;> rfl
@[simp] theorem State.captureMm_cmds (v : Word) (b : MmBits) (r : RegNum) (o : BitVec 6) : (s.captureMm v b r o).cmds = s.cmds := by
  unfold State.captureMm; split <;> rfl
@[simp] theorem State.captureMm_nopParity (v : Word) (b : MmBits) (r : RegNum) (o : BitVec 6) : (s.captureMm v b r o).nopParity = s.nopParity := by
  unfold State.captureMm; split <;> rfl
@[simp] theorem State.captureMm_mchkPending (v : Word) (b : MmBits) (r : RegNum) (o : BitVec 6) : (s.captureMm v b r o).mchkPending = s.mchkPending := by
  unfold State.captureMm; split <;> rfl
@[simp] theorem State.captureMm_afterMb (v : Word) (b : MmBits) (r : RegNum) (o : BitVec 6) : (s.captureMm v b r o).afterMb = s.afterMb := by
  unfold State.captureMm; split <;> rfl
@[simp] theorem State.captureMm_owed (v : Word) (b : MmBits) (r : RegNum) (o : BitVec 6) : (s.captureMm v b r o).owed = s.owed := by
  unfold State.captureMm; split <;> rfl
@[simp] theorem State.captureMm_itbPending (v : Word) (b : MmBits) (r : RegNum) (o : BitVec 6) : (s.captureMm v b r o).itbPending = s.itbPending := by
  unfold State.captureMm; split <;> rfl
@[simp] theorem State.captureMm_istreamLost (v : Word) (b : MmBits) (r : RegNum) (o : BitVec 6) : (s.captureMm v b r o).istreamLost = s.istreamLost := by
  unfold State.captureMm; split <;> rfl
@[simp] theorem State.captureMm_stalled (v : Word) (b : MmBits) (r : RegNum) (o : BitVec 6) : (s.captureMm v b r o).stalled = s.stalled := by
  unfold State.captureMm; split <;> rfl
@[simp] theorem State.captureMm_pulse (v : Word) (b : MmBits) (r : RegNum) (o : BitVec 6) : (s.captureMm v b r o).pulse = s.pulse := by
  unfold State.captureMm; split <;> rfl
@[simp] theorem State.captureMm_mem (v : Word) (b : MmBits) (r : RegNum) (o : BitVec 6) : (s.captureMm v b r o).mem = s.mem := by
  unfold State.captureMm; split <;> rfl
@[simp] theorem State.captureMm_pins (v : Word) (b : MmBits) (r : RegNum) (o : BitVec 6) : (s.captureMm v b r o).pins = s.pins := by
  unfold State.captureMm; split <;> rfl
@[simp] theorem State.captureMm_inputs (v : Word) (b : MmBits) (r : RegNum) (o : BitVec 6) : (s.captureMm v b r o).inputs = s.inputs := by
  unfold State.captureMm; split <;> rfl
@[simp] theorem State.captureMm_answers (v : Word) (b : MmBits) (r : RegNum) (o : BitVec 6) : (s.captureMm v b r o).answers = s.answers := by
  unfold State.captureMm; split <;> rfl
@[simp] theorem State.captureMm_busOut (v : Word) (b : MmBits) (r : RegNum) (o : BitVec 6) : (s.captureMm v b r o).busOut = s.busOut := by
  unfold State.captureMm; split <;> rfl
@[simp] theorem State.captureMm_freeCount (v : Word) (b : MmBits) (r : RegNum) (o : BitVec 6) : (s.captureMm v b r o).freeCount = s.freeCount := by
  unfold State.captureMm; split <;> rfl
@[simp] theorem State.captureMm_tally (v : Word) (b : MmBits) (r : RegNum) (o : BitVec 6) : (s.captureMm v b r o).tally = s.tally := by
  unfold State.captureMm; split <;> rfl
@[simp] theorem State.captureMm_ended (v : Word) (b : MmBits) (r : RegNum) (o : BitVec 6) : (s.captureMm v b r o).ended = s.ended := by
  unfold State.captureMm; split <;> rfl

/-! ### mmTrap -/

@[simp] theorem State.mmTrap_ints (r : Ref) (e : Entry) (b : MmBits) : (s.mmTrap r e b).ints = s.ints := by
  simp [State.mmTrap]
@[simp] theorem State.mmTrap_shadow (r : Ref) (e : Entry) (b : MmBits) : (s.mmTrap r e b).shadow = s.shadow := by
  simp [State.mmTrap]
@[simp] theorem State.mmTrap_fregs (r : Ref) (e : Entry) (b : MmBits) : (s.mmTrap r e b).fregs = s.fregs := by
  simp [State.mmTrap]
@[simp] theorem State.mmTrap_palTemps (r : Ref) (e : Entry) (b : MmBits) : (s.mmTrap r e b).palTemps = s.palTemps := by
  simp [State.mmTrap]
@[simp] theorem State.mmTrap_fpcr (r : Ref) (e : Entry) (b : MmBits) : (s.mmTrap r e b).fpcr = s.fpcr := by
  simp [State.mmTrap]
@[simp] theorem State.mmTrap_lockFlag (r : Ref) (e : Entry) (b : MmBits) : (s.mmTrap r e b).lockFlag = s.lockFlag := by
  simp [State.mmTrap]
@[simp] theorem State.mmTrap_lockAddr (r : Ref) (e : Entry) (b : MmBits) : (s.mmTrap r e b).lockAddr = s.lockAddr := by
  simp [State.mmTrap]
@[simp] theorem State.mmTrap_cbox (r : Ref) (e : Entry) (b : MmBits) : (s.mmTrap r e b).cbox = s.cbox := by
  simp [State.mmTrap]
@[simp] theorem State.mmTrap_itb (r : Ref) (e : Entry) (b : MmBits) : (s.mmTrap r e b).itb = s.itb := by
  simp [State.mmTrap]
@[simp] theorem State.mmTrap_dtb (r : Ref) (e : Entry) (b : MmBits) : (s.mmTrap r e b).dtb = s.dtb := by
  simp [State.mmTrap]
@[simp] theorem State.mmTrap_icache (r : Ref) (e : Entry) (b : MmBits) : (s.mmTrap r e b).icache = s.icache := by
  simp [State.mmTrap]
@[simp] theorem State.mmTrap_dcache (r : Ref) (e : Entry) (b : MmBits) : (s.mmTrap r e b).dcache = s.dcache := by
  simp [State.mmTrap]
@[simp] theorem State.mmTrap_wb (r : Ref) (e : Entry) (b : MmBits) : (s.mmTrap r e b).wb = s.wb := by
  simp [State.mmTrap]
@[simp] theorem State.mmTrap_wbFence (r : Ref) (e : Entry) (b : MmBits) : (s.mmTrap r e b).wbFence = s.wbFence := by
  simp [State.mmTrap]
@[simp] theorem State.mmTrap_maf (r : Ref) (e : Entry) (b : MmBits) : (s.mmTrap r e b).maf = s.maf := by
  simp [State.mmTrap]
@[simp] theorem State.mmTrap_imaf (r : Ref) (e : Entry) (b : MmBits) : (s.mmTrap r e b).imaf = s.imaf := by
  simp [State.mmTrap]
@[simp] theorem State.mmTrap_mbWaits (r : Ref) (e : Entry) (b : MmBits) : (s.mmTrap r e b).mbWaits = s.mbWaits := by
  simp [State.mmTrap]
@[simp] theorem State.mmTrap_scache (r : Ref) (e : Entry) (b : MmBits) : (s.mmTrap r e b).scache = s.scache := by
  simp [State.mmTrap]
@[simp] theorem State.mmTrap_victims (r : Ref) (e : Entry) (b : MmBits) : (s.mmTrap r e b).victims = s.victims := by
  simp [State.mmTrap]
@[simp] theorem State.mmTrap_bcTags (r : Ref) (e : Entry) (b : MmBits) : (s.mmTrap r e b).bcTags = s.bcTags := by
  simp [State.mmTrap]
@[simp] theorem State.mmTrap_bcDatas (r : Ref) (e : Entry) (b : MmBits) : (s.mmTrap r e b).bcDatas = s.bcDatas := by
  simp [State.mmTrap]
@[simp] theorem State.mmTrap_miss0 (r : Ref) (e : Entry) (b : MmBits) : (s.mmTrap r e b).miss0 = s.miss0 := by
  simp [State.mmTrap]
@[simp] theorem State.mmTrap_miss1 (r : Ref) (e : Entry) (b : MmBits) : (s.mmTrap r e b).miss1 = s.miss1 := by
  simp [State.mmTrap]
@[simp] theorem State.mmTrap_cmds (r : Ref) (e : Entry) (b : MmBits) : (s.mmTrap r e b).cmds = s.cmds := by
  simp [State.mmTrap]
@[simp] theorem State.mmTrap_nopParity (r : Ref) (e : Entry) (b : MmBits) : (s.mmTrap r e b).nopParity = s.nopParity := by
  simp [State.mmTrap]
@[simp] theorem State.mmTrap_mchkPending (r : Ref) (e : Entry) (b : MmBits) : (s.mmTrap r e b).mchkPending = s.mchkPending := by
  simp [State.mmTrap]
@[simp] theorem State.mmTrap_afterMb (r : Ref) (e : Entry) (b : MmBits) : (s.mmTrap r e b).afterMb = s.afterMb := by
  simp [State.mmTrap]
@[simp] theorem State.mmTrap_owed (r : Ref) (e : Entry) (b : MmBits) : (s.mmTrap r e b).owed = s.owed := by
  simp [State.mmTrap]
@[simp] theorem State.mmTrap_itbPending (r : Ref) (e : Entry) (b : MmBits) : (s.mmTrap r e b).itbPending = s.itbPending := by
  simp [State.mmTrap]
@[simp] theorem State.mmTrap_istreamLost (r : Ref) (e : Entry) (b : MmBits) : (s.mmTrap r e b).istreamLost = s.istreamLost := by
  simp [State.mmTrap]
@[simp] theorem State.mmTrap_stalled (r : Ref) (e : Entry) (b : MmBits) : (s.mmTrap r e b).stalled = s.stalled := by
  simp [State.mmTrap]
@[simp] theorem State.mmTrap_pulse (r : Ref) (e : Entry) (b : MmBits) : (s.mmTrap r e b).pulse = s.pulse := by
  simp [State.mmTrap]
@[simp] theorem State.mmTrap_mem (r : Ref) (e : Entry) (b : MmBits) : (s.mmTrap r e b).mem = s.mem := by
  simp [State.mmTrap]
@[simp] theorem State.mmTrap_pins (r : Ref) (e : Entry) (b : MmBits) : (s.mmTrap r e b).pins = s.pins := by
  simp [State.mmTrap]
@[simp] theorem State.mmTrap_inputs (r : Ref) (e : Entry) (b : MmBits) : (s.mmTrap r e b).inputs = s.inputs := by
  simp [State.mmTrap]
@[simp] theorem State.mmTrap_answers (r : Ref) (e : Entry) (b : MmBits) : (s.mmTrap r e b).answers = s.answers := by
  simp [State.mmTrap]
@[simp] theorem State.mmTrap_busOut (r : Ref) (e : Entry) (b : MmBits) : (s.mmTrap r e b).busOut = s.busOut := by
  simp [State.mmTrap]
@[simp] theorem State.mmTrap_freeCount (r : Ref) (e : Entry) (b : MmBits) : (s.mmTrap r e b).freeCount = s.freeCount := by
  simp [State.mmTrap]
@[simp] theorem State.mmTrap_tally (r : Ref) (e : Entry) (b : MmBits) : (s.mmTrap r e b).tally = s.tally := by
  simp [State.mmTrap]

/-! ### drive -/

@[simp] theorem State.drive_ints (e : BusEvent) : (s.drive e).ints = s.ints := rfl
@[simp] theorem State.drive_shadow (e : BusEvent) : (s.drive e).shadow = s.shadow := rfl
@[simp] theorem State.drive_fregs (e : BusEvent) : (s.drive e).fregs = s.fregs := rfl
@[simp] theorem State.drive_palTemps (e : BusEvent) : (s.drive e).palTemps = s.palTemps := rfl
@[simp] theorem State.drive_pc (e : BusEvent) : (s.drive e).pc = s.pc := rfl
@[simp] theorem State.drive_palmode (e : BusEvent) : (s.drive e).palmode = s.palmode := rfl
@[simp] theorem State.drive_fpcr (e : BusEvent) : (s.drive e).fpcr = s.fpcr := rfl
@[simp] theorem State.drive_lockFlag (e : BusEvent) : (s.drive e).lockFlag = s.lockFlag := rfl
@[simp] theorem State.drive_lockAddr (e : BusEvent) : (s.drive e).lockAddr = s.lockAddr := rfl
@[simp] theorem State.drive_intrFlag (e : BusEvent) : (s.drive e).intrFlag = s.intrFlag := rfl
@[simp] theorem State.drive_ibox (e : BusEvent) : (s.drive e).ibox = s.ibox := rfl
@[simp] theorem State.drive_mbox (e : BusEvent) : (s.drive e).mbox = s.mbox := rfl
@[simp] theorem State.drive_cbox (e : BusEvent) : (s.drive e).cbox = s.cbox := rfl
@[simp] theorem State.drive_itb (e : BusEvent) : (s.drive e).itb = s.itb := rfl
@[simp] theorem State.drive_dtb (e : BusEvent) : (s.drive e).dtb = s.dtb := rfl
@[simp] theorem State.drive_icache (e : BusEvent) : (s.drive e).icache = s.icache := rfl
@[simp] theorem State.drive_dcache (e : BusEvent) : (s.drive e).dcache = s.dcache := rfl
@[simp] theorem State.drive_wb (e : BusEvent) : (s.drive e).wb = s.wb := rfl
@[simp] theorem State.drive_wbFence (e : BusEvent) : (s.drive e).wbFence = s.wbFence := rfl
@[simp] theorem State.drive_maf (e : BusEvent) : (s.drive e).maf = s.maf := rfl
@[simp] theorem State.drive_imaf (e : BusEvent) : (s.drive e).imaf = s.imaf := rfl
@[simp] theorem State.drive_mbWaits (e : BusEvent) : (s.drive e).mbWaits = s.mbWaits := rfl
@[simp] theorem State.drive_scache (e : BusEvent) : (s.drive e).scache = s.scache := rfl
@[simp] theorem State.drive_victims (e : BusEvent) : (s.drive e).victims = s.victims := rfl
@[simp] theorem State.drive_bcTags (e : BusEvent) : (s.drive e).bcTags = s.bcTags := rfl
@[simp] theorem State.drive_bcDatas (e : BusEvent) : (s.drive e).bcDatas = s.bcDatas := rfl
@[simp] theorem State.drive_miss0 (e : BusEvent) : (s.drive e).miss0 = s.miss0 := rfl
@[simp] theorem State.drive_miss1 (e : BusEvent) : (s.drive e).miss1 = s.miss1 := rfl
@[simp] theorem State.drive_cmds (e : BusEvent) : (s.drive e).cmds = s.cmds := rfl
@[simp] theorem State.drive_nopParity (e : BusEvent) : (s.drive e).nopParity = s.nopParity := rfl
@[simp] theorem State.drive_mchkPending (e : BusEvent) : (s.drive e).mchkPending = s.mchkPending := rfl
@[simp] theorem State.drive_afterMb (e : BusEvent) : (s.drive e).afterMb = s.afterMb := rfl
@[simp] theorem State.drive_owed (e : BusEvent) : (s.drive e).owed = s.owed := rfl
@[simp] theorem State.drive_itbPending (e : BusEvent) : (s.drive e).itbPending = s.itbPending := rfl
@[simp] theorem State.drive_istreamLost (e : BusEvent) : (s.drive e).istreamLost = s.istreamLost := rfl
@[simp] theorem State.drive_stalled (e : BusEvent) : (s.drive e).stalled = s.stalled := rfl
@[simp] theorem State.drive_pulse (e : BusEvent) : (s.drive e).pulse = s.pulse := rfl
@[simp] theorem State.drive_mem (e : BusEvent) : (s.drive e).mem = s.mem := rfl
@[simp] theorem State.drive_pins (e : BusEvent) : (s.drive e).pins = s.pins := rfl
@[simp] theorem State.drive_inputs (e : BusEvent) : (s.drive e).inputs = s.inputs := rfl
@[simp] theorem State.drive_answers (e : BusEvent) : (s.drive e).answers = s.answers := rfl
@[simp] theorem State.drive_freeCount (e : BusEvent) : (s.drive e).freeCount = s.freeCount := rfl
@[simp] theorem State.drive_tally (e : BusEvent) : (s.drive e).tally = s.tally := rfl
@[simp] theorem State.drive_ended (e : BusEvent) : (s.drive e).ended = s.ended := rfl

/-! ### dropLock -/

@[simp] theorem State.dropLock_ints : (s.dropLock).ints = s.ints := rfl
@[simp] theorem State.dropLock_shadow : (s.dropLock).shadow = s.shadow := rfl
@[simp] theorem State.dropLock_fregs : (s.dropLock).fregs = s.fregs := rfl
@[simp] theorem State.dropLock_palTemps : (s.dropLock).palTemps = s.palTemps := rfl
@[simp] theorem State.dropLock_pc : (s.dropLock).pc = s.pc := rfl
@[simp] theorem State.dropLock_palmode : (s.dropLock).palmode = s.palmode := rfl
@[simp] theorem State.dropLock_fpcr : (s.dropLock).fpcr = s.fpcr := rfl
@[simp] theorem State.dropLock_lockAddr : (s.dropLock).lockAddr = s.lockAddr := rfl
@[simp] theorem State.dropLock_intrFlag : (s.dropLock).intrFlag = s.intrFlag := rfl
@[simp] theorem State.dropLock_ibox : (s.dropLock).ibox = s.ibox := rfl
@[simp] theorem State.dropLock_mbox : (s.dropLock).mbox = s.mbox := rfl
@[simp] theorem State.dropLock_cbox : (s.dropLock).cbox = s.cbox := rfl
@[simp] theorem State.dropLock_itb : (s.dropLock).itb = s.itb := rfl
@[simp] theorem State.dropLock_dtb : (s.dropLock).dtb = s.dtb := rfl
@[simp] theorem State.dropLock_icache : (s.dropLock).icache = s.icache := rfl
@[simp] theorem State.dropLock_dcache : (s.dropLock).dcache = s.dcache := rfl
@[simp] theorem State.dropLock_wb : (s.dropLock).wb = s.wb := rfl
@[simp] theorem State.dropLock_wbFence : (s.dropLock).wbFence = s.wbFence := rfl
@[simp] theorem State.dropLock_maf : (s.dropLock).maf = s.maf := rfl
@[simp] theorem State.dropLock_imaf : (s.dropLock).imaf = s.imaf := rfl
@[simp] theorem State.dropLock_mbWaits : (s.dropLock).mbWaits = s.mbWaits := rfl
@[simp] theorem State.dropLock_scache : (s.dropLock).scache = s.scache := rfl
@[simp] theorem State.dropLock_victims : (s.dropLock).victims = s.victims := rfl
@[simp] theorem State.dropLock_bcTags : (s.dropLock).bcTags = s.bcTags := rfl
@[simp] theorem State.dropLock_bcDatas : (s.dropLock).bcDatas = s.bcDatas := rfl
@[simp] theorem State.dropLock_miss0 : (s.dropLock).miss0 = s.miss0 := rfl
@[simp] theorem State.dropLock_miss1 : (s.dropLock).miss1 = s.miss1 := rfl
@[simp] theorem State.dropLock_cmds : (s.dropLock).cmds = s.cmds := rfl
@[simp] theorem State.dropLock_nopParity : (s.dropLock).nopParity = s.nopParity := rfl
@[simp] theorem State.dropLock_mchkPending : (s.dropLock).mchkPending = s.mchkPending := rfl
@[simp] theorem State.dropLock_afterMb : (s.dropLock).afterMb = s.afterMb := rfl
@[simp] theorem State.dropLock_owed : (s.dropLock).owed = s.owed := rfl
@[simp] theorem State.dropLock_itbPending : (s.dropLock).itbPending = s.itbPending := rfl
@[simp] theorem State.dropLock_istreamLost : (s.dropLock).istreamLost = s.istreamLost := rfl
@[simp] theorem State.dropLock_stalled : (s.dropLock).stalled = s.stalled := rfl
@[simp] theorem State.dropLock_pulse : (s.dropLock).pulse = s.pulse := rfl
@[simp] theorem State.dropLock_mem : (s.dropLock).mem = s.mem := rfl
@[simp] theorem State.dropLock_pins : (s.dropLock).pins = s.pins := rfl
@[simp] theorem State.dropLock_inputs : (s.dropLock).inputs = s.inputs := rfl
@[simp] theorem State.dropLock_answers : (s.dropLock).answers = s.answers := rfl
@[simp] theorem State.dropLock_busOut : (s.dropLock).busOut = s.busOut := rfl
@[simp] theorem State.dropLock_freeCount : (s.dropLock).freeCount = s.freeCount := rfl
@[simp] theorem State.dropLock_tally : (s.dropLock).tally = s.tally := rfl
@[simp] theorem State.dropLock_ended : (s.dropLock).ended = s.ended := rfl

/-! ### takeLock -/

@[simp] theorem State.takeLock_ints (a : PAddr) : (s.takeLock a).ints = s.ints := rfl
@[simp] theorem State.takeLock_shadow (a : PAddr) : (s.takeLock a).shadow = s.shadow := rfl
@[simp] theorem State.takeLock_fregs (a : PAddr) : (s.takeLock a).fregs = s.fregs := rfl
@[simp] theorem State.takeLock_palTemps (a : PAddr) : (s.takeLock a).palTemps = s.palTemps := rfl
@[simp] theorem State.takeLock_pc (a : PAddr) : (s.takeLock a).pc = s.pc := rfl
@[simp] theorem State.takeLock_palmode (a : PAddr) : (s.takeLock a).palmode = s.palmode := rfl
@[simp] theorem State.takeLock_fpcr (a : PAddr) : (s.takeLock a).fpcr = s.fpcr := rfl
@[simp] theorem State.takeLock_intrFlag (a : PAddr) : (s.takeLock a).intrFlag = s.intrFlag := rfl
@[simp] theorem State.takeLock_ibox (a : PAddr) : (s.takeLock a).ibox = s.ibox := rfl
@[simp] theorem State.takeLock_mbox (a : PAddr) : (s.takeLock a).mbox = s.mbox := rfl
@[simp] theorem State.takeLock_cbox (a : PAddr) : (s.takeLock a).cbox = s.cbox := rfl
@[simp] theorem State.takeLock_itb (a : PAddr) : (s.takeLock a).itb = s.itb := rfl
@[simp] theorem State.takeLock_dtb (a : PAddr) : (s.takeLock a).dtb = s.dtb := rfl
@[simp] theorem State.takeLock_icache (a : PAddr) : (s.takeLock a).icache = s.icache := rfl
@[simp] theorem State.takeLock_dcache (a : PAddr) : (s.takeLock a).dcache = s.dcache := rfl
@[simp] theorem State.takeLock_wb (a : PAddr) : (s.takeLock a).wb = s.wb := rfl
@[simp] theorem State.takeLock_wbFence (a : PAddr) : (s.takeLock a).wbFence = s.wbFence := rfl
@[simp] theorem State.takeLock_maf (a : PAddr) : (s.takeLock a).maf = s.maf := rfl
@[simp] theorem State.takeLock_imaf (a : PAddr) : (s.takeLock a).imaf = s.imaf := rfl
@[simp] theorem State.takeLock_mbWaits (a : PAddr) : (s.takeLock a).mbWaits = s.mbWaits := rfl
@[simp] theorem State.takeLock_scache (a : PAddr) : (s.takeLock a).scache = s.scache := rfl
@[simp] theorem State.takeLock_victims (a : PAddr) : (s.takeLock a).victims = s.victims := rfl
@[simp] theorem State.takeLock_bcTags (a : PAddr) : (s.takeLock a).bcTags = s.bcTags := rfl
@[simp] theorem State.takeLock_bcDatas (a : PAddr) : (s.takeLock a).bcDatas = s.bcDatas := rfl
@[simp] theorem State.takeLock_miss0 (a : PAddr) : (s.takeLock a).miss0 = s.miss0 := rfl
@[simp] theorem State.takeLock_miss1 (a : PAddr) : (s.takeLock a).miss1 = s.miss1 := rfl
@[simp] theorem State.takeLock_cmds (a : PAddr) : (s.takeLock a).cmds = s.cmds := rfl
@[simp] theorem State.takeLock_nopParity (a : PAddr) : (s.takeLock a).nopParity = s.nopParity := rfl
@[simp] theorem State.takeLock_mchkPending (a : PAddr) : (s.takeLock a).mchkPending = s.mchkPending := rfl
@[simp] theorem State.takeLock_afterMb (a : PAddr) : (s.takeLock a).afterMb = s.afterMb := rfl
@[simp] theorem State.takeLock_owed (a : PAddr) : (s.takeLock a).owed = s.owed := rfl
@[simp] theorem State.takeLock_itbPending (a : PAddr) : (s.takeLock a).itbPending = s.itbPending := rfl
@[simp] theorem State.takeLock_istreamLost (a : PAddr) : (s.takeLock a).istreamLost = s.istreamLost := rfl
@[simp] theorem State.takeLock_stalled (a : PAddr) : (s.takeLock a).stalled = s.stalled := rfl
@[simp] theorem State.takeLock_pulse (a : PAddr) : (s.takeLock a).pulse = s.pulse := rfl
@[simp] theorem State.takeLock_mem (a : PAddr) : (s.takeLock a).mem = s.mem := rfl
@[simp] theorem State.takeLock_pins (a : PAddr) : (s.takeLock a).pins = s.pins := rfl
@[simp] theorem State.takeLock_inputs (a : PAddr) : (s.takeLock a).inputs = s.inputs := rfl
@[simp] theorem State.takeLock_answers (a : PAddr) : (s.takeLock a).answers = s.answers := rfl
@[simp] theorem State.takeLock_busOut (a : PAddr) : (s.takeLock a).busOut = s.busOut := rfl
@[simp] theorem State.takeLock_freeCount (a : PAddr) : (s.takeLock a).freeCount = s.freeCount := rfl
@[simp] theorem State.takeLock_tally (a : PAddr) : (s.takeLock a).tally = s.tally := rfl
@[simp] theorem State.takeLock_ended (a : PAddr) : (s.takeLock a).ended = s.ended := rfl

/-! ### dcMap -/

@[simp] theorem State.dcMap_ints (f : List DcLine → List DcLine) : (s.dcMap f).ints = s.ints := rfl
@[simp] theorem State.dcMap_shadow (f : List DcLine → List DcLine) : (s.dcMap f).shadow = s.shadow := rfl
@[simp] theorem State.dcMap_fregs (f : List DcLine → List DcLine) : (s.dcMap f).fregs = s.fregs := rfl
@[simp] theorem State.dcMap_palTemps (f : List DcLine → List DcLine) : (s.dcMap f).palTemps = s.palTemps := rfl
@[simp] theorem State.dcMap_pc (f : List DcLine → List DcLine) : (s.dcMap f).pc = s.pc := rfl
@[simp] theorem State.dcMap_palmode (f : List DcLine → List DcLine) : (s.dcMap f).palmode = s.palmode := rfl
@[simp] theorem State.dcMap_fpcr (f : List DcLine → List DcLine) : (s.dcMap f).fpcr = s.fpcr := rfl
@[simp] theorem State.dcMap_lockFlag (f : List DcLine → List DcLine) : (s.dcMap f).lockFlag = s.lockFlag := rfl
@[simp] theorem State.dcMap_lockAddr (f : List DcLine → List DcLine) : (s.dcMap f).lockAddr = s.lockAddr := rfl
@[simp] theorem State.dcMap_intrFlag (f : List DcLine → List DcLine) : (s.dcMap f).intrFlag = s.intrFlag := rfl
@[simp] theorem State.dcMap_ibox (f : List DcLine → List DcLine) : (s.dcMap f).ibox = s.ibox := rfl
@[simp] theorem State.dcMap_mbox (f : List DcLine → List DcLine) : (s.dcMap f).mbox = s.mbox := rfl
@[simp] theorem State.dcMap_cbox (f : List DcLine → List DcLine) : (s.dcMap f).cbox = s.cbox := rfl
@[simp] theorem State.dcMap_itb (f : List DcLine → List DcLine) : (s.dcMap f).itb = s.itb := rfl
@[simp] theorem State.dcMap_dtb (f : List DcLine → List DcLine) : (s.dcMap f).dtb = s.dtb := rfl
@[simp] theorem State.dcMap_icache (f : List DcLine → List DcLine) : (s.dcMap f).icache = s.icache := rfl
@[simp] theorem State.dcMap_wb (f : List DcLine → List DcLine) : (s.dcMap f).wb = s.wb := rfl
@[simp] theorem State.dcMap_wbFence (f : List DcLine → List DcLine) : (s.dcMap f).wbFence = s.wbFence := rfl
@[simp] theorem State.dcMap_maf (f : List DcLine → List DcLine) : (s.dcMap f).maf = s.maf := rfl
@[simp] theorem State.dcMap_imaf (f : List DcLine → List DcLine) : (s.dcMap f).imaf = s.imaf := rfl
@[simp] theorem State.dcMap_mbWaits (f : List DcLine → List DcLine) : (s.dcMap f).mbWaits = s.mbWaits := rfl
@[simp] theorem State.dcMap_scache (f : List DcLine → List DcLine) : (s.dcMap f).scache = s.scache := rfl
@[simp] theorem State.dcMap_victims (f : List DcLine → List DcLine) : (s.dcMap f).victims = s.victims := rfl
@[simp] theorem State.dcMap_bcTags (f : List DcLine → List DcLine) : (s.dcMap f).bcTags = s.bcTags := rfl
@[simp] theorem State.dcMap_bcDatas (f : List DcLine → List DcLine) : (s.dcMap f).bcDatas = s.bcDatas := rfl
@[simp] theorem State.dcMap_miss0 (f : List DcLine → List DcLine) : (s.dcMap f).miss0 = s.miss0 := rfl
@[simp] theorem State.dcMap_miss1 (f : List DcLine → List DcLine) : (s.dcMap f).miss1 = s.miss1 := rfl
@[simp] theorem State.dcMap_cmds (f : List DcLine → List DcLine) : (s.dcMap f).cmds = s.cmds := rfl
@[simp] theorem State.dcMap_nopParity (f : List DcLine → List DcLine) : (s.dcMap f).nopParity = s.nopParity := rfl
@[simp] theorem State.dcMap_mchkPending (f : List DcLine → List DcLine) : (s.dcMap f).mchkPending = s.mchkPending := rfl
@[simp] theorem State.dcMap_afterMb (f : List DcLine → List DcLine) : (s.dcMap f).afterMb = s.afterMb := rfl
@[simp] theorem State.dcMap_owed (f : List DcLine → List DcLine) : (s.dcMap f).owed = s.owed := rfl
@[simp] theorem State.dcMap_itbPending (f : List DcLine → List DcLine) : (s.dcMap f).itbPending = s.itbPending := rfl
@[simp] theorem State.dcMap_istreamLost (f : List DcLine → List DcLine) : (s.dcMap f).istreamLost = s.istreamLost := rfl
@[simp] theorem State.dcMap_stalled (f : List DcLine → List DcLine) : (s.dcMap f).stalled = s.stalled := rfl
@[simp] theorem State.dcMap_pulse (f : List DcLine → List DcLine) : (s.dcMap f).pulse = s.pulse := rfl
@[simp] theorem State.dcMap_mem (f : List DcLine → List DcLine) : (s.dcMap f).mem = s.mem := rfl
@[simp] theorem State.dcMap_pins (f : List DcLine → List DcLine) : (s.dcMap f).pins = s.pins := rfl
@[simp] theorem State.dcMap_inputs (f : List DcLine → List DcLine) : (s.dcMap f).inputs = s.inputs := rfl
@[simp] theorem State.dcMap_answers (f : List DcLine → List DcLine) : (s.dcMap f).answers = s.answers := rfl
@[simp] theorem State.dcMap_busOut (f : List DcLine → List DcLine) : (s.dcMap f).busOut = s.busOut := rfl
@[simp] theorem State.dcMap_freeCount (f : List DcLine → List DcLine) : (s.dcMap f).freeCount = s.freeCount := rfl
@[simp] theorem State.dcMap_tally (f : List DcLine → List DcLine) : (s.dcMap f).tally = s.tally := rfl
@[simp] theorem State.dcMap_ended (f : List DcLine → List DcLine) : (s.dcMap f).ended = s.ended := rfl

/-! ### dcFill -/

@[simp] theorem State.dcFill_ints (a : PAddr) (d : Hexword) : (s.dcFill a d).ints = s.ints := by
  unfold State.dcFill; split <;> rfl
@[simp] theorem State.dcFill_shadow (a : PAddr) (d : Hexword) : (s.dcFill a d).shadow = s.shadow := by
  unfold State.dcFill; split <;> rfl
@[simp] theorem State.dcFill_fregs (a : PAddr) (d : Hexword) : (s.dcFill a d).fregs = s.fregs := by
  unfold State.dcFill; split <;> rfl
@[simp] theorem State.dcFill_palTemps (a : PAddr) (d : Hexword) : (s.dcFill a d).palTemps = s.palTemps := by
  unfold State.dcFill; split <;> rfl
@[simp] theorem State.dcFill_pc (a : PAddr) (d : Hexword) : (s.dcFill a d).pc = s.pc := by
  unfold State.dcFill; split <;> rfl
@[simp] theorem State.dcFill_palmode (a : PAddr) (d : Hexword) : (s.dcFill a d).palmode = s.palmode := by
  unfold State.dcFill; split <;> rfl
@[simp] theorem State.dcFill_fpcr (a : PAddr) (d : Hexword) : (s.dcFill a d).fpcr = s.fpcr := by
  unfold State.dcFill; split <;> rfl
@[simp] theorem State.dcFill_lockFlag (a : PAddr) (d : Hexword) : (s.dcFill a d).lockFlag = s.lockFlag := by
  unfold State.dcFill; split <;> rfl
@[simp] theorem State.dcFill_lockAddr (a : PAddr) (d : Hexword) : (s.dcFill a d).lockAddr = s.lockAddr := by
  unfold State.dcFill; split <;> rfl
@[simp] theorem State.dcFill_intrFlag (a : PAddr) (d : Hexword) : (s.dcFill a d).intrFlag = s.intrFlag := by
  unfold State.dcFill; split <;> rfl
@[simp] theorem State.dcFill_ibox (a : PAddr) (d : Hexword) : (s.dcFill a d).ibox = s.ibox := by
  unfold State.dcFill; split <;> rfl
@[simp] theorem State.dcFill_mbox (a : PAddr) (d : Hexword) : (s.dcFill a d).mbox = s.mbox := by
  unfold State.dcFill; split <;> rfl
@[simp] theorem State.dcFill_cbox (a : PAddr) (d : Hexword) : (s.dcFill a d).cbox = s.cbox := by
  unfold State.dcFill; split <;> rfl
@[simp] theorem State.dcFill_itb (a : PAddr) (d : Hexword) : (s.dcFill a d).itb = s.itb := by
  unfold State.dcFill; split <;> rfl
@[simp] theorem State.dcFill_dtb (a : PAddr) (d : Hexword) : (s.dcFill a d).dtb = s.dtb := by
  unfold State.dcFill; split <;> rfl
@[simp] theorem State.dcFill_icache (a : PAddr) (d : Hexword) : (s.dcFill a d).icache = s.icache := by
  unfold State.dcFill; split <;> rfl
@[simp] theorem State.dcFill_wb (a : PAddr) (d : Hexword) : (s.dcFill a d).wb = s.wb := by
  unfold State.dcFill; split <;> rfl
@[simp] theorem State.dcFill_wbFence (a : PAddr) (d : Hexword) : (s.dcFill a d).wbFence = s.wbFence := by
  unfold State.dcFill; split <;> rfl
@[simp] theorem State.dcFill_maf (a : PAddr) (d : Hexword) : (s.dcFill a d).maf = s.maf := by
  unfold State.dcFill; split <;> rfl
@[simp] theorem State.dcFill_imaf (a : PAddr) (d : Hexword) : (s.dcFill a d).imaf = s.imaf := by
  unfold State.dcFill; split <;> rfl
@[simp] theorem State.dcFill_mbWaits (a : PAddr) (d : Hexword) : (s.dcFill a d).mbWaits = s.mbWaits := by
  unfold State.dcFill; split <;> rfl
@[simp] theorem State.dcFill_scache (a : PAddr) (d : Hexword) : (s.dcFill a d).scache = s.scache := by
  unfold State.dcFill; split <;> rfl
@[simp] theorem State.dcFill_victims (a : PAddr) (d : Hexword) : (s.dcFill a d).victims = s.victims := by
  unfold State.dcFill; split <;> rfl
@[simp] theorem State.dcFill_bcTags (a : PAddr) (d : Hexword) : (s.dcFill a d).bcTags = s.bcTags := by
  unfold State.dcFill; split <;> rfl
@[simp] theorem State.dcFill_bcDatas (a : PAddr) (d : Hexword) : (s.dcFill a d).bcDatas = s.bcDatas := by
  unfold State.dcFill; split <;> rfl
@[simp] theorem State.dcFill_miss0 (a : PAddr) (d : Hexword) : (s.dcFill a d).miss0 = s.miss0 := by
  unfold State.dcFill; split <;> rfl
@[simp] theorem State.dcFill_miss1 (a : PAddr) (d : Hexword) : (s.dcFill a d).miss1 = s.miss1 := by
  unfold State.dcFill; split <;> rfl
@[simp] theorem State.dcFill_cmds (a : PAddr) (d : Hexword) : (s.dcFill a d).cmds = s.cmds := by
  unfold State.dcFill; split <;> rfl
@[simp] theorem State.dcFill_nopParity (a : PAddr) (d : Hexword) : (s.dcFill a d).nopParity = s.nopParity := by
  unfold State.dcFill; split <;> rfl
@[simp] theorem State.dcFill_mchkPending (a : PAddr) (d : Hexword) : (s.dcFill a d).mchkPending = s.mchkPending := by
  unfold State.dcFill; split <;> rfl
@[simp] theorem State.dcFill_afterMb (a : PAddr) (d : Hexword) : (s.dcFill a d).afterMb = s.afterMb := by
  unfold State.dcFill; split <;> rfl
@[simp] theorem State.dcFill_owed (a : PAddr) (d : Hexword) : (s.dcFill a d).owed = s.owed := by
  unfold State.dcFill; split <;> rfl
@[simp] theorem State.dcFill_itbPending (a : PAddr) (d : Hexword) : (s.dcFill a d).itbPending = s.itbPending := by
  unfold State.dcFill; split <;> rfl
@[simp] theorem State.dcFill_istreamLost (a : PAddr) (d : Hexword) : (s.dcFill a d).istreamLost = s.istreamLost := by
  unfold State.dcFill; split <;> rfl
@[simp] theorem State.dcFill_stalled (a : PAddr) (d : Hexword) : (s.dcFill a d).stalled = s.stalled := by
  unfold State.dcFill; split <;> rfl
@[simp] theorem State.dcFill_pulse (a : PAddr) (d : Hexword) : (s.dcFill a d).pulse = s.pulse := by
  unfold State.dcFill; split <;> rfl
@[simp] theorem State.dcFill_mem (a : PAddr) (d : Hexword) : (s.dcFill a d).mem = s.mem := by
  unfold State.dcFill; split <;> rfl
@[simp] theorem State.dcFill_pins (a : PAddr) (d : Hexword) : (s.dcFill a d).pins = s.pins := by
  unfold State.dcFill; split <;> rfl
@[simp] theorem State.dcFill_inputs (a : PAddr) (d : Hexword) : (s.dcFill a d).inputs = s.inputs := by
  unfold State.dcFill; split <;> rfl
@[simp] theorem State.dcFill_answers (a : PAddr) (d : Hexword) : (s.dcFill a d).answers = s.answers := by
  unfold State.dcFill; split <;> rfl
@[simp] theorem State.dcFill_busOut (a : PAddr) (d : Hexword) : (s.dcFill a d).busOut = s.busOut := by
  unfold State.dcFill; split <;> rfl
@[simp] theorem State.dcFill_freeCount (a : PAddr) (d : Hexword) : (s.dcFill a d).freeCount = s.freeCount := by
  unfold State.dcFill; split <;> rfl
@[simp] theorem State.dcFill_tally (a : PAddr) (d : Hexword) : (s.dcFill a d).tally = s.tally := by
  unfold State.dcFill; split <;> rfl
@[simp] theorem State.dcFill_ended (a : PAddr) (d : Hexword) : (s.dcFill a d).ended = s.ended := by
  unfold State.dcFill; split <;> rfl

/-! ### dcStore -/

@[simp] theorem State.dcStore_ints (i q : Bool) (a : PAddr) (v : Word) : (s.dcStore i q a v).ints = s.ints := by
  unfold State.dcStore; split <;> rfl
@[simp] theorem State.dcStore_shadow (i q : Bool) (a : PAddr) (v : Word) : (s.dcStore i q a v).shadow = s.shadow := by
  unfold State.dcStore; split <;> rfl
@[simp] theorem State.dcStore_fregs (i q : Bool) (a : PAddr) (v : Word) : (s.dcStore i q a v).fregs = s.fregs := by
  unfold State.dcStore; split <;> rfl
@[simp] theorem State.dcStore_palTemps (i q : Bool) (a : PAddr) (v : Word) : (s.dcStore i q a v).palTemps = s.palTemps := by
  unfold State.dcStore; split <;> rfl
@[simp] theorem State.dcStore_pc (i q : Bool) (a : PAddr) (v : Word) : (s.dcStore i q a v).pc = s.pc := by
  unfold State.dcStore; split <;> rfl
@[simp] theorem State.dcStore_palmode (i q : Bool) (a : PAddr) (v : Word) : (s.dcStore i q a v).palmode = s.palmode := by
  unfold State.dcStore; split <;> rfl
@[simp] theorem State.dcStore_fpcr (i q : Bool) (a : PAddr) (v : Word) : (s.dcStore i q a v).fpcr = s.fpcr := by
  unfold State.dcStore; split <;> rfl
@[simp] theorem State.dcStore_lockFlag (i q : Bool) (a : PAddr) (v : Word) : (s.dcStore i q a v).lockFlag = s.lockFlag := by
  unfold State.dcStore; split <;> rfl
@[simp] theorem State.dcStore_lockAddr (i q : Bool) (a : PAddr) (v : Word) : (s.dcStore i q a v).lockAddr = s.lockAddr := by
  unfold State.dcStore; split <;> rfl
@[simp] theorem State.dcStore_intrFlag (i q : Bool) (a : PAddr) (v : Word) : (s.dcStore i q a v).intrFlag = s.intrFlag := by
  unfold State.dcStore; split <;> rfl
@[simp] theorem State.dcStore_ibox (i q : Bool) (a : PAddr) (v : Word) : (s.dcStore i q a v).ibox = s.ibox := by
  unfold State.dcStore; split <;> rfl
@[simp] theorem State.dcStore_mbox (i q : Bool) (a : PAddr) (v : Word) : (s.dcStore i q a v).mbox = s.mbox := by
  unfold State.dcStore; split <;> rfl
@[simp] theorem State.dcStore_cbox (i q : Bool) (a : PAddr) (v : Word) : (s.dcStore i q a v).cbox = s.cbox := by
  unfold State.dcStore; split <;> rfl
@[simp] theorem State.dcStore_itb (i q : Bool) (a : PAddr) (v : Word) : (s.dcStore i q a v).itb = s.itb := by
  unfold State.dcStore; split <;> rfl
@[simp] theorem State.dcStore_dtb (i q : Bool) (a : PAddr) (v : Word) : (s.dcStore i q a v).dtb = s.dtb := by
  unfold State.dcStore; split <;> rfl
@[simp] theorem State.dcStore_icache (i q : Bool) (a : PAddr) (v : Word) : (s.dcStore i q a v).icache = s.icache := by
  unfold State.dcStore; split <;> rfl
@[simp] theorem State.dcStore_wb (i q : Bool) (a : PAddr) (v : Word) : (s.dcStore i q a v).wb = s.wb := by
  unfold State.dcStore; split <;> rfl
@[simp] theorem State.dcStore_wbFence (i q : Bool) (a : PAddr) (v : Word) : (s.dcStore i q a v).wbFence = s.wbFence := by
  unfold State.dcStore; split <;> rfl
@[simp] theorem State.dcStore_maf (i q : Bool) (a : PAddr) (v : Word) : (s.dcStore i q a v).maf = s.maf := by
  unfold State.dcStore; split <;> rfl
@[simp] theorem State.dcStore_imaf (i q : Bool) (a : PAddr) (v : Word) : (s.dcStore i q a v).imaf = s.imaf := by
  unfold State.dcStore; split <;> rfl
@[simp] theorem State.dcStore_mbWaits (i q : Bool) (a : PAddr) (v : Word) : (s.dcStore i q a v).mbWaits = s.mbWaits := by
  unfold State.dcStore; split <;> rfl
@[simp] theorem State.dcStore_scache (i q : Bool) (a : PAddr) (v : Word) : (s.dcStore i q a v).scache = s.scache := by
  unfold State.dcStore; split <;> rfl
@[simp] theorem State.dcStore_victims (i q : Bool) (a : PAddr) (v : Word) : (s.dcStore i q a v).victims = s.victims := by
  unfold State.dcStore; split <;> rfl
@[simp] theorem State.dcStore_bcTags (i q : Bool) (a : PAddr) (v : Word) : (s.dcStore i q a v).bcTags = s.bcTags := by
  unfold State.dcStore; split <;> rfl
@[simp] theorem State.dcStore_bcDatas (i q : Bool) (a : PAddr) (v : Word) : (s.dcStore i q a v).bcDatas = s.bcDatas := by
  unfold State.dcStore; split <;> rfl
@[simp] theorem State.dcStore_miss0 (i q : Bool) (a : PAddr) (v : Word) : (s.dcStore i q a v).miss0 = s.miss0 := by
  unfold State.dcStore; split <;> rfl
@[simp] theorem State.dcStore_miss1 (i q : Bool) (a : PAddr) (v : Word) : (s.dcStore i q a v).miss1 = s.miss1 := by
  unfold State.dcStore; split <;> rfl
@[simp] theorem State.dcStore_cmds (i q : Bool) (a : PAddr) (v : Word) : (s.dcStore i q a v).cmds = s.cmds := by
  unfold State.dcStore; split <;> rfl
@[simp] theorem State.dcStore_nopParity (i q : Bool) (a : PAddr) (v : Word) : (s.dcStore i q a v).nopParity = s.nopParity := by
  unfold State.dcStore; split <;> rfl
@[simp] theorem State.dcStore_mchkPending (i q : Bool) (a : PAddr) (v : Word) : (s.dcStore i q a v).mchkPending = s.mchkPending := by
  unfold State.dcStore; split <;> rfl
@[simp] theorem State.dcStore_afterMb (i q : Bool) (a : PAddr) (v : Word) : (s.dcStore i q a v).afterMb = s.afterMb := by
  unfold State.dcStore; split <;> rfl
@[simp] theorem State.dcStore_owed (i q : Bool) (a : PAddr) (v : Word) : (s.dcStore i q a v).owed = s.owed := by
  unfold State.dcStore; split <;> rfl
@[simp] theorem State.dcStore_itbPending (i q : Bool) (a : PAddr) (v : Word) : (s.dcStore i q a v).itbPending = s.itbPending := by
  unfold State.dcStore; split <;> rfl
@[simp] theorem State.dcStore_istreamLost (i q : Bool) (a : PAddr) (v : Word) : (s.dcStore i q a v).istreamLost = s.istreamLost := by
  unfold State.dcStore; split <;> rfl
@[simp] theorem State.dcStore_stalled (i q : Bool) (a : PAddr) (v : Word) : (s.dcStore i q a v).stalled = s.stalled := by
  unfold State.dcStore; split <;> rfl
@[simp] theorem State.dcStore_pulse (i q : Bool) (a : PAddr) (v : Word) : (s.dcStore i q a v).pulse = s.pulse := by
  unfold State.dcStore; split <;> rfl
@[simp] theorem State.dcStore_mem (i q : Bool) (a : PAddr) (v : Word) : (s.dcStore i q a v).mem = s.mem := by
  unfold State.dcStore; split <;> rfl
@[simp] theorem State.dcStore_pins (i q : Bool) (a : PAddr) (v : Word) : (s.dcStore i q a v).pins = s.pins := by
  unfold State.dcStore; split <;> rfl
@[simp] theorem State.dcStore_inputs (i q : Bool) (a : PAddr) (v : Word) : (s.dcStore i q a v).inputs = s.inputs := by
  unfold State.dcStore; split <;> rfl
@[simp] theorem State.dcStore_answers (i q : Bool) (a : PAddr) (v : Word) : (s.dcStore i q a v).answers = s.answers := by
  unfold State.dcStore; split <;> rfl
@[simp] theorem State.dcStore_busOut (i q : Bool) (a : PAddr) (v : Word) : (s.dcStore i q a v).busOut = s.busOut := by
  unfold State.dcStore; split <;> rfl
@[simp] theorem State.dcStore_freeCount (i q : Bool) (a : PAddr) (v : Word) : (s.dcStore i q a v).freeCount = s.freeCount := by
  unfold State.dcStore; split <;> rfl
@[simp] theorem State.dcStore_tally (i q : Bool) (a : PAddr) (v : Word) : (s.dcStore i q a v).tally = s.tally := by
  unfold State.dcStore; split <;> rfl
@[simp] theorem State.dcStore_ended (i q : Bool) (a : PAddr) (v : Word) : (s.dcStore i q a v).ended = s.ended := by
  unfold State.dcStore; split <;> rfl

/-! ### dcInvalidate -/

@[simp] theorem State.dcInvalidate_ints (a : PAddr) : (s.dcInvalidate a).ints = s.ints := rfl
@[simp] theorem State.dcInvalidate_shadow (a : PAddr) : (s.dcInvalidate a).shadow = s.shadow := rfl
@[simp] theorem State.dcInvalidate_fregs (a : PAddr) : (s.dcInvalidate a).fregs = s.fregs := rfl
@[simp] theorem State.dcInvalidate_palTemps (a : PAddr) : (s.dcInvalidate a).palTemps = s.palTemps := rfl
@[simp] theorem State.dcInvalidate_pc (a : PAddr) : (s.dcInvalidate a).pc = s.pc := rfl
@[simp] theorem State.dcInvalidate_palmode (a : PAddr) : (s.dcInvalidate a).palmode = s.palmode := rfl
@[simp] theorem State.dcInvalidate_fpcr (a : PAddr) : (s.dcInvalidate a).fpcr = s.fpcr := rfl
@[simp] theorem State.dcInvalidate_lockFlag (a : PAddr) : (s.dcInvalidate a).lockFlag = s.lockFlag := rfl
@[simp] theorem State.dcInvalidate_lockAddr (a : PAddr) : (s.dcInvalidate a).lockAddr = s.lockAddr := rfl
@[simp] theorem State.dcInvalidate_intrFlag (a : PAddr) : (s.dcInvalidate a).intrFlag = s.intrFlag := rfl
@[simp] theorem State.dcInvalidate_ibox (a : PAddr) : (s.dcInvalidate a).ibox = s.ibox := rfl
@[simp] theorem State.dcInvalidate_mbox (a : PAddr) : (s.dcInvalidate a).mbox = s.mbox := rfl
@[simp] theorem State.dcInvalidate_cbox (a : PAddr) : (s.dcInvalidate a).cbox = s.cbox := rfl
@[simp] theorem State.dcInvalidate_itb (a : PAddr) : (s.dcInvalidate a).itb = s.itb := rfl
@[simp] theorem State.dcInvalidate_dtb (a : PAddr) : (s.dcInvalidate a).dtb = s.dtb := rfl
@[simp] theorem State.dcInvalidate_icache (a : PAddr) : (s.dcInvalidate a).icache = s.icache := rfl
@[simp] theorem State.dcInvalidate_wb (a : PAddr) : (s.dcInvalidate a).wb = s.wb := rfl
@[simp] theorem State.dcInvalidate_wbFence (a : PAddr) : (s.dcInvalidate a).wbFence = s.wbFence := rfl
@[simp] theorem State.dcInvalidate_maf (a : PAddr) : (s.dcInvalidate a).maf = s.maf := rfl
@[simp] theorem State.dcInvalidate_imaf (a : PAddr) : (s.dcInvalidate a).imaf = s.imaf := rfl
@[simp] theorem State.dcInvalidate_mbWaits (a : PAddr) : (s.dcInvalidate a).mbWaits = s.mbWaits := rfl
@[simp] theorem State.dcInvalidate_scache (a : PAddr) : (s.dcInvalidate a).scache = s.scache := rfl
@[simp] theorem State.dcInvalidate_victims (a : PAddr) : (s.dcInvalidate a).victims = s.victims := rfl
@[simp] theorem State.dcInvalidate_bcTags (a : PAddr) : (s.dcInvalidate a).bcTags = s.bcTags := rfl
@[simp] theorem State.dcInvalidate_bcDatas (a : PAddr) : (s.dcInvalidate a).bcDatas = s.bcDatas := rfl
@[simp] theorem State.dcInvalidate_miss0 (a : PAddr) : (s.dcInvalidate a).miss0 = s.miss0 := rfl
@[simp] theorem State.dcInvalidate_miss1 (a : PAddr) : (s.dcInvalidate a).miss1 = s.miss1 := rfl
@[simp] theorem State.dcInvalidate_cmds (a : PAddr) : (s.dcInvalidate a).cmds = s.cmds := rfl
@[simp] theorem State.dcInvalidate_nopParity (a : PAddr) : (s.dcInvalidate a).nopParity = s.nopParity := rfl
@[simp] theorem State.dcInvalidate_mchkPending (a : PAddr) : (s.dcInvalidate a).mchkPending = s.mchkPending := rfl
@[simp] theorem State.dcInvalidate_afterMb (a : PAddr) : (s.dcInvalidate a).afterMb = s.afterMb := rfl
@[simp] theorem State.dcInvalidate_owed (a : PAddr) : (s.dcInvalidate a).owed = s.owed := rfl
@[simp] theorem State.dcInvalidate_itbPending (a : PAddr) : (s.dcInvalidate a).itbPending = s.itbPending := rfl
@[simp] theorem State.dcInvalidate_istreamLost (a : PAddr) : (s.dcInvalidate a).istreamLost = s.istreamLost := rfl
@[simp] theorem State.dcInvalidate_stalled (a : PAddr) : (s.dcInvalidate a).stalled = s.stalled := rfl
@[simp] theorem State.dcInvalidate_pulse (a : PAddr) : (s.dcInvalidate a).pulse = s.pulse := rfl
@[simp] theorem State.dcInvalidate_mem (a : PAddr) : (s.dcInvalidate a).mem = s.mem := rfl
@[simp] theorem State.dcInvalidate_pins (a : PAddr) : (s.dcInvalidate a).pins = s.pins := rfl
@[simp] theorem State.dcInvalidate_inputs (a : PAddr) : (s.dcInvalidate a).inputs = s.inputs := rfl
@[simp] theorem State.dcInvalidate_answers (a : PAddr) : (s.dcInvalidate a).answers = s.answers := rfl
@[simp] theorem State.dcInvalidate_busOut (a : PAddr) : (s.dcInvalidate a).busOut = s.busOut := rfl
@[simp] theorem State.dcInvalidate_freeCount (a : PAddr) : (s.dcInvalidate a).freeCount = s.freeCount := rfl
@[simp] theorem State.dcInvalidate_tally (a : PAddr) : (s.dcInvalidate a).tally = s.tally := rfl
@[simp] theorem State.dcInvalidate_ended (a : PAddr) : (s.dcInvalidate a).ended = s.ended := rfl

/-! ### dcFlush -/

@[simp] theorem State.dcFlush_ints : (s.dcFlush).ints = s.ints := rfl
@[simp] theorem State.dcFlush_shadow : (s.dcFlush).shadow = s.shadow := rfl
@[simp] theorem State.dcFlush_fregs : (s.dcFlush).fregs = s.fregs := rfl
@[simp] theorem State.dcFlush_palTemps : (s.dcFlush).palTemps = s.palTemps := rfl
@[simp] theorem State.dcFlush_pc : (s.dcFlush).pc = s.pc := rfl
@[simp] theorem State.dcFlush_palmode : (s.dcFlush).palmode = s.palmode := rfl
@[simp] theorem State.dcFlush_fpcr : (s.dcFlush).fpcr = s.fpcr := rfl
@[simp] theorem State.dcFlush_lockFlag : (s.dcFlush).lockFlag = s.lockFlag := rfl
@[simp] theorem State.dcFlush_lockAddr : (s.dcFlush).lockAddr = s.lockAddr := rfl
@[simp] theorem State.dcFlush_intrFlag : (s.dcFlush).intrFlag = s.intrFlag := rfl
@[simp] theorem State.dcFlush_ibox : (s.dcFlush).ibox = s.ibox := rfl
@[simp] theorem State.dcFlush_mbox : (s.dcFlush).mbox = s.mbox := rfl
@[simp] theorem State.dcFlush_cbox : (s.dcFlush).cbox = s.cbox := rfl
@[simp] theorem State.dcFlush_itb : (s.dcFlush).itb = s.itb := rfl
@[simp] theorem State.dcFlush_dtb : (s.dcFlush).dtb = s.dtb := rfl
@[simp] theorem State.dcFlush_icache : (s.dcFlush).icache = s.icache := rfl
@[simp] theorem State.dcFlush_wb : (s.dcFlush).wb = s.wb := rfl
@[simp] theorem State.dcFlush_wbFence : (s.dcFlush).wbFence = s.wbFence := rfl
@[simp] theorem State.dcFlush_maf : (s.dcFlush).maf = s.maf := rfl
@[simp] theorem State.dcFlush_imaf : (s.dcFlush).imaf = s.imaf := rfl
@[simp] theorem State.dcFlush_mbWaits : (s.dcFlush).mbWaits = s.mbWaits := rfl
@[simp] theorem State.dcFlush_scache : (s.dcFlush).scache = s.scache := rfl
@[simp] theorem State.dcFlush_victims : (s.dcFlush).victims = s.victims := rfl
@[simp] theorem State.dcFlush_bcTags : (s.dcFlush).bcTags = s.bcTags := rfl
@[simp] theorem State.dcFlush_bcDatas : (s.dcFlush).bcDatas = s.bcDatas := rfl
@[simp] theorem State.dcFlush_miss0 : (s.dcFlush).miss0 = s.miss0 := rfl
@[simp] theorem State.dcFlush_miss1 : (s.dcFlush).miss1 = s.miss1 := rfl
@[simp] theorem State.dcFlush_cmds : (s.dcFlush).cmds = s.cmds := rfl
@[simp] theorem State.dcFlush_nopParity : (s.dcFlush).nopParity = s.nopParity := rfl
@[simp] theorem State.dcFlush_mchkPending : (s.dcFlush).mchkPending = s.mchkPending := rfl
@[simp] theorem State.dcFlush_afterMb : (s.dcFlush).afterMb = s.afterMb := rfl
@[simp] theorem State.dcFlush_owed : (s.dcFlush).owed = s.owed := rfl
@[simp] theorem State.dcFlush_itbPending : (s.dcFlush).itbPending = s.itbPending := rfl
@[simp] theorem State.dcFlush_istreamLost : (s.dcFlush).istreamLost = s.istreamLost := rfl
@[simp] theorem State.dcFlush_stalled : (s.dcFlush).stalled = s.stalled := rfl
@[simp] theorem State.dcFlush_pulse : (s.dcFlush).pulse = s.pulse := rfl
@[simp] theorem State.dcFlush_mem : (s.dcFlush).mem = s.mem := rfl
@[simp] theorem State.dcFlush_pins : (s.dcFlush).pins = s.pins := rfl
@[simp] theorem State.dcFlush_inputs : (s.dcFlush).inputs = s.inputs := rfl
@[simp] theorem State.dcFlush_answers : (s.dcFlush).answers = s.answers := rfl
@[simp] theorem State.dcFlush_busOut : (s.dcFlush).busOut = s.busOut := rfl
@[simp] theorem State.dcFlush_freeCount : (s.dcFlush).freeCount = s.freeCount := rfl
@[simp] theorem State.dcFlush_tally : (s.dcFlush).tally = s.tally := rfl
@[simp] theorem State.dcFlush_ended : (s.dcFlush).ended = s.ended := rfl

/-! ### dcError -/

@[simp] theorem State.dcError_ints (b : BitVec 4) (v : Word) (w : Bool) (r : RegNum) (o : BitVec 6) : (s.dcError b v w r o).ints = s.ints := by
  simp [State.dcError]
@[simp] theorem State.dcError_shadow (b : BitVec 4) (v : Word) (w : Bool) (r : RegNum) (o : BitVec 6) : (s.dcError b v w r o).shadow = s.shadow := by
  simp [State.dcError]
@[simp] theorem State.dcError_fregs (b : BitVec 4) (v : Word) (w : Bool) (r : RegNum) (o : BitVec 6) : (s.dcError b v w r o).fregs = s.fregs := by
  simp [State.dcError]
@[simp] theorem State.dcError_palTemps (b : BitVec 4) (v : Word) (w : Bool) (r : RegNum) (o : BitVec 6) : (s.dcError b v w r o).palTemps = s.palTemps := by
  simp [State.dcError]
@[simp] theorem State.dcError_pc (b : BitVec 4) (v : Word) (w : Bool) (r : RegNum) (o : BitVec 6) : (s.dcError b v w r o).pc = s.pc := by
  simp [State.dcError]
@[simp] theorem State.dcError_palmode (b : BitVec 4) (v : Word) (w : Bool) (r : RegNum) (o : BitVec 6) : (s.dcError b v w r o).palmode = s.palmode := by
  simp [State.dcError]
@[simp] theorem State.dcError_fpcr (b : BitVec 4) (v : Word) (w : Bool) (r : RegNum) (o : BitVec 6) : (s.dcError b v w r o).fpcr = s.fpcr := by
  simp [State.dcError]
@[simp] theorem State.dcError_lockFlag (b : BitVec 4) (v : Word) (w : Bool) (r : RegNum) (o : BitVec 6) : (s.dcError b v w r o).lockFlag = s.lockFlag := by
  simp [State.dcError]
@[simp] theorem State.dcError_lockAddr (b : BitVec 4) (v : Word) (w : Bool) (r : RegNum) (o : BitVec 6) : (s.dcError b v w r o).lockAddr = s.lockAddr := by
  simp [State.dcError]
@[simp] theorem State.dcError_intrFlag (b : BitVec 4) (v : Word) (w : Bool) (r : RegNum) (o : BitVec 6) : (s.dcError b v w r o).intrFlag = s.intrFlag := by
  simp [State.dcError]
@[simp] theorem State.dcError_ibox (b : BitVec 4) (v : Word) (w : Bool) (r : RegNum) (o : BitVec 6) : (s.dcError b v w r o).ibox = s.ibox := by
  simp [State.dcError]
@[simp] theorem State.dcError_cbox (b : BitVec 4) (v : Word) (w : Bool) (r : RegNum) (o : BitVec 6) : (s.dcError b v w r o).cbox = s.cbox := by
  simp [State.dcError]
@[simp] theorem State.dcError_itb (b : BitVec 4) (v : Word) (w : Bool) (r : RegNum) (o : BitVec 6) : (s.dcError b v w r o).itb = s.itb := by
  simp [State.dcError]
@[simp] theorem State.dcError_dtb (b : BitVec 4) (v : Word) (w : Bool) (r : RegNum) (o : BitVec 6) : (s.dcError b v w r o).dtb = s.dtb := by
  simp [State.dcError]
@[simp] theorem State.dcError_icache (b : BitVec 4) (v : Word) (w : Bool) (r : RegNum) (o : BitVec 6) : (s.dcError b v w r o).icache = s.icache := by
  simp [State.dcError]
@[simp] theorem State.dcError_dcache (b : BitVec 4) (v : Word) (w : Bool) (r : RegNum) (o : BitVec 6) : (s.dcError b v w r o).dcache = s.dcache := by
  simp [State.dcError]
@[simp] theorem State.dcError_wb (b : BitVec 4) (v : Word) (w : Bool) (r : RegNum) (o : BitVec 6) : (s.dcError b v w r o).wb = s.wb := by
  simp [State.dcError]
@[simp] theorem State.dcError_wbFence (b : BitVec 4) (v : Word) (w : Bool) (r : RegNum) (o : BitVec 6) : (s.dcError b v w r o).wbFence = s.wbFence := by
  simp [State.dcError]
@[simp] theorem State.dcError_maf (b : BitVec 4) (v : Word) (w : Bool) (r : RegNum) (o : BitVec 6) : (s.dcError b v w r o).maf = s.maf := by
  simp [State.dcError]
@[simp] theorem State.dcError_imaf (b : BitVec 4) (v : Word) (w : Bool) (r : RegNum) (o : BitVec 6) : (s.dcError b v w r o).imaf = s.imaf := by
  simp [State.dcError]
@[simp] theorem State.dcError_mbWaits (b : BitVec 4) (v : Word) (w : Bool) (r : RegNum) (o : BitVec 6) : (s.dcError b v w r o).mbWaits = s.mbWaits := by
  simp [State.dcError]
@[simp] theorem State.dcError_scache (b : BitVec 4) (v : Word) (w : Bool) (r : RegNum) (o : BitVec 6) : (s.dcError b v w r o).scache = s.scache := by
  simp [State.dcError]
@[simp] theorem State.dcError_victims (b : BitVec 4) (v : Word) (w : Bool) (r : RegNum) (o : BitVec 6) : (s.dcError b v w r o).victims = s.victims := by
  simp [State.dcError]
@[simp] theorem State.dcError_bcTags (b : BitVec 4) (v : Word) (w : Bool) (r : RegNum) (o : BitVec 6) : (s.dcError b v w r o).bcTags = s.bcTags := by
  simp [State.dcError]
@[simp] theorem State.dcError_bcDatas (b : BitVec 4) (v : Word) (w : Bool) (r : RegNum) (o : BitVec 6) : (s.dcError b v w r o).bcDatas = s.bcDatas := by
  simp [State.dcError]
@[simp] theorem State.dcError_miss0 (b : BitVec 4) (v : Word) (w : Bool) (r : RegNum) (o : BitVec 6) : (s.dcError b v w r o).miss0 = s.miss0 := by
  simp [State.dcError]
@[simp] theorem State.dcError_miss1 (b : BitVec 4) (v : Word) (w : Bool) (r : RegNum) (o : BitVec 6) : (s.dcError b v w r o).miss1 = s.miss1 := by
  simp [State.dcError]
@[simp] theorem State.dcError_cmds (b : BitVec 4) (v : Word) (w : Bool) (r : RegNum) (o : BitVec 6) : (s.dcError b v w r o).cmds = s.cmds := by
  simp [State.dcError]
@[simp] theorem State.dcError_nopParity (b : BitVec 4) (v : Word) (w : Bool) (r : RegNum) (o : BitVec 6) : (s.dcError b v w r o).nopParity = s.nopParity := by
  simp [State.dcError]
@[simp] theorem State.dcError_afterMb (b : BitVec 4) (v : Word) (w : Bool) (r : RegNum) (o : BitVec 6) : (s.dcError b v w r o).afterMb = s.afterMb := by
  simp [State.dcError]
@[simp] theorem State.dcError_owed (b : BitVec 4) (v : Word) (w : Bool) (r : RegNum) (o : BitVec 6) : (s.dcError b v w r o).owed = s.owed := by
  simp [State.dcError]
@[simp] theorem State.dcError_itbPending (b : BitVec 4) (v : Word) (w : Bool) (r : RegNum) (o : BitVec 6) : (s.dcError b v w r o).itbPending = s.itbPending := by
  simp [State.dcError]
@[simp] theorem State.dcError_istreamLost (b : BitVec 4) (v : Word) (w : Bool) (r : RegNum) (o : BitVec 6) : (s.dcError b v w r o).istreamLost = s.istreamLost := by
  simp [State.dcError]
@[simp] theorem State.dcError_stalled (b : BitVec 4) (v : Word) (w : Bool) (r : RegNum) (o : BitVec 6) : (s.dcError b v w r o).stalled = s.stalled := by
  simp [State.dcError]
@[simp] theorem State.dcError_pulse (b : BitVec 4) (v : Word) (w : Bool) (r : RegNum) (o : BitVec 6) : (s.dcError b v w r o).pulse = s.pulse := by
  simp [State.dcError]
@[simp] theorem State.dcError_mem (b : BitVec 4) (v : Word) (w : Bool) (r : RegNum) (o : BitVec 6) : (s.dcError b v w r o).mem = s.mem := by
  simp [State.dcError]
@[simp] theorem State.dcError_pins (b : BitVec 4) (v : Word) (w : Bool) (r : RegNum) (o : BitVec 6) : (s.dcError b v w r o).pins = s.pins := by
  simp [State.dcError]
@[simp] theorem State.dcError_inputs (b : BitVec 4) (v : Word) (w : Bool) (r : RegNum) (o : BitVec 6) : (s.dcError b v w r o).inputs = s.inputs := by
  simp [State.dcError]
@[simp] theorem State.dcError_answers (b : BitVec 4) (v : Word) (w : Bool) (r : RegNum) (o : BitVec 6) : (s.dcError b v w r o).answers = s.answers := by
  simp [State.dcError]
@[simp] theorem State.dcError_busOut (b : BitVec 4) (v : Word) (w : Bool) (r : RegNum) (o : BitVec 6) : (s.dcError b v w r o).busOut = s.busOut := by
  simp [State.dcError]
@[simp] theorem State.dcError_freeCount (b : BitVec 4) (v : Word) (w : Bool) (r : RegNum) (o : BitVec 6) : (s.dcError b v w r o).freeCount = s.freeCount := by
  simp [State.dcError]
@[simp] theorem State.dcError_tally (b : BitVec 4) (v : Word) (w : Bool) (r : RegNum) (o : BitVec 6) : (s.dcError b v w r o).tally = s.tally := by
  simp [State.dcError]
@[simp] theorem State.dcError_ended (b : BitVec 4) (v : Word) (w : Bool) (r : RegNum) (o : BitVec 6) : (s.dcError b v w r o).ended = s.ended := by
  simp [State.dcError]

/-! ### wbAllocate -/

@[simp] theorem State.wbAllocate_ints (b : Block) (k : WbKind) (m : BitVec 8) (d : Hexword) : (s.wbAllocate b k m d).ints = s.ints := rfl
@[simp] theorem State.wbAllocate_shadow (b : Block) (k : WbKind) (m : BitVec 8) (d : Hexword) : (s.wbAllocate b k m d).shadow = s.shadow := rfl
@[simp] theorem State.wbAllocate_fregs (b : Block) (k : WbKind) (m : BitVec 8) (d : Hexword) : (s.wbAllocate b k m d).fregs = s.fregs := rfl
@[simp] theorem State.wbAllocate_palTemps (b : Block) (k : WbKind) (m : BitVec 8) (d : Hexword) : (s.wbAllocate b k m d).palTemps = s.palTemps := rfl
@[simp] theorem State.wbAllocate_pc (b : Block) (k : WbKind) (m : BitVec 8) (d : Hexword) : (s.wbAllocate b k m d).pc = s.pc := rfl
@[simp] theorem State.wbAllocate_palmode (b : Block) (k : WbKind) (m : BitVec 8) (d : Hexword) : (s.wbAllocate b k m d).palmode = s.palmode := rfl
@[simp] theorem State.wbAllocate_fpcr (b : Block) (k : WbKind) (m : BitVec 8) (d : Hexword) : (s.wbAllocate b k m d).fpcr = s.fpcr := rfl
@[simp] theorem State.wbAllocate_lockFlag (b : Block) (k : WbKind) (m : BitVec 8) (d : Hexword) : (s.wbAllocate b k m d).lockFlag = s.lockFlag := rfl
@[simp] theorem State.wbAllocate_lockAddr (b : Block) (k : WbKind) (m : BitVec 8) (d : Hexword) : (s.wbAllocate b k m d).lockAddr = s.lockAddr := rfl
@[simp] theorem State.wbAllocate_intrFlag (b : Block) (k : WbKind) (m : BitVec 8) (d : Hexword) : (s.wbAllocate b k m d).intrFlag = s.intrFlag := rfl
@[simp] theorem State.wbAllocate_ibox (b : Block) (k : WbKind) (m : BitVec 8) (d : Hexword) : (s.wbAllocate b k m d).ibox = s.ibox := rfl
@[simp] theorem State.wbAllocate_mbox (b : Block) (k : WbKind) (m : BitVec 8) (d : Hexword) : (s.wbAllocate b k m d).mbox = s.mbox := rfl
@[simp] theorem State.wbAllocate_cbox (b : Block) (k : WbKind) (m : BitVec 8) (d : Hexword) : (s.wbAllocate b k m d).cbox = s.cbox := rfl
@[simp] theorem State.wbAllocate_itb (b : Block) (k : WbKind) (m : BitVec 8) (d : Hexword) : (s.wbAllocate b k m d).itb = s.itb := rfl
@[simp] theorem State.wbAllocate_dtb (b : Block) (k : WbKind) (m : BitVec 8) (d : Hexword) : (s.wbAllocate b k m d).dtb = s.dtb := rfl
@[simp] theorem State.wbAllocate_icache (b : Block) (k : WbKind) (m : BitVec 8) (d : Hexword) : (s.wbAllocate b k m d).icache = s.icache := rfl
@[simp] theorem State.wbAllocate_dcache (b : Block) (k : WbKind) (m : BitVec 8) (d : Hexword) : (s.wbAllocate b k m d).dcache = s.dcache := rfl
@[simp] theorem State.wbAllocate_maf (b : Block) (k : WbKind) (m : BitVec 8) (d : Hexword) : (s.wbAllocate b k m d).maf = s.maf := rfl
@[simp] theorem State.wbAllocate_imaf (b : Block) (k : WbKind) (m : BitVec 8) (d : Hexword) : (s.wbAllocate b k m d).imaf = s.imaf := rfl
@[simp] theorem State.wbAllocate_mbWaits (b : Block) (k : WbKind) (m : BitVec 8) (d : Hexword) : (s.wbAllocate b k m d).mbWaits = s.mbWaits := rfl
@[simp] theorem State.wbAllocate_scache (b : Block) (k : WbKind) (m : BitVec 8) (d : Hexword) : (s.wbAllocate b k m d).scache = s.scache := rfl
@[simp] theorem State.wbAllocate_victims (b : Block) (k : WbKind) (m : BitVec 8) (d : Hexword) : (s.wbAllocate b k m d).victims = s.victims := rfl
@[simp] theorem State.wbAllocate_bcTags (b : Block) (k : WbKind) (m : BitVec 8) (d : Hexword) : (s.wbAllocate b k m d).bcTags = s.bcTags := rfl
@[simp] theorem State.wbAllocate_bcDatas (b : Block) (k : WbKind) (m : BitVec 8) (d : Hexword) : (s.wbAllocate b k m d).bcDatas = s.bcDatas := rfl
@[simp] theorem State.wbAllocate_miss0 (b : Block) (k : WbKind) (m : BitVec 8) (d : Hexword) : (s.wbAllocate b k m d).miss0 = s.miss0 := rfl
@[simp] theorem State.wbAllocate_miss1 (b : Block) (k : WbKind) (m : BitVec 8) (d : Hexword) : (s.wbAllocate b k m d).miss1 = s.miss1 := rfl
@[simp] theorem State.wbAllocate_cmds (b : Block) (k : WbKind) (m : BitVec 8) (d : Hexword) : (s.wbAllocate b k m d).cmds = s.cmds := rfl
@[simp] theorem State.wbAllocate_nopParity (b : Block) (k : WbKind) (m : BitVec 8) (d : Hexword) : (s.wbAllocate b k m d).nopParity = s.nopParity := rfl
@[simp] theorem State.wbAllocate_mchkPending (b : Block) (k : WbKind) (m : BitVec 8) (d : Hexword) : (s.wbAllocate b k m d).mchkPending = s.mchkPending := rfl
@[simp] theorem State.wbAllocate_afterMb (b : Block) (k : WbKind) (m : BitVec 8) (d : Hexword) : (s.wbAllocate b k m d).afterMb = s.afterMb := rfl
@[simp] theorem State.wbAllocate_owed (b : Block) (k : WbKind) (m : BitVec 8) (d : Hexword) : (s.wbAllocate b k m d).owed = s.owed := rfl
@[simp] theorem State.wbAllocate_itbPending (b : Block) (k : WbKind) (m : BitVec 8) (d : Hexword) : (s.wbAllocate b k m d).itbPending = s.itbPending := rfl
@[simp] theorem State.wbAllocate_istreamLost (b : Block) (k : WbKind) (m : BitVec 8) (d : Hexword) : (s.wbAllocate b k m d).istreamLost = s.istreamLost := rfl
@[simp] theorem State.wbAllocate_stalled (b : Block) (k : WbKind) (m : BitVec 8) (d : Hexword) : (s.wbAllocate b k m d).stalled = s.stalled := rfl
@[simp] theorem State.wbAllocate_pulse (b : Block) (k : WbKind) (m : BitVec 8) (d : Hexword) : (s.wbAllocate b k m d).pulse = s.pulse := rfl
@[simp] theorem State.wbAllocate_mem (b : Block) (k : WbKind) (m : BitVec 8) (d : Hexword) : (s.wbAllocate b k m d).mem = s.mem := rfl
@[simp] theorem State.wbAllocate_pins (b : Block) (k : WbKind) (m : BitVec 8) (d : Hexword) : (s.wbAllocate b k m d).pins = s.pins := rfl
@[simp] theorem State.wbAllocate_inputs (b : Block) (k : WbKind) (m : BitVec 8) (d : Hexword) : (s.wbAllocate b k m d).inputs = s.inputs := rfl
@[simp] theorem State.wbAllocate_answers (b : Block) (k : WbKind) (m : BitVec 8) (d : Hexword) : (s.wbAllocate b k m d).answers = s.answers := rfl
@[simp] theorem State.wbAllocate_busOut (b : Block) (k : WbKind) (m : BitVec 8) (d : Hexword) : (s.wbAllocate b k m d).busOut = s.busOut := rfl
@[simp] theorem State.wbAllocate_freeCount (b : Block) (k : WbKind) (m : BitVec 8) (d : Hexword) : (s.wbAllocate b k m d).freeCount = s.freeCount := rfl
@[simp] theorem State.wbAllocate_tally (b : Block) (k : WbKind) (m : BitVec 8) (d : Hexword) : (s.wbAllocate b k m d).tally = s.tally := rfl
@[simp] theorem State.wbAllocate_ended (b : Block) (k : WbKind) (m : BitVec 8) (d : Hexword) : (s.wbAllocate b k m d).ended = s.ended := rfl

/-! ### wbStore -/

@[simp] theorem State.wbStore_ints (b : Block) (m : BitVec 8) (d : Hexword) : (s.wbStore b m d).ints = s.ints := by
  unfold State.wbStore; split <;> rfl
@[simp] theorem State.wbStore_shadow (b : Block) (m : BitVec 8) (d : Hexword) : (s.wbStore b m d).shadow = s.shadow := by
  unfold State.wbStore; split <;> rfl
@[simp] theorem State.wbStore_fregs (b : Block) (m : BitVec 8) (d : Hexword) : (s.wbStore b m d).fregs = s.fregs := by
  unfold State.wbStore; split <;> rfl
@[simp] theorem State.wbStore_palTemps (b : Block) (m : BitVec 8) (d : Hexword) : (s.wbStore b m d).palTemps = s.palTemps := by
  unfold State.wbStore; split <;> rfl
@[simp] theorem State.wbStore_pc (b : Block) (m : BitVec 8) (d : Hexword) : (s.wbStore b m d).pc = s.pc := by
  unfold State.wbStore; split <;> rfl
@[simp] theorem State.wbStore_palmode (b : Block) (m : BitVec 8) (d : Hexword) : (s.wbStore b m d).palmode = s.palmode := by
  unfold State.wbStore; split <;> rfl
@[simp] theorem State.wbStore_fpcr (b : Block) (m : BitVec 8) (d : Hexword) : (s.wbStore b m d).fpcr = s.fpcr := by
  unfold State.wbStore; split <;> rfl
@[simp] theorem State.wbStore_lockFlag (b : Block) (m : BitVec 8) (d : Hexword) : (s.wbStore b m d).lockFlag = s.lockFlag := by
  unfold State.wbStore; split <;> rfl
@[simp] theorem State.wbStore_lockAddr (b : Block) (m : BitVec 8) (d : Hexword) : (s.wbStore b m d).lockAddr = s.lockAddr := by
  unfold State.wbStore; split <;> rfl
@[simp] theorem State.wbStore_intrFlag (b : Block) (m : BitVec 8) (d : Hexword) : (s.wbStore b m d).intrFlag = s.intrFlag := by
  unfold State.wbStore; split <;> rfl
@[simp] theorem State.wbStore_ibox (b : Block) (m : BitVec 8) (d : Hexword) : (s.wbStore b m d).ibox = s.ibox := by
  unfold State.wbStore; split <;> rfl
@[simp] theorem State.wbStore_mbox (b : Block) (m : BitVec 8) (d : Hexword) : (s.wbStore b m d).mbox = s.mbox := by
  unfold State.wbStore; split <;> rfl
@[simp] theorem State.wbStore_cbox (b : Block) (m : BitVec 8) (d : Hexword) : (s.wbStore b m d).cbox = s.cbox := by
  unfold State.wbStore; split <;> rfl
@[simp] theorem State.wbStore_itb (b : Block) (m : BitVec 8) (d : Hexword) : (s.wbStore b m d).itb = s.itb := by
  unfold State.wbStore; split <;> rfl
@[simp] theorem State.wbStore_dtb (b : Block) (m : BitVec 8) (d : Hexword) : (s.wbStore b m d).dtb = s.dtb := by
  unfold State.wbStore; split <;> rfl
@[simp] theorem State.wbStore_icache (b : Block) (m : BitVec 8) (d : Hexword) : (s.wbStore b m d).icache = s.icache := by
  unfold State.wbStore; split <;> rfl
@[simp] theorem State.wbStore_dcache (b : Block) (m : BitVec 8) (d : Hexword) : (s.wbStore b m d).dcache = s.dcache := by
  unfold State.wbStore; split <;> rfl
@[simp] theorem State.wbStore_maf (b : Block) (m : BitVec 8) (d : Hexword) : (s.wbStore b m d).maf = s.maf := by
  unfold State.wbStore; split <;> rfl
@[simp] theorem State.wbStore_imaf (b : Block) (m : BitVec 8) (d : Hexword) : (s.wbStore b m d).imaf = s.imaf := by
  unfold State.wbStore; split <;> rfl
@[simp] theorem State.wbStore_mbWaits (b : Block) (m : BitVec 8) (d : Hexword) : (s.wbStore b m d).mbWaits = s.mbWaits := by
  unfold State.wbStore; split <;> rfl
@[simp] theorem State.wbStore_scache (b : Block) (m : BitVec 8) (d : Hexword) : (s.wbStore b m d).scache = s.scache := by
  unfold State.wbStore; split <;> rfl
@[simp] theorem State.wbStore_victims (b : Block) (m : BitVec 8) (d : Hexword) : (s.wbStore b m d).victims = s.victims := by
  unfold State.wbStore; split <;> rfl
@[simp] theorem State.wbStore_bcTags (b : Block) (m : BitVec 8) (d : Hexword) : (s.wbStore b m d).bcTags = s.bcTags := by
  unfold State.wbStore; split <;> rfl
@[simp] theorem State.wbStore_bcDatas (b : Block) (m : BitVec 8) (d : Hexword) : (s.wbStore b m d).bcDatas = s.bcDatas := by
  unfold State.wbStore; split <;> rfl
@[simp] theorem State.wbStore_miss0 (b : Block) (m : BitVec 8) (d : Hexword) : (s.wbStore b m d).miss0 = s.miss0 := by
  unfold State.wbStore; split <;> rfl
@[simp] theorem State.wbStore_miss1 (b : Block) (m : BitVec 8) (d : Hexword) : (s.wbStore b m d).miss1 = s.miss1 := by
  unfold State.wbStore; split <;> rfl
@[simp] theorem State.wbStore_cmds (b : Block) (m : BitVec 8) (d : Hexword) : (s.wbStore b m d).cmds = s.cmds := by
  unfold State.wbStore; split <;> rfl
@[simp] theorem State.wbStore_nopParity (b : Block) (m : BitVec 8) (d : Hexword) : (s.wbStore b m d).nopParity = s.nopParity := by
  unfold State.wbStore; split <;> rfl
@[simp] theorem State.wbStore_mchkPending (b : Block) (m : BitVec 8) (d : Hexword) : (s.wbStore b m d).mchkPending = s.mchkPending := by
  unfold State.wbStore; split <;> rfl
@[simp] theorem State.wbStore_afterMb (b : Block) (m : BitVec 8) (d : Hexword) : (s.wbStore b m d).afterMb = s.afterMb := by
  unfold State.wbStore; split <;> rfl
@[simp] theorem State.wbStore_owed (b : Block) (m : BitVec 8) (d : Hexword) : (s.wbStore b m d).owed = s.owed := by
  unfold State.wbStore; split <;> rfl
@[simp] theorem State.wbStore_itbPending (b : Block) (m : BitVec 8) (d : Hexword) : (s.wbStore b m d).itbPending = s.itbPending := by
  unfold State.wbStore; split <;> rfl
@[simp] theorem State.wbStore_istreamLost (b : Block) (m : BitVec 8) (d : Hexword) : (s.wbStore b m d).istreamLost = s.istreamLost := by
  unfold State.wbStore; split <;> rfl
@[simp] theorem State.wbStore_stalled (b : Block) (m : BitVec 8) (d : Hexword) : (s.wbStore b m d).stalled = s.stalled := by
  unfold State.wbStore; split <;> rfl
@[simp] theorem State.wbStore_pulse (b : Block) (m : BitVec 8) (d : Hexword) : (s.wbStore b m d).pulse = s.pulse := by
  unfold State.wbStore; split <;> rfl
@[simp] theorem State.wbStore_mem (b : Block) (m : BitVec 8) (d : Hexword) : (s.wbStore b m d).mem = s.mem := by
  unfold State.wbStore; split <;> rfl
@[simp] theorem State.wbStore_pins (b : Block) (m : BitVec 8) (d : Hexword) : (s.wbStore b m d).pins = s.pins := by
  unfold State.wbStore; split <;> rfl
@[simp] theorem State.wbStore_inputs (b : Block) (m : BitVec 8) (d : Hexword) : (s.wbStore b m d).inputs = s.inputs := by
  unfold State.wbStore; split <;> rfl
@[simp] theorem State.wbStore_answers (b : Block) (m : BitVec 8) (d : Hexword) : (s.wbStore b m d).answers = s.answers := by
  unfold State.wbStore; split <;> rfl
@[simp] theorem State.wbStore_busOut (b : Block) (m : BitVec 8) (d : Hexword) : (s.wbStore b m d).busOut = s.busOut := by
  unfold State.wbStore; split <;> rfl
@[simp] theorem State.wbStore_freeCount (b : Block) (m : BitVec 8) (d : Hexword) : (s.wbStore b m d).freeCount = s.freeCount := by
  unfold State.wbStore; split <;> rfl
@[simp] theorem State.wbStore_tally (b : Block) (m : BitVec 8) (d : Hexword) : (s.wbStore b m d).tally = s.tally := by
  unfold State.wbStore; split <;> rfl
@[simp] theorem State.wbStore_ended (b : Block) (m : BitVec 8) (d : Hexword) : (s.wbStore b m d).ended = s.ended := by
  unfold State.wbStore; split <;> rfl

/-! ### wbBarrier -/

@[simp] theorem State.wbBarrier_ints : (s.wbBarrier).ints = s.ints := rfl
@[simp] theorem State.wbBarrier_shadow : (s.wbBarrier).shadow = s.shadow := rfl
@[simp] theorem State.wbBarrier_fregs : (s.wbBarrier).fregs = s.fregs := rfl
@[simp] theorem State.wbBarrier_palTemps : (s.wbBarrier).palTemps = s.palTemps := rfl
@[simp] theorem State.wbBarrier_pc : (s.wbBarrier).pc = s.pc := rfl
@[simp] theorem State.wbBarrier_palmode : (s.wbBarrier).palmode = s.palmode := rfl
@[simp] theorem State.wbBarrier_fpcr : (s.wbBarrier).fpcr = s.fpcr := rfl
@[simp] theorem State.wbBarrier_lockFlag : (s.wbBarrier).lockFlag = s.lockFlag := rfl
@[simp] theorem State.wbBarrier_lockAddr : (s.wbBarrier).lockAddr = s.lockAddr := rfl
@[simp] theorem State.wbBarrier_intrFlag : (s.wbBarrier).intrFlag = s.intrFlag := rfl
@[simp] theorem State.wbBarrier_ibox : (s.wbBarrier).ibox = s.ibox := rfl
@[simp] theorem State.wbBarrier_mbox : (s.wbBarrier).mbox = s.mbox := rfl
@[simp] theorem State.wbBarrier_cbox : (s.wbBarrier).cbox = s.cbox := rfl
@[simp] theorem State.wbBarrier_itb : (s.wbBarrier).itb = s.itb := rfl
@[simp] theorem State.wbBarrier_dtb : (s.wbBarrier).dtb = s.dtb := rfl
@[simp] theorem State.wbBarrier_icache : (s.wbBarrier).icache = s.icache := rfl
@[simp] theorem State.wbBarrier_dcache : (s.wbBarrier).dcache = s.dcache := rfl
@[simp] theorem State.wbBarrier_maf : (s.wbBarrier).maf = s.maf := rfl
@[simp] theorem State.wbBarrier_imaf : (s.wbBarrier).imaf = s.imaf := rfl
@[simp] theorem State.wbBarrier_mbWaits : (s.wbBarrier).mbWaits = s.mbWaits := rfl
@[simp] theorem State.wbBarrier_scache : (s.wbBarrier).scache = s.scache := rfl
@[simp] theorem State.wbBarrier_victims : (s.wbBarrier).victims = s.victims := rfl
@[simp] theorem State.wbBarrier_bcTags : (s.wbBarrier).bcTags = s.bcTags := rfl
@[simp] theorem State.wbBarrier_bcDatas : (s.wbBarrier).bcDatas = s.bcDatas := rfl
@[simp] theorem State.wbBarrier_miss0 : (s.wbBarrier).miss0 = s.miss0 := rfl
@[simp] theorem State.wbBarrier_miss1 : (s.wbBarrier).miss1 = s.miss1 := rfl
@[simp] theorem State.wbBarrier_cmds : (s.wbBarrier).cmds = s.cmds := rfl
@[simp] theorem State.wbBarrier_nopParity : (s.wbBarrier).nopParity = s.nopParity := rfl
@[simp] theorem State.wbBarrier_mchkPending : (s.wbBarrier).mchkPending = s.mchkPending := rfl
@[simp] theorem State.wbBarrier_afterMb : (s.wbBarrier).afterMb = s.afterMb := rfl
@[simp] theorem State.wbBarrier_owed : (s.wbBarrier).owed = s.owed := rfl
@[simp] theorem State.wbBarrier_itbPending : (s.wbBarrier).itbPending = s.itbPending := rfl
@[simp] theorem State.wbBarrier_istreamLost : (s.wbBarrier).istreamLost = s.istreamLost := rfl
@[simp] theorem State.wbBarrier_stalled : (s.wbBarrier).stalled = s.stalled := rfl
@[simp] theorem State.wbBarrier_pulse : (s.wbBarrier).pulse = s.pulse := rfl
@[simp] theorem State.wbBarrier_mem : (s.wbBarrier).mem = s.mem := rfl
@[simp] theorem State.wbBarrier_pins : (s.wbBarrier).pins = s.pins := rfl
@[simp] theorem State.wbBarrier_inputs : (s.wbBarrier).inputs = s.inputs := rfl
@[simp] theorem State.wbBarrier_answers : (s.wbBarrier).answers = s.answers := rfl
@[simp] theorem State.wbBarrier_busOut : (s.wbBarrier).busOut = s.busOut := rfl
@[simp] theorem State.wbBarrier_freeCount : (s.wbBarrier).freeCount = s.freeCount := rfl
@[simp] theorem State.wbBarrier_tally : (s.wbBarrier).tally = s.tally := rfl
@[simp] theorem State.wbBarrier_ended : (s.wbBarrier).ended = s.ended := rfl

/-! ### mafPush -/

@[simp] theorem State.mafPush_ints (l : MafLoad) (k : Bool) : (s.mafPush l k).ints = s.ints := rfl
@[simp] theorem State.mafPush_shadow (l : MafLoad) (k : Bool) : (s.mafPush l k).shadow = s.shadow := rfl
@[simp] theorem State.mafPush_fregs (l : MafLoad) (k : Bool) : (s.mafPush l k).fregs = s.fregs := rfl
@[simp] theorem State.mafPush_palTemps (l : MafLoad) (k : Bool) : (s.mafPush l k).palTemps = s.palTemps := rfl
@[simp] theorem State.mafPush_pc (l : MafLoad) (k : Bool) : (s.mafPush l k).pc = s.pc := rfl
@[simp] theorem State.mafPush_palmode (l : MafLoad) (k : Bool) : (s.mafPush l k).palmode = s.palmode := rfl
@[simp] theorem State.mafPush_fpcr (l : MafLoad) (k : Bool) : (s.mafPush l k).fpcr = s.fpcr := rfl
@[simp] theorem State.mafPush_lockFlag (l : MafLoad) (k : Bool) : (s.mafPush l k).lockFlag = s.lockFlag := rfl
@[simp] theorem State.mafPush_lockAddr (l : MafLoad) (k : Bool) : (s.mafPush l k).lockAddr = s.lockAddr := rfl
@[simp] theorem State.mafPush_intrFlag (l : MafLoad) (k : Bool) : (s.mafPush l k).intrFlag = s.intrFlag := rfl
@[simp] theorem State.mafPush_ibox (l : MafLoad) (k : Bool) : (s.mafPush l k).ibox = s.ibox := rfl
@[simp] theorem State.mafPush_mbox (l : MafLoad) (k : Bool) : (s.mafPush l k).mbox = s.mbox := rfl
@[simp] theorem State.mafPush_cbox (l : MafLoad) (k : Bool) : (s.mafPush l k).cbox = s.cbox := rfl
@[simp] theorem State.mafPush_itb (l : MafLoad) (k : Bool) : (s.mafPush l k).itb = s.itb := rfl
@[simp] theorem State.mafPush_dtb (l : MafLoad) (k : Bool) : (s.mafPush l k).dtb = s.dtb := rfl
@[simp] theorem State.mafPush_icache (l : MafLoad) (k : Bool) : (s.mafPush l k).icache = s.icache := rfl
@[simp] theorem State.mafPush_dcache (l : MafLoad) (k : Bool) : (s.mafPush l k).dcache = s.dcache := rfl
@[simp] theorem State.mafPush_wb (l : MafLoad) (k : Bool) : (s.mafPush l k).wb = s.wb := rfl
@[simp] theorem State.mafPush_wbFence (l : MafLoad) (k : Bool) : (s.mafPush l k).wbFence = s.wbFence := rfl
@[simp] theorem State.mafPush_imaf (l : MafLoad) (k : Bool) : (s.mafPush l k).imaf = s.imaf := rfl
@[simp] theorem State.mafPush_mbWaits (l : MafLoad) (k : Bool) : (s.mafPush l k).mbWaits = s.mbWaits := rfl
@[simp] theorem State.mafPush_scache (l : MafLoad) (k : Bool) : (s.mafPush l k).scache = s.scache := rfl
@[simp] theorem State.mafPush_victims (l : MafLoad) (k : Bool) : (s.mafPush l k).victims = s.victims := rfl
@[simp] theorem State.mafPush_bcTags (l : MafLoad) (k : Bool) : (s.mafPush l k).bcTags = s.bcTags := rfl
@[simp] theorem State.mafPush_bcDatas (l : MafLoad) (k : Bool) : (s.mafPush l k).bcDatas = s.bcDatas := rfl
@[simp] theorem State.mafPush_miss0 (l : MafLoad) (k : Bool) : (s.mafPush l k).miss0 = s.miss0 := rfl
@[simp] theorem State.mafPush_miss1 (l : MafLoad) (k : Bool) : (s.mafPush l k).miss1 = s.miss1 := rfl
@[simp] theorem State.mafPush_cmds (l : MafLoad) (k : Bool) : (s.mafPush l k).cmds = s.cmds := rfl
@[simp] theorem State.mafPush_nopParity (l : MafLoad) (k : Bool) : (s.mafPush l k).nopParity = s.nopParity := rfl
@[simp] theorem State.mafPush_mchkPending (l : MafLoad) (k : Bool) : (s.mafPush l k).mchkPending = s.mchkPending := rfl
@[simp] theorem State.mafPush_afterMb (l : MafLoad) (k : Bool) : (s.mafPush l k).afterMb = s.afterMb := rfl
@[simp] theorem State.mafPush_owed (l : MafLoad) (k : Bool) : (s.mafPush l k).owed = s.owed := rfl
@[simp] theorem State.mafPush_itbPending (l : MafLoad) (k : Bool) : (s.mafPush l k).itbPending = s.itbPending := rfl
@[simp] theorem State.mafPush_istreamLost (l : MafLoad) (k : Bool) : (s.mafPush l k).istreamLost = s.istreamLost := rfl
@[simp] theorem State.mafPush_stalled (l : MafLoad) (k : Bool) : (s.mafPush l k).stalled = s.stalled := rfl
@[simp] theorem State.mafPush_pulse (l : MafLoad) (k : Bool) : (s.mafPush l k).pulse = s.pulse := rfl
@[simp] theorem State.mafPush_mem (l : MafLoad) (k : Bool) : (s.mafPush l k).mem = s.mem := rfl
@[simp] theorem State.mafPush_pins (l : MafLoad) (k : Bool) : (s.mafPush l k).pins = s.pins := rfl
@[simp] theorem State.mafPush_inputs (l : MafLoad) (k : Bool) : (s.mafPush l k).inputs = s.inputs := rfl
@[simp] theorem State.mafPush_answers (l : MafLoad) (k : Bool) : (s.mafPush l k).answers = s.answers := rfl
@[simp] theorem State.mafPush_busOut (l : MafLoad) (k : Bool) : (s.mafPush l k).busOut = s.busOut := rfl
@[simp] theorem State.mafPush_freeCount (l : MafLoad) (k : Bool) : (s.mafPush l k).freeCount = s.freeCount := rfl
@[simp] theorem State.mafPush_tally (l : MafLoad) (k : Bool) : (s.mafPush l k).tally = s.tally := rfl
@[simp] theorem State.mafPush_ended (l : MafLoad) (k : Bool) : (s.mafPush l k).ended = s.ended := rfl

/-! ### deliver -/

@[simp] theorem State.deliver_palTemps (t : LoadTarget) (v : Word) : (s.deliver t v).palTemps = s.palTemps := by
  unfold State.deliver; split <;> simp
@[simp] theorem State.deliver_pc (t : LoadTarget) (v : Word) : (s.deliver t v).pc = s.pc := by
  unfold State.deliver; split <;> simp
@[simp] theorem State.deliver_palmode (t : LoadTarget) (v : Word) : (s.deliver t v).palmode = s.palmode := by
  unfold State.deliver; split <;> simp
@[simp] theorem State.deliver_fpcr (t : LoadTarget) (v : Word) : (s.deliver t v).fpcr = s.fpcr := by
  unfold State.deliver; split <;> simp
@[simp] theorem State.deliver_lockFlag (t : LoadTarget) (v : Word) : (s.deliver t v).lockFlag = s.lockFlag := by
  unfold State.deliver; split <;> simp
@[simp] theorem State.deliver_lockAddr (t : LoadTarget) (v : Word) : (s.deliver t v).lockAddr = s.lockAddr := by
  unfold State.deliver; split <;> simp
@[simp] theorem State.deliver_intrFlag (t : LoadTarget) (v : Word) : (s.deliver t v).intrFlag = s.intrFlag := by
  unfold State.deliver; split <;> simp
@[simp] theorem State.deliver_ibox (t : LoadTarget) (v : Word) : (s.deliver t v).ibox = s.ibox := by
  unfold State.deliver; split <;> simp
@[simp] theorem State.deliver_mbox (t : LoadTarget) (v : Word) : (s.deliver t v).mbox = s.mbox := by
  unfold State.deliver; split <;> simp
@[simp] theorem State.deliver_cbox (t : LoadTarget) (v : Word) : (s.deliver t v).cbox = s.cbox := by
  unfold State.deliver; split <;> simp
@[simp] theorem State.deliver_itb (t : LoadTarget) (v : Word) : (s.deliver t v).itb = s.itb := by
  unfold State.deliver; split <;> simp
@[simp] theorem State.deliver_dtb (t : LoadTarget) (v : Word) : (s.deliver t v).dtb = s.dtb := by
  unfold State.deliver; split <;> simp
@[simp] theorem State.deliver_icache (t : LoadTarget) (v : Word) : (s.deliver t v).icache = s.icache := by
  unfold State.deliver; split <;> simp
@[simp] theorem State.deliver_dcache (t : LoadTarget) (v : Word) : (s.deliver t v).dcache = s.dcache := by
  unfold State.deliver; split <;> simp
@[simp] theorem State.deliver_wb (t : LoadTarget) (v : Word) : (s.deliver t v).wb = s.wb := by
  unfold State.deliver; split <;> simp
@[simp] theorem State.deliver_wbFence (t : LoadTarget) (v : Word) : (s.deliver t v).wbFence = s.wbFence := by
  unfold State.deliver; split <;> simp
@[simp] theorem State.deliver_maf (t : LoadTarget) (v : Word) : (s.deliver t v).maf = s.maf := by
  unfold State.deliver; split <;> simp
@[simp] theorem State.deliver_imaf (t : LoadTarget) (v : Word) : (s.deliver t v).imaf = s.imaf := by
  unfold State.deliver; split <;> simp
@[simp] theorem State.deliver_mbWaits (t : LoadTarget) (v : Word) : (s.deliver t v).mbWaits = s.mbWaits := by
  unfold State.deliver; split <;> simp
@[simp] theorem State.deliver_scache (t : LoadTarget) (v : Word) : (s.deliver t v).scache = s.scache := by
  unfold State.deliver; split <;> simp
@[simp] theorem State.deliver_victims (t : LoadTarget) (v : Word) : (s.deliver t v).victims = s.victims := by
  unfold State.deliver; split <;> simp
@[simp] theorem State.deliver_bcTags (t : LoadTarget) (v : Word) : (s.deliver t v).bcTags = s.bcTags := by
  unfold State.deliver; split <;> simp
@[simp] theorem State.deliver_bcDatas (t : LoadTarget) (v : Word) : (s.deliver t v).bcDatas = s.bcDatas := by
  unfold State.deliver; split <;> simp
@[simp] theorem State.deliver_miss0 (t : LoadTarget) (v : Word) : (s.deliver t v).miss0 = s.miss0 := by
  unfold State.deliver; split <;> simp
@[simp] theorem State.deliver_miss1 (t : LoadTarget) (v : Word) : (s.deliver t v).miss1 = s.miss1 := by
  unfold State.deliver; split <;> simp
@[simp] theorem State.deliver_cmds (t : LoadTarget) (v : Word) : (s.deliver t v).cmds = s.cmds := by
  unfold State.deliver; split <;> simp
@[simp] theorem State.deliver_nopParity (t : LoadTarget) (v : Word) : (s.deliver t v).nopParity = s.nopParity := by
  unfold State.deliver; split <;> simp
@[simp] theorem State.deliver_mchkPending (t : LoadTarget) (v : Word) : (s.deliver t v).mchkPending = s.mchkPending := by
  unfold State.deliver; split <;> simp
@[simp] theorem State.deliver_afterMb (t : LoadTarget) (v : Word) : (s.deliver t v).afterMb = s.afterMb := by
  unfold State.deliver; split <;> simp
@[simp] theorem State.deliver_owed (t : LoadTarget) (v : Word) : (s.deliver t v).owed = s.owed := by
  unfold State.deliver; split <;> simp
@[simp] theorem State.deliver_itbPending (t : LoadTarget) (v : Word) : (s.deliver t v).itbPending = s.itbPending := by
  unfold State.deliver; split <;> simp
@[simp] theorem State.deliver_istreamLost (t : LoadTarget) (v : Word) : (s.deliver t v).istreamLost = s.istreamLost := by
  unfold State.deliver; split <;> simp
@[simp] theorem State.deliver_stalled (t : LoadTarget) (v : Word) : (s.deliver t v).stalled = s.stalled := by
  unfold State.deliver; split <;> simp
@[simp] theorem State.deliver_pulse (t : LoadTarget) (v : Word) : (s.deliver t v).pulse = s.pulse := by
  unfold State.deliver; split <;> simp
@[simp] theorem State.deliver_mem (t : LoadTarget) (v : Word) : (s.deliver t v).mem = s.mem := by
  unfold State.deliver; split <;> simp
@[simp] theorem State.deliver_pins (t : LoadTarget) (v : Word) : (s.deliver t v).pins = s.pins := by
  unfold State.deliver; split <;> simp
@[simp] theorem State.deliver_inputs (t : LoadTarget) (v : Word) : (s.deliver t v).inputs = s.inputs := by
  unfold State.deliver; split <;> simp
@[simp] theorem State.deliver_answers (t : LoadTarget) (v : Word) : (s.deliver t v).answers = s.answers := by
  unfold State.deliver; split <;> simp
@[simp] theorem State.deliver_busOut (t : LoadTarget) (v : Word) : (s.deliver t v).busOut = s.busOut := by
  unfold State.deliver; split <;> simp
@[simp] theorem State.deliver_freeCount (t : LoadTarget) (v : Word) : (s.deliver t v).freeCount = s.freeCount := by
  unfold State.deliver; split <;> simp
@[simp] theorem State.deliver_tally (t : LoadTarget) (v : Word) : (s.deliver t v).tally = s.tally := by
  unfold State.deliver; split <;> simp
@[simp] theorem State.deliver_ended (t : LoadTarget) (v : Word) : (s.deliver t v).ended = s.ended := by
  unfold State.deliver; split <;> simp

/-! ### deliverAny -/

@[simp] theorem State.deliverAny_palTemps (t : LoadTarget) (q : Bool) : (s.deliverAny t q).palTemps = s.palTemps := by
  simp [State.deliverAny]
@[simp] theorem State.deliverAny_pc (t : LoadTarget) (q : Bool) : (s.deliverAny t q).pc = s.pc := by
  simp [State.deliverAny]
@[simp] theorem State.deliverAny_palmode (t : LoadTarget) (q : Bool) : (s.deliverAny t q).palmode = s.palmode := by
  simp [State.deliverAny]
@[simp] theorem State.deliverAny_fpcr (t : LoadTarget) (q : Bool) : (s.deliverAny t q).fpcr = s.fpcr := by
  simp [State.deliverAny]
@[simp] theorem State.deliverAny_lockFlag (t : LoadTarget) (q : Bool) : (s.deliverAny t q).lockFlag = s.lockFlag := by
  simp [State.deliverAny]
@[simp] theorem State.deliverAny_lockAddr (t : LoadTarget) (q : Bool) : (s.deliverAny t q).lockAddr = s.lockAddr := by
  simp [State.deliverAny]
@[simp] theorem State.deliverAny_intrFlag (t : LoadTarget) (q : Bool) : (s.deliverAny t q).intrFlag = s.intrFlag := by
  simp [State.deliverAny]
@[simp] theorem State.deliverAny_ibox (t : LoadTarget) (q : Bool) : (s.deliverAny t q).ibox = s.ibox := by
  simp [State.deliverAny]
@[simp] theorem State.deliverAny_mbox (t : LoadTarget) (q : Bool) : (s.deliverAny t q).mbox = s.mbox := by
  simp [State.deliverAny]
@[simp] theorem State.deliverAny_cbox (t : LoadTarget) (q : Bool) : (s.deliverAny t q).cbox = s.cbox := by
  simp [State.deliverAny]
@[simp] theorem State.deliverAny_itb (t : LoadTarget) (q : Bool) : (s.deliverAny t q).itb = s.itb := by
  simp [State.deliverAny]
@[simp] theorem State.deliverAny_dtb (t : LoadTarget) (q : Bool) : (s.deliverAny t q).dtb = s.dtb := by
  simp [State.deliverAny]
@[simp] theorem State.deliverAny_icache (t : LoadTarget) (q : Bool) : (s.deliverAny t q).icache = s.icache := by
  simp [State.deliverAny]
@[simp] theorem State.deliverAny_dcache (t : LoadTarget) (q : Bool) : (s.deliverAny t q).dcache = s.dcache := by
  simp [State.deliverAny]
@[simp] theorem State.deliverAny_wb (t : LoadTarget) (q : Bool) : (s.deliverAny t q).wb = s.wb := by
  simp [State.deliverAny]
@[simp] theorem State.deliverAny_wbFence (t : LoadTarget) (q : Bool) : (s.deliverAny t q).wbFence = s.wbFence := by
  simp [State.deliverAny]
@[simp] theorem State.deliverAny_maf (t : LoadTarget) (q : Bool) : (s.deliverAny t q).maf = s.maf := by
  simp [State.deliverAny]
@[simp] theorem State.deliverAny_imaf (t : LoadTarget) (q : Bool) : (s.deliverAny t q).imaf = s.imaf := by
  simp [State.deliverAny]
@[simp] theorem State.deliverAny_mbWaits (t : LoadTarget) (q : Bool) : (s.deliverAny t q).mbWaits = s.mbWaits := by
  simp [State.deliverAny]
@[simp] theorem State.deliverAny_scache (t : LoadTarget) (q : Bool) : (s.deliverAny t q).scache = s.scache := by
  simp [State.deliverAny]
@[simp] theorem State.deliverAny_victims (t : LoadTarget) (q : Bool) : (s.deliverAny t q).victims = s.victims := by
  simp [State.deliverAny]
@[simp] theorem State.deliverAny_bcTags (t : LoadTarget) (q : Bool) : (s.deliverAny t q).bcTags = s.bcTags := by
  simp [State.deliverAny]
@[simp] theorem State.deliverAny_bcDatas (t : LoadTarget) (q : Bool) : (s.deliverAny t q).bcDatas = s.bcDatas := by
  simp [State.deliverAny]
@[simp] theorem State.deliverAny_miss0 (t : LoadTarget) (q : Bool) : (s.deliverAny t q).miss0 = s.miss0 := by
  simp [State.deliverAny]
@[simp] theorem State.deliverAny_miss1 (t : LoadTarget) (q : Bool) : (s.deliverAny t q).miss1 = s.miss1 := by
  simp [State.deliverAny]
@[simp] theorem State.deliverAny_cmds (t : LoadTarget) (q : Bool) : (s.deliverAny t q).cmds = s.cmds := by
  simp [State.deliverAny]
@[simp] theorem State.deliverAny_nopParity (t : LoadTarget) (q : Bool) : (s.deliverAny t q).nopParity = s.nopParity := by
  simp [State.deliverAny]
@[simp] theorem State.deliverAny_mchkPending (t : LoadTarget) (q : Bool) : (s.deliverAny t q).mchkPending = s.mchkPending := by
  simp [State.deliverAny]
@[simp] theorem State.deliverAny_afterMb (t : LoadTarget) (q : Bool) : (s.deliverAny t q).afterMb = s.afterMb := by
  simp [State.deliverAny]
@[simp] theorem State.deliverAny_owed (t : LoadTarget) (q : Bool) : (s.deliverAny t q).owed = s.owed := by
  simp [State.deliverAny]
@[simp] theorem State.deliverAny_itbPending (t : LoadTarget) (q : Bool) : (s.deliverAny t q).itbPending = s.itbPending := by
  simp [State.deliverAny]
@[simp] theorem State.deliverAny_istreamLost (t : LoadTarget) (q : Bool) : (s.deliverAny t q).istreamLost = s.istreamLost := by
  simp [State.deliverAny]
@[simp] theorem State.deliverAny_stalled (t : LoadTarget) (q : Bool) : (s.deliverAny t q).stalled = s.stalled := by
  simp [State.deliverAny]
@[simp] theorem State.deliverAny_pulse (t : LoadTarget) (q : Bool) : (s.deliverAny t q).pulse = s.pulse := by
  simp [State.deliverAny]
@[simp] theorem State.deliverAny_mem (t : LoadTarget) (q : Bool) : (s.deliverAny t q).mem = s.mem := by
  simp [State.deliverAny]
@[simp] theorem State.deliverAny_pins (t : LoadTarget) (q : Bool) : (s.deliverAny t q).pins = s.pins := by
  simp [State.deliverAny]
@[simp] theorem State.deliverAny_inputs (t : LoadTarget) (q : Bool) : (s.deliverAny t q).inputs = s.inputs := by
  simp [State.deliverAny]
@[simp] theorem State.deliverAny_answers (t : LoadTarget) (q : Bool) : (s.deliverAny t q).answers = s.answers := by
  simp [State.deliverAny]
@[simp] theorem State.deliverAny_busOut (t : LoadTarget) (q : Bool) : (s.deliverAny t q).busOut = s.busOut := by
  simp [State.deliverAny]
@[simp] theorem State.deliverAny_tally (t : LoadTarget) (q : Bool) : (s.deliverAny t q).tally = s.tally := by
  simp [State.deliverAny]
@[simp] theorem State.deliverAny_ended (t : LoadTarget) (q : Bool) : (s.deliverAny t q).ended = s.ended := by
  simp [State.deliverAny]

/-! ### loadMiss -/

@[simp] theorem State.loadMiss_palTemps (q l : Bool) (t : LoadTarget) (a : PAddr) : (s.loadMiss q l t a).palTemps = s.palTemps := by
  simp [State.loadMiss]
@[simp] theorem State.loadMiss_pc (q l : Bool) (t : LoadTarget) (a : PAddr) : (s.loadMiss q l t a).pc = s.pc := by
  simp [State.loadMiss]
@[simp] theorem State.loadMiss_palmode (q l : Bool) (t : LoadTarget) (a : PAddr) : (s.loadMiss q l t a).palmode = s.palmode := by
  simp [State.loadMiss]
@[simp] theorem State.loadMiss_fpcr (q l : Bool) (t : LoadTarget) (a : PAddr) : (s.loadMiss q l t a).fpcr = s.fpcr := by
  simp [State.loadMiss]
@[simp] theorem State.loadMiss_lockFlag (q l : Bool) (t : LoadTarget) (a : PAddr) : (s.loadMiss q l t a).lockFlag = s.lockFlag := by
  simp [State.loadMiss]
@[simp] theorem State.loadMiss_lockAddr (q l : Bool) (t : LoadTarget) (a : PAddr) : (s.loadMiss q l t a).lockAddr = s.lockAddr := by
  simp [State.loadMiss]
@[simp] theorem State.loadMiss_intrFlag (q l : Bool) (t : LoadTarget) (a : PAddr) : (s.loadMiss q l t a).intrFlag = s.intrFlag := by
  simp [State.loadMiss]
@[simp] theorem State.loadMiss_ibox (q l : Bool) (t : LoadTarget) (a : PAddr) : (s.loadMiss q l t a).ibox = s.ibox := by
  simp [State.loadMiss]
@[simp] theorem State.loadMiss_mbox (q l : Bool) (t : LoadTarget) (a : PAddr) : (s.loadMiss q l t a).mbox = s.mbox := by
  simp [State.loadMiss]
@[simp] theorem State.loadMiss_cbox (q l : Bool) (t : LoadTarget) (a : PAddr) : (s.loadMiss q l t a).cbox = s.cbox := by
  simp [State.loadMiss]
@[simp] theorem State.loadMiss_itb (q l : Bool) (t : LoadTarget) (a : PAddr) : (s.loadMiss q l t a).itb = s.itb := by
  simp [State.loadMiss]
@[simp] theorem State.loadMiss_dtb (q l : Bool) (t : LoadTarget) (a : PAddr) : (s.loadMiss q l t a).dtb = s.dtb := by
  simp [State.loadMiss]
@[simp] theorem State.loadMiss_icache (q l : Bool) (t : LoadTarget) (a : PAddr) : (s.loadMiss q l t a).icache = s.icache := by
  simp [State.loadMiss]
@[simp] theorem State.loadMiss_dcache (q l : Bool) (t : LoadTarget) (a : PAddr) : (s.loadMiss q l t a).dcache = s.dcache := by
  simp [State.loadMiss]
@[simp] theorem State.loadMiss_wb (q l : Bool) (t : LoadTarget) (a : PAddr) : (s.loadMiss q l t a).wb = s.wb := by
  simp [State.loadMiss]
@[simp] theorem State.loadMiss_wbFence (q l : Bool) (t : LoadTarget) (a : PAddr) : (s.loadMiss q l t a).wbFence = s.wbFence := by
  simp [State.loadMiss]
@[simp] theorem State.loadMiss_imaf (q l : Bool) (t : LoadTarget) (a : PAddr) : (s.loadMiss q l t a).imaf = s.imaf := by
  simp [State.loadMiss]
@[simp] theorem State.loadMiss_mbWaits (q l : Bool) (t : LoadTarget) (a : PAddr) : (s.loadMiss q l t a).mbWaits = s.mbWaits := by
  simp [State.loadMiss]
@[simp] theorem State.loadMiss_scache (q l : Bool) (t : LoadTarget) (a : PAddr) : (s.loadMiss q l t a).scache = s.scache := by
  simp [State.loadMiss]
@[simp] theorem State.loadMiss_victims (q l : Bool) (t : LoadTarget) (a : PAddr) : (s.loadMiss q l t a).victims = s.victims := by
  simp [State.loadMiss]
@[simp] theorem State.loadMiss_bcTags (q l : Bool) (t : LoadTarget) (a : PAddr) : (s.loadMiss q l t a).bcTags = s.bcTags := by
  simp [State.loadMiss]
@[simp] theorem State.loadMiss_bcDatas (q l : Bool) (t : LoadTarget) (a : PAddr) : (s.loadMiss q l t a).bcDatas = s.bcDatas := by
  simp [State.loadMiss]
@[simp] theorem State.loadMiss_miss0 (q l : Bool) (t : LoadTarget) (a : PAddr) : (s.loadMiss q l t a).miss0 = s.miss0 := by
  simp [State.loadMiss]
@[simp] theorem State.loadMiss_miss1 (q l : Bool) (t : LoadTarget) (a : PAddr) : (s.loadMiss q l t a).miss1 = s.miss1 := by
  simp [State.loadMiss]
@[simp] theorem State.loadMiss_cmds (q l : Bool) (t : LoadTarget) (a : PAddr) : (s.loadMiss q l t a).cmds = s.cmds := by
  simp [State.loadMiss]
@[simp] theorem State.loadMiss_nopParity (q l : Bool) (t : LoadTarget) (a : PAddr) : (s.loadMiss q l t a).nopParity = s.nopParity := by
  simp [State.loadMiss]
@[simp] theorem State.loadMiss_mchkPending (q l : Bool) (t : LoadTarget) (a : PAddr) : (s.loadMiss q l t a).mchkPending = s.mchkPending := by
  simp [State.loadMiss]
@[simp] theorem State.loadMiss_afterMb (q l : Bool) (t : LoadTarget) (a : PAddr) : (s.loadMiss q l t a).afterMb = s.afterMb := by
  simp [State.loadMiss]
@[simp] theorem State.loadMiss_owed (q l : Bool) (t : LoadTarget) (a : PAddr) : (s.loadMiss q l t a).owed = s.owed := by
  simp [State.loadMiss]
@[simp] theorem State.loadMiss_itbPending (q l : Bool) (t : LoadTarget) (a : PAddr) : (s.loadMiss q l t a).itbPending = s.itbPending := by
  simp [State.loadMiss]
@[simp] theorem State.loadMiss_istreamLost (q l : Bool) (t : LoadTarget) (a : PAddr) : (s.loadMiss q l t a).istreamLost = s.istreamLost := by
  simp [State.loadMiss]
@[simp] theorem State.loadMiss_stalled (q l : Bool) (t : LoadTarget) (a : PAddr) : (s.loadMiss q l t a).stalled = s.stalled := by
  simp [State.loadMiss]
@[simp] theorem State.loadMiss_pulse (q l : Bool) (t : LoadTarget) (a : PAddr) : (s.loadMiss q l t a).pulse = s.pulse := by
  simp [State.loadMiss]
@[simp] theorem State.loadMiss_mem (q l : Bool) (t : LoadTarget) (a : PAddr) : (s.loadMiss q l t a).mem = s.mem := by
  simp [State.loadMiss]
@[simp] theorem State.loadMiss_pins (q l : Bool) (t : LoadTarget) (a : PAddr) : (s.loadMiss q l t a).pins = s.pins := by
  simp [State.loadMiss]
@[simp] theorem State.loadMiss_inputs (q l : Bool) (t : LoadTarget) (a : PAddr) : (s.loadMiss q l t a).inputs = s.inputs := by
  simp [State.loadMiss]
@[simp] theorem State.loadMiss_answers (q l : Bool) (t : LoadTarget) (a : PAddr) : (s.loadMiss q l t a).answers = s.answers := by
  simp [State.loadMiss]
@[simp] theorem State.loadMiss_busOut (q l : Bool) (t : LoadTarget) (a : PAddr) : (s.loadMiss q l t a).busOut = s.busOut := by
  simp [State.loadMiss]
@[simp] theorem State.loadMiss_freeCount (q l : Bool) (t : LoadTarget) (a : PAddr) : (s.loadMiss q l t a).freeCount = s.freeCount := by
  simp [State.loadMiss]
@[simp] theorem State.loadMiss_tally (q l : Bool) (t : LoadTarget) (a : PAddr) : (s.loadMiss q l t a).tally = s.tally := by
  simp [State.loadMiss]
@[simp] theorem State.loadMiss_ended (q l : Bool) (t : LoadTarget) (a : PAddr) : (s.loadMiss q l t a).ended = s.ended := by
  simp [State.loadMiss]

/-! ### Values of the changed fields -/

@[simp] theorem State.drawn_freeCount : s.drawn.freeCount = s.freeCount + 1 := rfl
@[simp] theorem State.advance_pc : s.advance.pc = s.pc + 4#64 := rfl
@[simp] theorem State.jumpTo_pc (a : Word) : (s.jumpTo a).pc = a &&& ~~~3#64 := rfl
@[simp] theorem State.trap_pc (e : Entry) (a : Word) : (s.trap e a).pc = s.ibox.palBase ++ e.offset := rfl
@[simp] theorem State.trap_palmode (e : Entry) (a : Word) : (s.trap e a).palmode = true := rfl
@[simp] theorem State.trap_intrFlag (e : Entry) (a : Word) : (s.trap e a).intrFlag = false := rfl
@[simp] theorem State.trap_ibox (e : Entry) (a : Word) :
    (s.trap e a).ibox = { s.ibox with excAddr := s.pcView a &&& ~~~2#64 } := rfl
@[simp] theorem State.enterPal_pc (o : BitVec 14) (a : Word) : (s.enterPal o a).pc = s.ibox.palBase ++ o := rfl
@[simp] theorem State.enterPal_palmode (o : BitVec 14) (a : Word) : (s.enterPal o a).palmode = true := rfl
@[simp] theorem State.enterPal_ibox (o : BitVec 14) (a : Word) :
    (s.enterPal o a).ibox = { s.ibox with excAddr := s.pcView a &&& ~~~2#64 } := rfl
@[simp] theorem State.precise_pc (e : Entry) : (s.precise e).pc = s.ibox.palBase ++ e.offset := rfl
@[simp] theorem State.precise_palmode (e : Entry) : (s.precise e).palmode = true := rfl
@[simp] theorem State.precise_intrFlag (e : Entry) : (s.precise e).intrFlag = false := rfl
@[simp] theorem State.trap_ended (e : Entry) (a : Word) : (s.trap e a).ended = .trap := rfl
@[simp] theorem State.precise_ended (e : Entry) : (s.precise e).ended = .fault := rfl
@[simp] theorem State.precise_ibox (e : Entry) :
    (s.precise e).ibox = { s.ibox with excAddr := s.pcView s.pc &&& ~~~2#64 } := rfl
@[simp] theorem State.returnFromPal_pc : s.returnFromPal.pc = s.ibox.excAddr &&& ~~~3#64 := rfl
@[simp] theorem State.returnFromPal_palmode : s.returnFromPal.palmode = s.ibox.excAddr.getLsbD 0 := rfl
@[simp] theorem State.recordFpcr_fpcr (c : Conds) : (s.recordFpcr c).fpcr = s.fpcr ||| c.setWidth 11 := rfl
@[simp] theorem State.drive_busOut (e : BusEvent) : (s.drive e).busOut = e :: s.busOut := rfl
@[simp] theorem State.dropLock_lockFlag : s.dropLock.lockFlag = false := rfl
@[simp] theorem State.takeLock_lockFlag (a : PAddr) : (s.takeLock a).lockFlag = true := rfl
@[simp] theorem State.takeLock_lockAddr (a : PAddr) : (s.takeLock a).lockAddr = a := rfl

end Sys2Proof.Machine
end

