-- ==== Sys2Proof/Laws/Registers.lean ====
section
/-! SUPPORT. The two register files: what a read gives after a write, and the mapping of register numbers to shadow
registers (R31 to R34). -/

namespace Sys2Proof.Machine

variable (s : State)

/-! ## Slots -/

/-- The slot of a number depends only on whether the shadow registers are on. -/
theorem State.intSlot_congr {s t : State} (n : RegNum) (h : t.shadowOn = s.shadowOn) : t.intSlot n = s.intSlot n := by
  simp only [State.intSlot, h]

theorem State.shadowOn_congr {s t : State} (h : t.palmode = s.palmode) (hi : t.ibox.icsr = s.ibox.icsr) :
    t.shadowOn = s.shadowOn := by
  simp only [State.shadowOn, State.icsrBit, h, hi]

/-- What a read depends on. -/
theorem State.readInt_congr {s t : State} (n : RegNum) (h : t.palmode = s.palmode) (hi : t.ibox.icsr = s.ibox.icsr)
    (h1 : t.ints = s.ints) (h2 : t.shadow = s.shadow) : t.readInt n = s.readInt n := by
  simp only [State.readInt, State.intSlot_congr n (State.shadowOn_congr h hi), h1, h2]

theorem shadowSlot_eq_some {n : RegNum} {k : Fin 8} (h : shadowSlot n = some k) :
    (8 ≤ n.toNat ∧ n.toNat ≤ 14 ∧ k.val = n.toNat - 8) ∨ (n.toNat = 25 ∧ k.val = 7) := by
  unfold shadowSlot at h
  split at h
  · rename_i h1
    injection h with h
    exact .inl ⟨h1.1, h1.2, by rw [← h]⟩
  · split at h
    · rename_i h1 h2
      injection h with h
      exact .inr ⟨by rw [h2]; rfl, by rw [← h]; rfl⟩
    · cases h

/-- The register number of a slot: slots are what register numbers name, and no two numbers name one. -/
theorem State.intSlot_cases (n : RegNum) :
    (∃ k, s.intSlot n = .shadow k ∧ s.shadowOn = true ∧ shadowSlot n = some k) ∨
    (∃ h : n.toNat < 31, s.intSlot n = .plain ⟨n.toNat, h⟩) ∨ (s.intSlot n = .zero ∧ n.toNat = 31) := by
  unfold State.intSlot
  cases hs : s.shadowOn
  · by_cases h : n.toNat < 31
    · simp [h]
    · have := n.isLt
      simp [h]
      omega
  · cases hk : shadowSlot n with
    | some k => simp
    | none =>
      by_cases h : n.toNat < 31
      · simp [h]
      · have := n.isLt
        simp [h]
        omega

theorem State.intSlot_zero_iff (n : RegNum) : s.intSlot n = .zero ↔ n = 31#5 := by
  constructor
  · intro h
    rcases s.intSlot_cases n with ⟨k, h1, -, -⟩ | ⟨_, h1⟩ | ⟨-, h1⟩
    · rw [h1] at h; cases h
    · rw [h1] at h; cases h
    · exact BitVec.eq_of_toNat_eq h1
  · rintro rfl
    rcases s.intSlot_cases 31#5 with ⟨k, -, -, h1⟩ | ⟨h, -⟩ | ⟨h1, -⟩
    · exact absurd h1 (by revert k; decide)
    · exact absurd h (by decide)
    · exact h1

theorem State.intSlot_inj {m n : RegNum} (h : s.intSlot m = s.intSlot n) : m = n := by
  apply BitVec.eq_of_toNat_eq
  rcases s.intSlot_cases m with ⟨k, h1, -, h2⟩ | ⟨_, h1⟩ | ⟨h1, h2⟩ <;>
    rcases s.intSlot_cases n with ⟨l, g1, -, g2⟩ | ⟨_, g1⟩ | ⟨g1, g2⟩ <;> rw [h1, g1] at h
  · injection h with h
    subst h
    rcases shadowSlot_eq_some h2 with h | h <;> rcases shadowSlot_eq_some g2 with g | g <;> omega
  · cases h
  · cases h
  · cases h
  · injection h with h
    injection h
  · cases h
  · cases h
  · cases h
  · omega

/-! ## Integer registers -/

@[simp] theorem State.readInt_r31 : s.readInt 31#5 = 0#64 := by
  rw [State.readInt, (s.intSlot_zero_iff 31#5).2 rfl]

@[simp] theorem State.writeInt_r31 (v : Word) : s.writeInt 31#5 v = s := by
  rw [State.writeInt, (s.intSlot_zero_iff 31#5).2 rfl]
  rfl

@[simp] theorem State.shadowOn_writeInt (n : RegNum) (v : Word) : (s.writeInt n v).shadowOn = s.shadowOn :=
  State.shadowOn_congr (by simp) (by simp)

@[simp] theorem State.intSlot_writeInt (m n : RegNum) (v : Word) : (s.writeInt n v).intSlot m = s.intSlot m :=
  State.intSlot_congr m (by simp)

/-- Reading back the register just written. -/
theorem State.readInt_writeInt_self {n : RegNum} (v : Word) (h : n ≠ 31#5) : (s.writeInt n v).readInt n = v := by
  rw [State.readInt, State.intSlot_writeInt]
  cases hn : s.intSlot n with
  | shadow k => simp [State.writeInt, State.writeSlot, hn]
  | plain k => simp [State.writeInt, State.writeSlot, hn]
  | zero => exact absurd ((s.intSlot_zero_iff n).1 hn) h

/-- A write leaves every other register alone. -/
theorem State.readInt_writeInt_ne {m n : RegNum} (v : Word) (h : m ≠ n) : (s.writeInt n v).readInt m = s.readInt m := by
  have hne : s.intSlot m ≠ s.intSlot n := fun hh => h (s.intSlot_inj hh)
  rw [State.readInt, State.intSlot_writeInt, State.readInt]
  cases hm : s.intSlot m with
  | zero => rfl
  | shadow k =>
    cases hn : s.intSlot n with
    | shadow l =>
      have hkl : ¬ l.val = k.val := fun e => hne (by rw [hm, hn, Fin.ext e])
      simp [State.writeInt, State.writeSlot, hn, hkl]
    | plain l => simp [State.writeInt, State.writeSlot, hn]
    | zero => simp [State.writeInt, State.writeSlot, hn]
  | plain k =>
    cases hn : s.intSlot n with
    | plain l =>
      have hkl : ¬ l.val = k.val := fun e => hne (by rw [hm, hn, Fin.ext e])
      simp [State.writeInt, State.writeSlot, hn, hkl]
    | shadow l => simp [State.writeInt, State.writeSlot, hn]
    | zero => simp [State.writeInt, State.writeSlot, hn]

/-- A write leaves every register of the file alone but the one its slot names. -/
theorem State.writeInt_ints (n : RegNum) (v : Word) (k : Fin 31) (h : s.intSlot n ≠ .plain k) :
    (s.writeInt n v).ints[k] = s.ints[k] := by
  unfold State.writeInt State.writeSlot
  split
  · rfl
  · rename_i l hl
    have hkl : ¬ l.val = k.val := fun e => h (by rw [hl, Fin.ext e])
    simp [hkl]
  · rfl

theorem State.writeInt_shadow (n : RegNum) (v : Word) (k : Fin 8) (h : s.intSlot n ≠ .shadow k) :
    (s.writeInt n v).shadow[k] = s.shadow[k] := by
  unfold State.writeInt State.writeSlot
  split
  · rename_i l hl
    have hkl : ¬ l.val = k.val := fun e => h (by rw [hl, Fin.ext e])
    simp [hkl]
  · rfl
  · rfl

@[simp] theorem State.readInt_advance (n : RegNum) : s.advance.readInt n = s.readInt n := rfl
@[simp] theorem State.readInt_drawn (n : RegNum) : s.drawn.readInt n = s.readInt n := rfl
@[simp] theorem State.readInt_jumpTo (n : RegNum) (a : Word) : (s.jumpTo a).readInt n = s.readInt n := rfl
@[simp] theorem State.readInt_writeFp (m n : RegNum) (v : Word) : (s.writeFp m v).readInt n = s.readInt n :=
  State.readInt_congr n (by simp) (by simp) (by simp) (by simp)
@[simp] theorem State.readInt_touchDtb (k : Option (Fin 64)) (n : RegNum) : (s.touchDtb k).readInt n = s.readInt n :=
  State.readInt_congr n (by simp) (by simp) (by simp) (by simp)

/-! ## Floating-point registers -/

@[simp] theorem State.readFp_f31 : s.readFp 31#5 = 0#64 := rfl

@[simp] theorem State.writeFp_f31 (v : Word) : s.writeFp 31#5 v = s := rfl

theorem regNum_lt {n : RegNum} (h : n ≠ 31#5) : n.toNat < 31 := by
  have h1 := n.isLt
  have h2 : n.toNat ≠ 31 := fun e => h (BitVec.eq_of_toNat_eq e)
  omega

theorem State.readFp_writeFp_self {n : RegNum} (v : Word) (h : n ≠ 31#5) : (s.writeFp n v).readFp n = v := by
  simp [State.readFp, State.writeFp, regNum_lt h]

theorem State.readFp_writeFp_ne {m n : RegNum} (v : Word) (h : m ≠ n) : (s.writeFp n v).readFp m = s.readFp m := by
  have hne : ¬ n.toNat = m.toNat := fun e => h (BitVec.eq_of_toNat_eq e).symm
  unfold State.readFp State.writeFp
  by_cases h1 : n.toNat < 31 <;> by_cases h2 : m.toNat < 31 <;> simp [h1, h2, hne]

/-- What a read depends on. -/
theorem State.readFp_congr {s t : State} (n : RegNum) (h : t.fregs = s.fregs) : t.readFp n = s.readFp n := by
  simp only [State.readFp, h]

@[simp] theorem State.readFp_advance (n : RegNum) : s.advance.readFp n = s.readFp n := rfl
@[simp] theorem State.readFp_drawn (n : RegNum) : s.drawn.readFp n = s.readFp n := rfl
@[simp] theorem State.readFp_writeInt (m n : RegNum) (v : Word) : (s.writeInt m v).readFp n = s.readFp n :=
  State.readFp_congr n (by simp)
@[simp] theorem State.readFp_touchDtb (k : Option (Fin 64)) (n : RegNum) : (s.touchDtb k).readFp n = s.readFp n :=
  State.readFp_congr n (by simp)

/-! ## Values only some of whose bits are stated -/

/-- Under its mask a merged value is the stated one, whatever the free bits are. -/
theorem mergeBits_and (known mask free : Word) : mergeBits known mask free &&& mask = known &&& mask := by
  unfold mergeBits
  split
  · rfl
  · ext i hi
    simp only [BitVec.getElem_and, BitVec.getElem_or, BitVec.getElem_not]
    cases mask[i] <;> simp

/-- With every bit stated there is no free bit. -/
@[simp] theorem mergeBits_all (known free : Word) : mergeBits known (~~~0#64) free = known := by
  unfold mergeBits
  simp

end Sys2Proof.Machine
end

