-- ==== Sys2Proof/Laws/Frames.lean ====
section
/-! SUPPORT. The frames of Safety.lean, for the shared operations: what writing a register and going on changes, what a
trap changes, and how an instruction's gates answer. -/

namespace Sys2Proof.Machine

variable (s : State)

/-! ## Register writes -/

theorem intWrite_writeInt (n : RegNum) (v : Word) : s.intWrite (s.writeInt n v) n v :=
  ⟨s.readInt_writeInt_self v, fun _ h => s.readInt_writeInt_ne v h, fun k h => s.writeInt_ints n v k h,
    fun k h => s.writeInt_shadow n v k h⟩

/-- A state with the same registers and the same mapping as one that satisfies the frame satisfies it too. -/
theorem State.intWrite_congr {s t u : State} {n : RegNum} {v : Word} (h : s.intWrite t n v)
    (hp : u.palmode = t.palmode) (hi : u.ibox.icsr = t.ibox.icsr) (h1 : u.ints = t.ints) (h2 : u.shadow = t.shadow) :
    s.intWrite u n v :=
  ⟨fun hn => (State.readInt_congr n hp hi h1 h2).trans (h.1 hn),
    fun m hm => (State.readInt_congr m hp hi h1 h2).trans (h.2.1 m hm),
    fun k hk => by rw [h1]; exact h.2.2.1 k hk, fun k hk => by rw [h2]; exact h.2.2.2 k hk⟩

/-- A write to a state whose registers are those of `s` is a write to `s`. -/
theorem intWrite_of_same {u : State} (n : RegNum) (v : Word) (hp : u.palmode = s.palmode)
    (hi : u.ibox.icsr = s.ibox.icsr) (h1 : u.ints = s.ints) (h2 : u.shadow = s.shadow) :
    s.intWrite (u.writeInt n v).advance n v := by
  have h := State.intWrite_congr (intWrite_writeInt u n v) (u := (u.writeInt n v).advance) rfl rfl rfl rfl
  have hs := State.intSlot_congr n (State.shadowOn_congr hp hi)
  refine ⟨h.1, fun m hm => (h.2.1 m hm).trans (State.readInt_congr m hp hi h1 h2), fun k hk => ?_, fun k hk => ?_⟩
  · rw [← h1]; exact h.2.2.1 k (by rw [hs]; exact hk)
  · rw [← h2]; exact h.2.2.2 k (by rw [hs]; exact hk)

theorem onlyInt_writeInt (n : RegNum) (v : Word) : s.onlyInt (s.writeInt n v).advance n v := by
  refine ⟨State.intWrite_congr (intWrite_writeInt s n v) rfl rfl rfl rfl, by simp, ?_⟩
  unfold State.writeInt State.writeSlot State.advance
  split <;> rfl

theorem onlyInt_intOp {f : Word → Word → Word} {ra : RegNum} {rb : RegOrLit} {v : Word} (rc : RegNum)
    (h : f (s.readInt ra) (s.operand rb) = v) : s.onlyInt (s.intOp f ra rb rc) rc v := by
  subst h
  exact onlyInt_writeInt s rc _

theorem onlyInt_intOpV {f : Word → Word → Word} {g : Word → Word → Bool} {ra : RegNum} {rb : RegOrLit} {v : Word}
    (rc : RegNum) (hg : g (s.readInt ra) (s.operand rb) = false) (h : f (s.readInt ra) (s.operand rb) = v) :
    s.onlyInt (s.intOpV f g ra rb rc) rc v := by
  subst h
  rw [State.intOpV, hg]
  exact onlyInt_writeInt s rc _

theorem onlyInt_byteOp {f : Word → Nat → Word} {ra : RegNum} {rb : RegOrLit} {v : Word} (rc : RegNum)
    (h : f (s.readInt ra) (s.byteOffset (s.operand rb)) = v) : s.onlyInt (s.byteOp f ra rb rc) rc v := by
  subst h
  exact onlyInt_writeInt s rc _

theorem fpWrite_writeFp (n : RegNum) (v : Word) : s.fpWrite (s.writeFp n v) n v :=
  ⟨s.readFp_writeFp_self v, fun _ h => s.readFp_writeFp_ne v h⟩

theorem State.fpWrite_congr {s t u : State} {n : RegNum} {v : Word} (h : s.fpWrite t n v) (hf : u.fregs = t.fregs) :
    s.fpWrite u n v :=
  ⟨fun hn => (State.readFp_congr n hf).trans (h.1 hn), fun m hm => (State.readFp_congr m hf).trans (h.2 m hm)⟩

/-- A write to a state whose floating-point registers are those of `s` is a write to `s`. -/
theorem fpWrite_of_same {u : State} (n : RegNum) (v : Word) (h1 : u.fregs = s.fregs) :
    s.fpWrite (u.writeFp n v).advance n v := by
  have h := State.fpWrite_congr (fpWrite_writeFp u n v) (u := (u.writeFp n v).advance) rfl
  exact ⟨h.1, fun m hm => (h.2 m hm).trans (State.readFp_congr m h1)⟩

theorem onlyFp_writeFp (n : RegNum) (v : Word) : s.onlyFp (s.writeFp n v).advance n v := by
  refine ⟨State.fpWrite_congr (fpWrite_writeFp s n v) rfl, by simp, ?_⟩
  unfold State.writeFp State.advance
  split <;> rfl

/-! ## Traps -/

/-- EXC_ADDR after an entry: the return address with the PALmode flag in bit 0. -/
theorem State.pcView_stored (a : Word) : s.pcView a &&& ~~~2#64 = (a &&& ~~~3#64) ||| ofBool64 s.palmode := by
  unfold State.pcView ofBool64
  generalize s.palmode = b
  ext i hi
  interval_cases i <;> cases b <;> simp

theorem trapped_trap (e : Entry) (a : Word) : s.trapped (s.trap e a) e.offset a :=
  ⟨rfl, rfl, by rw [State.trap_ibox, State.pcView_stored], rfl, rfl⟩

theorem trapped_precise (e : Entry) : s.trapped (s.precise e) e.offset s.pc :=
  ⟨rfl, rfl, by rw [State.precise_ibox, State.pcView_stored], rfl, rfl⟩

/-! ## Gates -/

theorem fpGate_on {s : State} (h : s.fpe = true) (f : State → Res State) : s.fpGate f = f s := by
  simp [State.fpGate, h]

theorem fpGate_off {s : State} (h : s.fpe = false) (f : State → Res State) : s.fpGate f = .next (s.precise .fen) := by
  simp [State.fpGate, h]

theorem palGate_on {s : State} (h : s.palAllowed = true) (f : State → Res State) : s.palGate f = f s := by
  simp [State.palGate, h]

theorem palGate_off {s : State} (h : s.palAllowed = false) (f : State → Res State) :
    s.palGate f = .next (s.precise .opcdec) := by
  simp [State.palGate, h]

/-! ## Completing a floating-point operate -/

theorem fpDone_finishFp (fc : RegNum) (soft : Bool) {o : FpOutcome} (h : o.sum = 0#6) :
    s.fpDone (s.finishFp fc soft o) fc o := by
  obtain ⟨v, f, c⟩ := o
  simp only at h
  subst h
  cases v with
  | some v =>
    refine ⟨State.fpWrite_congr (fpWrite_writeFp s fc v) rfl, by simp [State.finishFp], by simp [State.finishFp],
      fun _ => by simp [State.finishFp, State.writeFpResult], ?_⟩
    simp only [State.finishFp, State.writeFpResult, State.writeFp, State.recordFpcr, State.advance, if_true]
    split <;> rfl
  | none =>
    refine ⟨State.fpWrite_congr (fpWrite_writeFp s fc s.freeNow) rfl, by simp [State.finishFp],
      by simp [State.finishFp], fun h => absurd rfl h, ?_⟩
    simp only [State.finishFp, State.writeFpResult, State.writeFp, State.recordFpcr, State.advance, State.drawn, if_true]
    split <;> rfl

/-! ## Outcomes -/

theorem mapRes_eq_next {f : State → State} {r : Res State} {t : State} (h : mapRes f r = .next t) :
    ∃ u, r = .next u ∧ t = f u := by
  cases r with
  | next u => exact ⟨u, rfl, by injection h with h; exact h.symm⟩
  | fault e => cases h
  | refused e => cases h

/-- Everything a Dstream reference can do: the access, completed, or a Dstream exception. -/
theorem State.dstream_eq_next {s : State} {r : Ref} {access : State → PAddr → Res State} {t : State}
    (h : s.dstream r access = .next t) :
    (∃ pa hit u, s.translate r = .ok pa hit ∧ s.orderKept r.write = true ∧ access (s.touchDtb hit) pa = .next u ∧
      t = u.accessDone) ∨
    (∃ e bits, s.translate r = .except e bits ∧ t = s.mmTrap r e bits) := by
  unfold State.dstream at h
  split at h
  · rename_i pa hit htr
    split at h
    · rename_i ho
      obtain ⟨u, hu, ht⟩ := mapRes_eq_next h
      exact .inl ⟨pa, hit, u, htr, ho, hu, ht⟩
    · cases h
  · rename_i e bits htr
    injection h with h
    exact .inr ⟨e, bits, htr, h.symm⟩
  · cases h

end Sys2Proof.Machine
end

