-- ==== Sys2Proof/Laws/Access.lean ====
section
/-! SUPPORT. What an access to the memory-like region does, once for loads, load-locked, stores and store-conditionals, and
the access of an instruction whose reference reaches it. -/

namespace Sys2Proof.Machine

variable (s : State)

/-! ## Alignment -/

theorem State.accessAddress_aligned (quad : Bool) (pa : PAddr) : alignedTo quad (s.accessAddress quad pa) := by
  have key : ∀ (x y : PAddr) (n : Nat), x &&& y = 0#40 → y.toNat = 2 ^ n - 1 → x.toNat % 2 ^ n = 0 := by
    intro x y n h hy
    have := congrArg BitVec.toNat h
    rw [BitVec.toNat_and, hy, Nat.and_two_pow_sub_one_eq_mod] at this
    simpa using this
  cases quad with
  | true =>
    refine key _ 7#40 3 ?_ (by decide)
    simp only [State.accessAddress, if_true]
    rw [BitVec.and_assoc, show ~~~7#40 &&& 7#40 = 0#40 by decide, BitVec.and_zero]
  | false =>
    refine key _ 3#40 2 ?_ (by decide)
    simp only [State.accessAddress, Bool.false_eq_true, if_false]
    rw [BitVec.and_assoc, show ~~~3#40 &&& 3#40 = 0#40 by decide, BitVec.and_zero]

/-! ## What is seen behind the Dcache -/

/-- What the caches and main memory hold depends on them, on the Cbox registers and on the pins only. -/
theorem State.below_congr {s t : State} (h1 : t.scache = s.scache) (h2 : t.victims = s.victims) (h3 : t.bcTags = s.bcTags)
    (h3' : t.bcDatas = s.bcDatas) (h4 : t.cbox = s.cbox) (h5 : t.pins = s.pins) (h6 : t.mem = s.mem) (b : Block) :
    t.below b = s.below b := by
  rw [show t.below b = State.below { s with
      scache := t.scache, victims := t.victims, bcTags := t.bcTags, bcDatas := t.bcDatas, cbox := t.cbox, pins := t.pins
      mem := t.mem } b from rfl, h1, h2, h3, h3', h4, h5, h6]

theorem State.sees_congr {s t : State} (h1 : t.scache = s.scache) (h2 : t.victims = s.victims) (h3 : t.bcTags = s.bcTags)
    (h3' : t.bcDatas = s.bcDatas) (h4 : t.cbox = s.cbox) (h5 : t.pins = s.pins) (h6 : t.mem = s.mem) (h7 : t.wb = s.wb) (b : Block) :
    t.sees b = s.sees b := by
  rw [State.sees, State.below_congr h1 h2 h3 h3' h4 h5 h6, h7]; rfl

/-- A store merged into the newest entry of its block, seen through the buffer. -/
theorem wbOverlay_wbMerge {b : Block} {mask : BitVec 8} {data : Hexword} {l l' : List WbEntry}
    (h : wbMerge b mask data l = some l') (c : Block) (x : Hexword) :
    wbOverlay c x l' = if c = b then mergeHex (wbOverlay c x l) data mask else wbOverlay c x l := by
  induction l generalizing l' with
  | nil => cases h
  | cons e rest ih =>
    rw [wbMerge] at h
    split at h
    · rename_i he
      simp only [Bool.and_eq_true, beq_iff_eq] at he
      split at h
      · rename_i hm
        injection h with h
        subst h
        have hs : ∀ bb m d, WbEntry.stores ⟨bb, e.kind, m, d, e.wmb, e.closed⟩ = true := fun _ _ _ => he.1
        by_cases hc : c = b
        · rw [hc]
          simp only [wbOverlay, hs, he.2, beq_self_eq_true, Bool.and_self, if_true, mergeHex_mergeHex]
        · have hc' : ¬ e.block = c := fun hh => hc (hh ▸ he.2)
          simp [wbOverlay, hc, hc']
      · cases h
    · rename_i he
      obtain ⟨m, hm, rfl⟩ := Option.map_eq_some_iff.1 h
      by_cases hc : c = b
      · subst hc
        have he' : (e.stores && e.block == c) = false := by simpa using he
        simp [wbOverlay, he', ih hm]
      · simp [wbOverlay, ih hm, hc]

/-- What is seen of a block after an entry has been allocated. -/
theorem State.sees_wbAllocate (b c : Block) (k : WbKind) (m : BitVec 8) (d : Hexword) :
    (s.wbAllocate b k m d).sees c =
      if (⟨b, k, m, d, s.wbFence || (k.stores && s.wbHolds b), s.wbNoMerge⟩ : WbEntry).stores && b == c then mergeHex (s.sees c) d m
      else s.sees c := by
  rw [State.sees, State.below_congr (t := s.wbAllocate b k m d) (s := s) rfl rfl rfl rfl rfl rfl rfl]
  rfl

/-- What is seen of a block after a store has entered the write buffer. -/
theorem State.sees_wbStore (b c : Block) (m : BitVec 8) (d : Hexword) :
    (s.wbStore b m d).sees c = if c = b then mergeHex (s.sees c) d m else s.sees c := by
  unfold State.wbStore
  split
  · rename_i l hl
    split at hl
    · cases hl
    · exact (congrArg (wbOverlay c · l) (State.below_congr (s := s) (t := { s with wb := l }) rfl rfl rfl rfl rfl rfl rfl c)).trans
        (wbOverlay_wbMerge hl c _)
  · rw [State.sees_wbAllocate]
    by_cases hc : c = b
    · simp [hc, WbEntry.stores, WbKind.stores]
    · simp [hc, WbEntry.stores, WbKind.stores, Ne.symm hc]

/-- A store seen byte by byte. -/
theorem State.byteAt_wbStore {quad : Bool} {a : PAddr} (v : Word) (h : alignedTo quad a) (x : PAddr) :
    (s.wbStore (granule a) (longsOf quad a) (blockData quad a v)).byteAt x = byteAfter quad a v x (s.byteAt x) := by
  unfold State.byteAt byteAfter
  rw [State.sees_wbStore]
  by_cases hb : granule x = granule a
  · rw [if_pos hb, hexByte_store quad a x v _ h hb]
    by_cases hr : a.toNat ≤ x.toNat ∧ x.toNat < a.toNat + sizeOf quad
    · rw [if_pos hr, if_pos (by simpa [inDatum] using hr)]
    · rw [if_neg hr, if_neg (by simpa [inDatum] using hr)]
  · rw [if_neg hb, if_neg]
    intro hr
    have hr' : a.toNat ≤ x.toNat ∧ x.toNat < a.toNat + sizeOf quad := by simpa [inDatum] using hr
    apply hb
    rw [granule_eq_iff]
    have hs : sizeOf quad = 4 ∨ sizeOf quad = 8 := by cases quad <;> simp [Machine.sizeOf]
    unfold alignedTo at h
    rcases hs with hs | hs <;> rw [hs] at h hr' <;> omega

/-! ## The Dcache -/

theorem regionOf_memory {a : PAddr} (h : regionOf a = .memory) : a.getLsbD 39 = false := by
  unfold regionOf at h
  split at h
  · split at h <;> cases h
  · exact Bool.eq_false_iff.2 ‹_›

theorem lt_of_bit39 {y : PAddr} (hy : y.getLsbD 39 = false) : y.toNat < 2 ^ 39 := by
  by_contra hge
  have hlt := y.isLt
  rw [BitVec.getLsbD, Nat.testBit, Nat.shiftRight_eq_div_pow] at hy
  rw [show y.toNat / 2 ^ 39 = 1 by omega] at hy
  exact absurd hy (by decide)

theorem dcGet_idx (i : Nat) (b : List DcLine) : (dcGet i b).idx = i := by
  induction b with
  | nil => rfl
  | cons l ls ih =>
    rw [dcGet]
    split
    · assumption
    · exact ih

/-- Reading an entry after one has been put. -/
theorem dcGet_dcPut (n : DcLine) (i : Nat) (b : List DcLine) :
    dcGet i (dcPut n b) = if n.idx = i then n else dcGet i b := by
  induction b with
  | nil => simp [dcPut, dcGet]
  | cons l ls ih =>
    rw [dcPut]
    split
    · rename_i h
      rw [dcGet, dcGet, h]
      split <;> simp_all
    · rename_i h
      rw [dcGet, ih, dcGet]
      split
      · rename_i h2
        rw [if_neg (fun h3 => h (h2.trans h3.symm))]
      · rfl

/-- Addresses of one quadword have the same entry, hit or miss. -/
theorem dc_same {a x : PAddr} (h : x.toNat / 8 = a.toNat / 8) :
    dcIndex x = dcIndex a ∧ dcTag x = dcTag a ∧ x.getLsbD 4 = a.getLsbD 4 ∧ x.getLsbD 39 = a.getLsbD 39 := by
  refine ⟨?_, ?_, ?_, ?_⟩
  · simp only [dcIndex, BitVec.extractLsb'_toNat, Nat.shiftRight_eq_div_pow]; omega
  · apply BitVec.eq_of_toNat_eq
    simp only [dcTag, BitVec.extractLsb'_toNat, Nat.shiftRight_eq_div_pow]; omega
  · have : x.toNat / 16 = a.toNat / 16 := by omega
    simp only [BitVec.getLsbD, Nat.testBit, Nat.shiftRight_eq_div_pow]
    rw [show 2 ^ 4 = 16 by norm_num, this]
  · have : x.toNat / 2 ^ 39 = a.toNat / 2 ^ 39 := by omega
    simp only [BitVec.getLsbD, Nat.testBit, Nat.shiftRight_eq_div_pow]
    rw [this]

theorem DcLine.hits_same (l : DcLine) {a x : PAddr} (h : x.toNat / 8 = a.toNat / 8) : l.hits x = l.hits a := by
  obtain ⟨-, h2, h3, -⟩ := dc_same h
  unfold DcLine.hits
  rw [h2, h3]

/-- The quadword of a byte of an access. -/
theorem inDatum_div {quad : Bool} {a x : PAddr} (h : alignedTo quad a) (hr : inDatum quad a x = true) :
    x.toNat / 8 = a.toNat / 8 := by
  have hr' : a.toNat ≤ x.toNat ∧ x.toNat < a.toNat + sizeOf quad := by simpa [inDatum] using hr
  have hs : sizeOf quad = 4 ∨ sizeOf quad = 8 := by cases quad <;> simp [Machine.sizeOf]
  unfold alignedTo at h
  rcases hs with hs | hs <;> rw [hs] at h hr' <;> omega

/-- Two addresses that one entry holds lie in one block. -/
theorem granule_of_hits {l : DcLine} {a x : PAddr} (hi : dcIndex x = dcIndex a) (ha : l.hits a = true)
    (hx : l.hits x = true) (hm : a.toNat < 2 ^ 39) (hn : x.toNat < 2 ^ 39) : granule x = granule a := by
  unfold DcLine.hits at ha hx
  simp only [Bool.and_eq_true, beq_iff_eq] at ha hx
  have ht : dcTag x = dcTag a := hx.1.symm.trans ha.1
  have h1 := congrArg BitVec.toNat ht
  unfold dcIndex at hi
  simp only [dcTag, BitVec.extractLsb'_toNat, Nat.shiftRight_eq_div_pow] at h1 hi
  rw [granule_eq_iff]
  omega

/-- The bytes of a bank after a store: those of the block it hits. -/
theorem State.dcByte_dcStore {s : State} (i : Bool) {quad : Bool} {a : PAddr} (v : Word) (h : alignedTo quad a)
    (hm : regionOf a = .memory) (hf : s.dcFhit = false) (bank1 : Bool) (x : PAddr) :
    (s.dcStore i quad a v).dcByte bank1 x = (s.dcByte bank1 x).map (byteAfter quad a v x) := by
  have ha := lt_of_bit39 (regionOf_memory hm)
  unfold State.dcStore
  cases hd : s.dcEna
  · simp [State.dcByte, hd]
  · let f : List DcLine → List DcLine := fun b =>
      if s.dcFhit || (dcGet (dcIndex a) b).hits a then
        dcPut ((dcGet (dcIndex a) b).stored (s.dcBadParity && i) (longsOf quad a) (blockData quad a v)) b
      else b
    have he : ∀ t : State, t = s.dcMap f → t.dcByte bank1 x = (s.dcByte bank1 x).map (byteAfter quad a v x) := by
      rintro t rfl
      have hb : (s.dcMap f).dcache.bank bank1 = f (s.dcache.bank bank1) := by cases bank1 <;> rfl
      have hd' : (s.dcMap f).dcEna = true := hd
      unfold State.dcByte
      rw [hb, hd', hd]
      generalize s.dcache.bank bank1 = b
      simp only [Bool.true_and]
      cases hx : x.getLsbD 39
      · simp only [Bool.not_false, Bool.true_and]
        by_cases hh : (dcGet (dcIndex a) b).hits a = true
        · have hfb : f b = dcPut ((dcGet (dcIndex a) b).stored (s.dcBadParity && i) (longsOf quad a) (blockData quad a v)) b := by
            simp [f, hh]
          have hidx : ((dcGet (dcIndex a) b).stored (s.dcBadParity && i) (longsOf quad a) (blockData quad a v)).idx = dcIndex a :=
            dcGet_idx _ _
          rw [hfb, dcGet_dcPut, hidx]
          by_cases hi : dcIndex a = dcIndex x
          · rw [if_pos hi, ← hi]
            have hst : ((dcGet (dcIndex a) b).stored (s.dcBadParity && i) (longsOf quad a) (blockData quad a v)).hits x =
                (dcGet (dcIndex a) b).hits x := rfl
            rw [hst]
            by_cases hxx : (dcGet (dcIndex a) b).hits x = true
            · have hg := granule_of_hits hi.symm hh hxx ha (lt_of_bit39 hx)
              simp only [hxx, if_true, Option.map_some]
              congr 1
              show hexByte (mergeHex _ (blockData quad a v) (longsOf quad a)) (x.setWidth 5).toNat = _
              rw [hexByte_store quad a x v _ h hg]
              simp [byteAfter, inDatum]
            · simp [hxx]
          · rw [if_neg hi]
            by_cases hxx : (dcGet (dcIndex x) b).hits x = true
            · simp only [hxx, if_true, Option.map_some]
              congr 1
              rw [byteAfter, if_neg]
              exact fun hr => hi (dc_same (inDatum_div h hr)).1.symm
            · simp [hxx]
        · have hfb : f b = b := by simp [f, hh, hf]
          rw [hfb]
          by_cases hxx : (dcGet (dcIndex x) b).hits x = true
          · simp only [hxx, if_true, Option.map_some]
            congr 1
            rw [byteAfter, if_neg]
            intro hr
            rw [(dc_same (inDatum_div h hr)).1, DcLine.hits_same _ (inDatum_div h hr)] at hxx
            exact hh hxx
          · simp [hxx]
      · simp
    exact he _ rfl

/-! ## A plain answer of the Dcache -/

variable {s}

/-- A steady reference is served by either bank alike. -/
theorem State.dcReference_steady {quad write : Bool} {a : PAddr} (h : s.dcSteady quad write a) :
    s.dcReference quad write a = (s.dcLook false quad write a, s) := by
  unfold State.dcReference
  rw [if_pos h.1]

/-- The bytes of an access, each at its place. -/
theorem datum_add {quad : Bool} {a : PAddr} (h : alignedTo quad a) {i : Nat} (hi : i < sizeOf quad) :
    (a + BitVec.ofNat 40 i).toNat = a.toNat + i := by
  have hs : sizeOf quad = 4 ∨ sizeOf quad = 8 := by cases quad <;> simp [Machine.sizeOf]
  have hlt := a.isLt
  unfold alignedTo at h
  rw [BitVec.toNat_add, BitVec.toNat_ofNat, Nat.mod_eq_of_lt (a := i) (by rcases hs with hs | hs <;> omega)]
  apply Nat.mod_eq_of_lt
  rcases hs with hs | hs <;> rw [hs] at h hi <;> omega

theorem datum_place {quad : Bool} {a : PAddr} (h : alignedTo quad a) {i : Nat} (hi : i < sizeOf quad) :
    granule (a + BitVec.ofNat 40 i) = granule a ∧ ((a + BitVec.ofNat 40 i).setWidth 5).toNat = a.toNat % 32 + i ∧
      (a + BitVec.ofNat 40 i).toNat / 8 = a.toNat / 8 := by
  have hs : sizeOf quad = 4 ∨ sizeOf quad = 8 := by cases quad <;> simp [Machine.sizeOf]
  rw [granule_eq_iff, place_toNat, datum_add h hi]
  unfold alignedTo at h
  rcases hs with hs | hs <;> rw [hs] at h hi <;> omega

/-- What a bank of the Dcache gives at the bytes of an access: those of one line, or none. -/
theorem State.dcByte_datum {quad : Bool} {a : PAddr} (h : alignedTo quad a) (bank1 : Bool) {i : Nat} (hi : i < sizeOf quad) :
    s.dcByte bank1 (a + BitVec.ofNat 40 i) =
      if s.dcEna && !a.getLsbD 39 && (dcGet (dcIndex a) (s.dcache.bank bank1)).hits a then
        some (byteOf (hexDatum quad a (dcGet (dcIndex a) (s.dcache.bank bank1)).data) i)
      else none := by
  obtain ⟨-, h2, h3⟩ := datum_place h hi
  obtain ⟨h4, -, -, h5⟩ := dc_same h3
  simp only [State.dcByte, h4, h5, DcLine.hits_same _ h3, h2, byteOf_hexDatum quad a _ i h hi]

/-- The datum of a load that misses the Dcache. -/
theorem State.datum_sees {locked quad : Bool} {a : PAddr} (h : alignedTo quad a)
    (hm : s.dcServes locked quad a = false) : s.datum locked quad a (hexDatum quad a (s.sees (granule a))) := by
  intro i hi
  obtain ⟨h1, h2, -⟩ := datum_place h hi
  have hb : s.byteAt (a + BitVec.ofNat 40 i) = byteOf (hexDatum quad a (s.sees (granule a))) i := by
    rw [byteOf_hexDatum quad a _ i h hi, State.byteAt, h1, h2]
  rw [← hb, State.loadByte, hm]
  rfl

/-- The datum of a load that the Dcache serves. -/
theorem State.datum_dcache {locked quad : Bool} {a : PAddr} (h : alignedTo quad a) (hs : s.dcServes locked quad a = true) :
    s.datum locked quad a (hexDatum quad a (dcGet (dcIndex a) (s.dcache.bank false)).data) := by
  intro i hi
  have hd : (s.dcByte false a).isSome = true := by
    simp only [State.dcServes, Bool.and_eq_true] at hs
    exact hs.1.2
  have hc : (s.dcEna && !a.getLsbD 39 && (dcGet (dcIndex a) (s.dcache.bank false)).hits a) = true := by
    by_contra hc
    rw [State.dcByte, if_neg hc] at hd
    cases hd
  rw [State.loadByte, hs, State.dcByte_datum h false hi, if_pos hc]
  rfl

/-- A load miss of the memory-like region gets an entry of its own in the miss address file. -/
theorem mafAdd_alone (l : MafLoad) (locked conflict : Bool) (m : List MafEntry) :
    mafAdd l locked conflict false m = m ++ [⟨granule l.pa, [l], locked, conflict⟩] := by
  induction m with
  | nil => rfl
  | cons e rest ih => simp [mafAdd, ih]

/-- What reads of this processor depend on besides the Dcache stays when the DTB pointer moves or the lock is taken. -/
theorem State.byteAt_congr {s t : State} (h1 : t.scache = s.scache) (h2 : t.victims = s.victims) (h3 : t.bcTags = s.bcTags)
    (h3' : t.bcDatas = s.bcDatas) (h4 : t.cbox = s.cbox) (h5 : t.pins = s.pins) (h6 : t.mem = s.mem) (h7 : t.wb = s.wb) (x : PAddr) :
    t.byteAt x = s.byteAt x := by
  rw [State.byteAt, State.sees_congr h1 h2 h3 h3' h4 h5 h6 h7]; rfl

/-- A load from the memory-like region, the Dcache answering plainly: the datum, the lock of an LDx_L, and an entry in the miss
address file unless the Dcache serves it. -/
theorem State.loadMemory_steady {r : Ref} {a : PAddr} (locked : Bool) (t : LoadTarget) (h : alignedTo r.quad a)
    (hm : regionOf a = .memory) (hf : s.dcForced = false) (hd : locked = true ∨ s.dcSteady r.quad false a) :
    ∃ v, s.datum locked r.quad a v ∧
      s.loadMemory r locked t a = State.deliver { s with
        maf := s.mafAfter locked r.quad a t
        lockFlag := locked || s.lockFlag
        lockAddr := if locked then a else s.lockAddr } t v := by
  have h39 := regionOf_memory hm
  have hpush : ∀ u : State, u.mafPush ⟨a, r.quad, t⟩ locked =
      { u with maf := u.maf ++ [⟨granule a, [⟨a, r.quad, t⟩], locked, u.wbHolds (granule a)⟩] } := by
    intro u
    rw [State.mafPush]
    simp only [h39, Bool.and_false, Bool.false_and, mafAdd_alone]
  cases locked with
  | true =>
    have hs : s.dcServes true r.quad a = false := rfl
    refine ⟨_, State.datum_sees h hs, ?_⟩
    simp only [State.loadMemory, hf, Bool.false_eq_true, if_false, if_true, State.loadMiss, hpush, State.mafAfter, hs, Bool.true_or]
    rw [State.sees_congr (s := s) (t := s.takeLock a) rfl rfl rfl rfl rfl rfl rfl rfl]
    rfl
  | false =>
    have hd : s.dcSteady r.quad false a := hd.resolve_left (by decide)
    have he : (s.dcLook false r.quad false a).errors = 0#4 := hd.2.1
    have hh : ((s.dcLook false r.quad false a).hit && !s.mafMatches ⟨a, r.quad, t⟩) = s.dcServes false r.quad a := by
      have hb : (s.dcLook false r.quad false a).hit = (s.dcByte false a).isSome := by
        simp only [State.dcLook, hd.2.2, State.dcByte, h39, Bool.false_or, Bool.not_false, Bool.and_true]
        split <;> simp_all
      rw [hb, State.dcServes]
      rfl
    simp only [State.loadMemory, hf, Bool.false_eq_true, if_false, State.dcReference_steady hd, he, ne_eq, not_true, hh,
      Bool.false_or]
    cases hs : s.dcServes false r.quad a with
    | true =>
      refine ⟨_, State.datum_dcache h hs, ?_⟩
      simp only [if_true, State.mafAfter, hs]
      rfl
    | false =>
      refine ⟨_, State.datum_sees h hs, ?_⟩
      simp only [Bool.false_eq_true, if_false, State.loadMiss, hpush, State.mafAfter, hs]

/-! ## Stores and store-conditionals -/

/-- The bytes of the Dcache do not depend on the write buffer or on a register. -/
theorem State.dcByte_congr {s t : State} (h1 : t.dcache = s.dcache) (h2 : t.mbox = s.mbox) (bank1 : Bool) (x : PAddr) :
    t.dcByte bank1 x = s.dcByte bank1 x := by
  rw [show t.dcByte bank1 x = State.dcByte { s with dcache := t.dcache, mbox := t.mbox } bank1 x from rfl, h1, h2]

theorem State.stored_congr {s t u : State} {quad : Bool} {a : PAddr} {v : Word} (h : s.stored t quad a v)
    (h1 : u.scache = t.scache) (h2 : u.victims = t.victims) (h3 : u.bcTags = t.bcTags)
    (h3' : u.bcDatas = t.bcDatas) (h4 : u.cbox = t.cbox)
    (h5 : u.pins = t.pins) (h6 : u.mem = t.mem) (h7 : u.wb = t.wb) (h8 : u.dcache = t.dcache) (h9 : u.mbox = t.mbox) :
    s.stored u quad a v :=
  ⟨fun x => (State.byteAt_congr h1 h2 h3 h3' h4 h5 h6 h7 x).trans (h.1 x),
    fun b x => (State.dcByte_congr h8 h9 b x).trans (h.2 b x)⟩

/-- What a store into the write buffer leaves alone. -/
theorem State.wbStore_frame (s : State) (b : Block) (m : BitVec 8) (d : Hexword) :
    s.wbStore b m d = { s with wb := (s.wbStore b m d).wb, wbFence := (s.wbStore b m d).wbFence } := by
  unfold State.wbStore
  split <;> rfl

theorem State.dcStore_frame (s : State) (i quad : Bool) (a : PAddr) (v : Word) :
    s.dcStore i quad a v = { s with dcache := (s.dcStore i quad a v).dcache } := by
  unfold State.dcStore
  split <;> rfl

/-- A store to the memory-like region, the Dcache answering plainly: the bytes, and nothing but the Dcache and the write
buffer. -/
theorem State.storeMemory_steady {r : Ref} {a : PAddr} (v : Word) (h : alignedTo r.quad a) (hm : regionOf a = .memory)
    (hd : s.dcSteady r.quad true a) :
    s.stored (s.storeMemory r a v) r.quad a v ∧
      { s.storeMemory r a v with dcache := s.dcache, wb := s.wb, wbFence := s.wbFence } = s := by
  have he : (s.dcLook false r.quad true a).errors = 0#4 := hd.2.1
  simp only [State.storeMemory, State.dcReference_steady hd, he, if_true]
  have hf := State.wbStore_frame (s.dcStore r.integer r.quad a v) (granule a) (longsOf r.quad a) (blockData r.quad a v)
  have hg := State.dcStore_frame s r.integer r.quad a v
  refine ⟨⟨fun x => ?_, fun bank1 x => ?_⟩, ?_⟩
  · rw [State.byteAt_wbStore _ v h, hg]
    exact congrArg _ (State.byteAt_congr rfl rfl rfl rfl rfl rfl rfl rfl x)
  · rw [← State.dcByte_dcStore r.integer v h hm hd.2.2 bank1 x]
    exact State.dcByte_congr (by rw [hf]) (by rw [hf]) bank1 x
  · rw [hf, hg]

/-- What a block seen through a store-conditional's entry holds. -/
theorem State.byteAt_wbCond {quad : Bool} {a : PAddr} (go : Bool) (dest : IntSlot) (v : Word) (h : alignedTo quad a)
    (x : PAddr) :
    (s.wbAllocate (granule a) (.cond dest) (if go then longsOf quad a else 0#8) (blockData quad a v)).byteAt x =
      if go then byteAfter quad a v x (s.byteAt x) else s.byteAt x := by
  cases go with
  | true =>
    rw [← State.byteAt_wbStore s v h]
    unfold State.byteAt
    rw [State.sees_wbStore, State.sees_wbAllocate]
    congr 1
    by_cases hb : granule x = granule a
    · simp [hb, WbEntry.stores, WbKind.stores]
    · simp [hb, WbEntry.stores, WbKind.stores, Ne.symm hb]
  | false =>
    unfold State.byteAt
    rw [State.sees_wbAllocate]
    simp only [Bool.false_eq_true, if_false]
    split
    · rw [hexByte_mergeHex _ _ _ _ (by rw [place_toNat]; omega)]
      simp
    · rfl

theorem dcGet_map {f : DcLine → DcLine} (hf : ∀ l, (f l).idx = l.idx) (hb : ∀ i, f (DcLine.blank i) = DcLine.blank i)
    (i : Nat) (b : List DcLine) : dcGet i (b.map f) = f (dcGet i b) := by
  induction b with
  | nil => exact (hb i).symm
  | cons l ls ih =>
    rw [List.map_cons, dcGet, dcGet, hf]
    split
    · rfl
    · exact ih

/-- The bytes of a bank once a block has been removed. -/
theorem State.dcByte_dcInvalidate (s : State) {a : PAddr} (hm : regionOf a = .memory) (bank1 : Bool) (x : PAddr) :
    (s.dcInvalidate a).dcByte bank1 x = if granule x = granule a then none else s.dcByte bank1 x := by
  let f : DcLine → DcLine := fun l =>
    if l.idx = dcIndex a ∧ l.tag = dcTag a then { l with valid0 := false, valid1 := false } else l
  have hbank : (s.dcInvalidate a).dcache.bank bank1 = (s.dcache.bank bank1).map f := by cases bank1 <;> rfl
  have hg : dcGet (dcIndex x) ((s.dcInvalidate a).dcache.bank bank1) = f (dcGet (dcIndex x) (s.dcache.bank bank1)) := by
    rw [hbank]
    apply dcGet_map
    · intro l; simp only [f]; split <;> rfl
    · intro i; simp only [f]; split <;> rfl
  have hena : (s.dcInvalidate a).dcEna = s.dcEna := rfl
  simp only [State.dcByte, hg, hena]
  generalize hl : dcGet (dcIndex x) (s.dcache.bank bank1) = l
  have hidx : l.idx = dcIndex x := by rw [← hl]; exact dcGet_idx _ _
  by_cases hb : granule x = granule a
  · rw [if_pos hb]
    have hx : dcIndex x = dcIndex a ∧ dcTag x = dcTag a := by
      have := (granule_eq_iff x a).1 hb
      refine ⟨?_, BitVec.eq_of_toNat_eq ?_⟩
      · simp only [dcIndex, BitVec.extractLsb'_toNat, Nat.shiftRight_eq_div_pow]; omega
      · simp only [dcTag, BitVec.extractLsb'_toNat, Nat.shiftRight_eq_div_pow]; omega
    have hh : (f l).hits x = false := by
      simp only [f]
      split
      · simp [DcLine.hits]
      · rename_i hn
        rw [hidx, hx.1] at hn
        simp only [true_and] at hn
        simp [DcLine.hits, hx.2, hn]
    simp [hh]
  · rw [if_neg hb]
    by_cases hc : l.idx = dcIndex a ∧ l.tag = dcTag a
    · have hh : ∀ k : DcLine, k.tag = l.tag → (s.dcEna && !x.getLsbD 39 && k.hits x) = true → False := by
        intro k hk hx
        simp only [Bool.and_eq_true, Bool.not_eq_true', DcLine.hits, beq_iff_eq] at hx
        have ht := congrArg BitVec.toNat (hx.2.1.symm.trans (hk.trans hc.2))
        have hi := hidx.symm.trans hc.1
        apply hb
        rw [granule_eq_iff]
        have e1 := lt_of_bit39 hx.1.2
        have e2 := lt_of_bit39 (regionOf_memory hm)
        simp only [dcIndex, dcTag, BitVec.extractLsb'_toNat, Nat.shiftRight_eq_div_pow] at hi ht
        omega
      rw [if_neg (fun h => hh _ rfl h), if_neg (fun h => hh (f l) (by simp only [f]; split <;> rfl) h)]
    · rw [show f l = l by simp only [f, if_neg hc]]

/-! ## References that reach the memory-like region -/

theorem State.sameBut_touch {t : State} (hit : Option (Fin 64))
    (h : { t with afterMb := s.afterMb } = s.touchDtb hit) (ha : t.afterMb = false) : s.sameBut t := by
  refine ⟨ha, ?_⟩
  have : { t with dtb := { t.dtb with next := s.dtb.next }, afterMb := s.afterMb } =
      { ({ t with afterMb := s.afterMb } : State) with dtb := { t.dtb with next := s.dtb.next } } := rfl
  rw [this, h]
  cases hit with
  | none =>
    have hd := congrArg State.dtb h
    have hd : t.dtb = s.dtb := hd
    rw [hd]; rfl
  | some k =>
    have hd := congrArg State.dtb h
    have hd : t.dtb = { s.dtb with next := Config.dtbPointerAfterHit s.dtb.next k } := hd
    rw [hd]; rfl

/-- A load that reaches the memory-like region: an LDx_L in any case, another where the Dcache answers plainly. -/
theorem State.load_reaches {r : Ref} {a : PAddr} (locked : Bool) (t : LoadTarget) (h : s.reaches r a)
    (hf : s.dcForced = false) (hp : locked = true ∨ s.dcSteady r.quad false a) :
    ∃ hit v, s.datum locked r.quad a v ∧
      s.load r locked t = .next (State.accessDone (State.deliver { s.touchDtb hit with
        maf := s.mafAfter locked r.quad a t
        lockFlag := locked || s.lockFlag
        lockAddr := if locked then a else s.lockAddr } t v)) := by
  obtain ⟨pa, hit, ht, ha, hm, ho⟩ := h
  subst ha
  have hacc : (s.touchDtb hit).accessAddress r.quad pa = s.accessAddress r.quad pa := by cases hit <;> rfl
  have hd' : locked = true ∨ (s.touchDtb hit).dcSteady r.quad false (s.accessAddress r.quad pa) := by cases hit <;> exact hp
  have hf' : (s.touchDtb hit).dcForced = false := by cases hit <;> exact hf
  obtain ⟨v, hv, he⟩ := State.loadMemory_steady locked t (s.accessAddress_aligned r.quad pa) hm hf' hd'
  refine ⟨hit, v, ?_, ?_⟩
  · intro i hi
    have hs : (s.touchDtb hit).dcServes locked r.quad (s.accessAddress r.quad pa) =
        s.dcServes locked r.quad (s.accessAddress r.quad pa) := by cases hit <;> rfl
    rw [hv i hi, State.loadByte, State.loadByte, hs,
      State.byteAt_congr (s := s) (t := s.touchDtb hit) (by cases hit <;> rfl) (by cases hit <;> rfl) (by cases hit <;> rfl)
        (by cases hit <;> rfl) (by cases hit <;> rfl) (by cases hit <;> rfl) (by cases hit <;> rfl) (by cases hit <;> rfl),
      State.dcByte_congr (s := s) (t := s.touchDtb hit) (by cases hit <;> rfl) (by cases hit <;> rfl)]
  · simp only [State.load, State.dstream, ht, ho, if_true, State.loadAt, hacc, hm, he, mapRes]
    cases hit <;> rfl

/-- A store that reaches the memory-like region where the Dcache answers plainly. -/
theorem State.store_reaches {r : Ref} {a : PAddr} (v : Word) (h : s.reachesPlainly r a) (hw : r.write = true) :
    ∃ t, s.store r v = .next t ∧ s.stored t r.quad a v ∧ t.pc = s.pc + 4#64 ∧
      s.sameBut { t with dcache := s.dcache, wb := s.wb, wbFence := s.wbFence, pc := s.pc } := by
  obtain ⟨⟨pa, hit, ht, ha, hm, ho⟩, hd⟩ := h
  subst ha
  rw [hw] at hd
  have hacc : (s.touchDtb hit).accessAddress r.quad pa = s.accessAddress r.quad pa := by cases hit <;> rfl
  have hd' : (s.touchDtb hit).dcSteady r.quad true (s.accessAddress r.quad pa) := by cases hit <;> exact hd
  obtain ⟨h1, h2⟩ := State.storeMemory_steady v (s.accessAddress_aligned r.quad pa) hm hd'
  refine ⟨((s.touchDtb hit).storeMemory r (s.accessAddress r.quad pa) v).accessDone, ?_, ?_, ?_, ?_⟩
  · simp only [State.store, State.dstream, ht, ho, if_true, State.storeAt, hacc, hm, mapRes]
  · refine ⟨fun x => ?_, fun b x => ?_⟩
    · exact (h1.1 x).trans (congrArg _ (State.byteAt_congr (by cases hit <;> rfl) (by cases hit <;> rfl)
        (by cases hit <;> rfl) (by cases hit <;> rfl) (by cases hit <;> rfl) (by cases hit <;> rfl) (by cases hit <;> rfl)
        (by cases hit <;> rfl) x))
    · exact (h1.2 b x).trans (congrArg _ (State.dcByte_congr (by cases hit <;> rfl) (by cases hit <;> rfl) b x))
  · have hpc := congrArg State.pc h2
    have : (s.touchDtb hit).pc = s.pc := by cases hit <;> rfl
    exact congrArg (· + 4#64) (hpc.trans this)
  · refine State.sameBut_touch hit ?_ rfl
    have e : ∀ w : State, { w with dcache := (s.touchDtb hit).dcache, wb := (s.touchDtb hit).wb, wbFence := (s.touchDtb hit).wbFence } =
        s.touchDtb hit →
        { ({ w.accessDone with dcache := s.dcache, wb := s.wb, wbFence := s.wbFence, pc := s.pc } : State) with
          afterMb := s.afterMb } = s.touchDtb hit := by
      intro w hw
      have q : { ({ w.accessDone with dcache := s.dcache, wb := s.wb, wbFence := s.wbFence, pc := s.pc } : State) with
          afterMb := s.afterMb } = { ({ w with dcache := s.dcache, wb := s.wb, wbFence := s.wbFence } : State) with
            pc := s.pc, afterMb := s.afterMb } := rfl
      rw [q]
      have hw' : ({ w with dcache := s.dcache, wb := s.wb, wbFence := s.wbFence } : State) = s.touchDtb hit := by
        cases hit <;> exact hw
      rw [hw']
      cases hit <;> rfl
    exact e _ h2

/-- A store-conditional that reaches the memory-like region outside the force-hit modes. -/
theorem State.storeCond_reaches {r : Ref} {a : PAddr} (v : Word) (h : s.reaches r a)
    (hs : s.scFhit = false) (hb : s.bcFhit = false) :
    ∃ t hit, s.storeCond r v = .next t ∧ t = ((s.touchDtb hit).condMemory r a v).accessDone ∧
      (∀ x, t.byteAt x = if s.lockFlag then byteAfter r.quad a v x (s.byteAt x) else s.byteAt x) ∧
      (∀ b x, t.dcByte b x = if granule x = granule a then none else s.dcByte b x) := by
  obtain ⟨pa, hit, ht, ha, hm, ho⟩ := h
  subst ha
  have hacc : (s.touchDtb hit).accessAddress r.quad pa = s.accessAddress r.quad pa := by cases hit <;> rfl
  have h1 : (s.touchDtb hit).scFhit = false := by cases hit <;> exact hs
  have h2 : (s.touchDtb hit).bcFhit = false := by cases hit <;> exact hb
  have hl : (s.touchDtb hit).lockFlag = s.lockFlag := by cases hit <;> rfl
  refine ⟨_, hit, ?_, rfl, fun x => ?_, fun b x => ?_⟩
  · simp only [State.storeCond, State.dstream, ht, ho, if_true, State.condAt, hacc, hm, h1, h2, Bool.or_self,
      Bool.false_eq_true, if_false, mapRes]
  · have hal := s.accessAddress_aligned r.quad pa
    generalize s.accessAddress r.quad pa = a at hal hm ⊢
    unfold State.condMemory
    rw [hl]
    refine Eq.trans (State.byteAt_congr (s := State.wbAllocate ((s.touchDtb hit).dcInvalidate a) (granule a)
      (.cond ((s.touchDtb hit).intSlot r.ra)) (if s.lockFlag then longsOf r.quad a else 0#8) (blockData r.quad a v))
      (State.writeSlot_scache ..) (State.writeSlot_victims ..) (State.writeSlot_bcTags ..)
      (State.writeSlot_bcDatas ..) (State.writeSlot_cbox ..) (State.writeSlot_pins ..) (State.writeSlot_mem ..) (State.writeSlot_wb ..) x) ?_
    · rw [State.byteAt_wbCond _ _ v hal]
      have : ((s.touchDtb hit).dcInvalidate a).byteAt x = s.byteAt x :=
        State.byteAt_congr (by cases hit <;> rfl) (by cases hit <;> rfl) (by cases hit <;> rfl) (by cases hit <;> rfl)
          (by cases hit <;> rfl) (by cases hit <;> rfl) (by cases hit <;> rfl) (by cases hit <;> rfl) x
      rw [this]
  · have hc := State.dcByte_dcInvalidate (s.touchDtb hit) hm b x
    rw [State.dcByte_congr (s := s) (t := s.touchDtb hit) (by cases hit <;> rfl) (by cases hit <;> rfl)] at hc
    rw [← hc]
    refine State.dcByte_congr ?_ ?_ b x
    · exact State.writeSlot_dcache ..
    · exact State.writeSlot_mbox ..

end Sys2Proof.Machine
end

