-- ==== Sys2Proof/Laws/Decode.lean ====
section
/-! SUPPORT. The fields of an encoded word are the fields it was made from, format by format, and what decoding therefore
gives. -/

namespace Sys2Proof

/-! ## Fields of a concatenation -/

theorem extract_cat_hi {m n : Nat} (a : BitVec m) (b : BitVec n) (lo len : Nat) (h : n ≤ lo) :
    (a ++ b).extractLsb' lo len = a.extractLsb' (lo - n) len := by
  ext i hi
  rw [BitVec.getElem_extractLsb', BitVec.getElem_extractLsb', BitVec.getLsbD_append, if_neg (by omega)]
  congr 1
  omega

theorem extract_cat_lo {m n : Nat} (a : BitVec m) (b : BitVec n) (lo len : Nat) (h : lo + len ≤ n) :
    (a ++ b).extractLsb' lo len = b.extractLsb' lo len := by
  ext i hi
  rw [BitVec.getElem_extractLsb', BitVec.getElem_extractLsb', BitVec.getLsbD_append, if_pos (by omega)]

theorem extract_all {m : Nat} (a : BitVec m) : a.extractLsb' 0 m = a := by
  ext i hi
  simp

theorem bit_cat_hi {m n : Nat} (a : BitVec m) (b : BitVec n) (k : Nat) (h : n ≤ k) :
    (a ++ b).getLsbD k = a.getLsbD (k - n) := by
  rw [BitVec.getLsbD_append, if_neg (by omega)]

theorem bit_cat_lo {m n : Nat} (a : BitVec m) (b : BitVec n) (k : Nat) (h : k < n) :
    (a ++ b).getLsbD k = b.getLsbD k := by
  rw [BitVec.getLsbD_append, if_pos h]

/-! ## Fields of an encoded word -/

variable (op : BitVec 6) (ra rb rc : RegNum)

theorem encMem_fields (d : BitVec 16) :
    fOp (encMem op ra rb d) = op ∧ fRa (encMem op ra rb d) = ra ∧ fRb (encMem op ra rb d) = rb ∧
      fDisp16 (encMem op ra rb d) = d := by
  simp (disch := omega) only [encMem, fOp, fRa, fRb, fDisp16, extract_cat_hi, extract_cat_lo]
  exact ⟨extract_all _, extract_all _, extract_all _, extract_all _⟩

theorem encBra_fields (d : BitVec 21) :
    fOp (encBra op ra d) = op ∧ fRa (encBra op ra d) = ra ∧ fDisp21 (encBra op ra d) = d := by
  simp (disch := omega) only [encBra, fOp, fRa, fDisp21, extract_cat_hi, extract_cat_lo]
  exact ⟨extract_all _, extract_all _, extract_all _⟩

theorem encJump_fields (sel : BitVec 2) (hint : BitVec 14) :
    fOp (encJump ra rb sel hint) = 0x1A#6 ∧ fRa (encJump ra rb sel hint) = ra ∧ fRb (encJump ra rb sel hint) = rb ∧
      fTop2 (encJump ra rb sel hint) = sel ∧ fLow14 (encJump ra rb sel hint) = hint := by
  simp (disch := omega) only [encJump, fOp, fRa, fRb, fTop2, fLow14, extract_cat_hi, extract_cat_lo]
  exact ⟨extract_all _, extract_all _, extract_all _, extract_all _, extract_all _⟩

theorem encOpr_fields (fn : BitVec 7) (b : RegOrLit) :
    fOp (encOpr op fn ra b rc) = op ∧ fRa (encOpr op fn ra b rc) = ra ∧ fRegOrLit (encOpr op fn ra b rc) = b ∧
      fFn7 (encOpr op fn ra b rc) = fn ∧ fRc (encOpr op fn ra b rc) = rc := by
  cases b <;>
    simp (disch := omega) only [encOpr, fOp, fRa, fRb, fFn7, fRc, fRegOrLit, fBit, extract_cat_hi, extract_cat_lo,
      bit_cat_hi, bit_cat_lo] <;>
    refine ⟨extract_all _, extract_all _, ?_, extract_all _, extract_all _⟩ <;>
    simp

theorem encFp_fields (fn : BitVec 11) :
    fOp (encFp op fn ra rb rc) = op ∧ fRa (encFp op fn ra rb rc) = ra ∧ fRb (encFp op fn ra rb rc) = rb ∧
      fFn11 (encFp op fn ra rb rc) = fn ∧ fRc (encFp op fn ra rb rc) = rc := by
  simp (disch := omega) only [encFp, fOp, fRa, fRb, fFn11, fRc, extract_cat_hi, extract_cat_lo]
  exact ⟨extract_all _, extract_all _, extract_all _, extract_all _, extract_all _⟩

theorem encMisc_fields (fn : BitVec 16) :
    fOp (encMisc fn ra rb) = 0x18#6 ∧ fRa (encMisc fn ra rb) = ra ∧ fRb (encMisc fn ra rb) = rb ∧
      fDisp16 (encMisc fn ra rb) = fn := by
  simp (disch := omega) only [encMisc, fOp, fRa, fRb, fDisp16, extract_cat_hi, extract_cat_lo]
  exact ⟨extract_all _, extract_all _, extract_all _, extract_all _⟩

theorem encPal_fields (rest : BitVec 26) : fOp (encPal op rest) = op ∧ fRest (encPal op rest) = rest := by
  simp (disch := omega) only [encPal, fOp, fRest, extract_cat_hi, extract_cat_lo]
  exact ⟨extract_all _, extract_all _⟩

theorem bit1_bit (b : Bool) : (bit1 b).getLsbD 0 = b := by cases b <;> rfl

theorem encHwMem_fields (b15 b14 b13 b12 b11 b10 : Bool) (d : BitVec 10) :
    fOp (encHwMem op ra rb b15 b14 b13 b12 b11 b10 d) = op ∧ fRa (encHwMem op ra rb b15 b14 b13 b12 b11 b10 d) = ra ∧
    fRb (encHwMem op ra rb b15 b14 b13 b12 b11 b10 d) = rb ∧
    fBit (encHwMem op ra rb b15 b14 b13 b12 b11 b10 d) 15 = b15 ∧
    fBit (encHwMem op ra rb b15 b14 b13 b12 b11 b10 d) 14 = b14 ∧
    fBit (encHwMem op ra rb b15 b14 b13 b12 b11 b10 d) 13 = b13 ∧
    fBit (encHwMem op ra rb b15 b14 b13 b12 b11 b10 d) 12 = b12 ∧
    fBit (encHwMem op ra rb b15 b14 b13 b12 b11 b10 d) 11 = b11 ∧
    fBit (encHwMem op ra rb b15 b14 b13 b12 b11 b10 d) 10 = b10 ∧
    fDisp10 (encHwMem op ra rb b15 b14 b13 b12 b11 b10 d) = d := by
  simp (disch := omega) only [encHwMem, fOp, fRa, fRb, fBit, fDisp10, extract_cat_hi, extract_cat_lo, bit_cat_hi,
    bit_cat_lo]
  exact ⟨extract_all _, extract_all _, extract_all _, bit1_bit _, bit1_bit _, bit1_bit _, bit1_bit _, bit1_bit _,
    bit1_bit _, extract_all _⟩

/-! ## Decoding an encoded word -/

theorem decode_encMem {mk : MkMem} (h : opClass op = .mem mk) (d : BitVec 16) :
    decode (encMem op ra rb d) = .ok (mk ra rb d) := by
  obtain ⟨h1, h2, h3, h4⟩ := encMem_fields op ra rb d
  simp only [decode, h1, h, h2, h3, h4]

theorem decode_encBra {mk : MkBra} (h : opClass op = .bra mk) (d : BitVec 21) :
    decode (encBra op ra d) = .ok (mk ra d) := by
  obtain ⟨h1, h2, h3⟩ := encBra_fields op ra d
  simp only [decode, h1, h, h2, h3]

theorem decode_encJump {mk : RegNum → RegNum → BitVec 14 → Instr} {sel : BitVec 2} (h : lookup sel jumpTable = some mk)
    (hint : BitVec 14) : decode (encJump ra rb sel hint) = .ok (mk ra rb hint) := by
  obtain ⟨h1, h2, h3, h4, h5⟩ := encJump_fields ra rb sel hint
  have hc : opClass 0x1A#6 = .jump := rfl
  simp only [decode, h1, hc, h2, h3, h4, h5, h]

theorem decode_encOpr {table : List (BitVec 7 × MkOpr)} {mk : MkOpr} {fn : BitVec 7} (h : opClass op = .opr table)
    (hf : lookup fn table = some mk) (b : RegOrLit) : decode (encOpr op fn ra b rc) = .ok (mk ra b rc) := by
  obtain ⟨h1, h2, h3, h4, h5⟩ := encOpr_fields op ra rc fn b
  simp only [decode, h1, h, h2, h3, h4, h5, hf]

theorem decode_encFp {table : List (BitVec 11 × MkFp)} {mk : MkFp} {fn : BitVec 11} (h : opClass op = .fp table)
    (hf : lookup fn table = some mk) : decode (encFp op fn ra rb rc) = .ok (mk ra rb rc) := by
  obtain ⟨h1, h2, h3, h4, h5⟩ := encFp_fields op ra rb rc fn
  simp only [decode, h1, h, h2, h3, h4, h5, hf]

theorem decode_encIeee {table : List (BitVec 11 × MkFp)} {mk : MkFp} {fn : BitVec 11} (h : opClass op = .ieee table)
    (hf : lookup fn table = some mk) : decode (encFp op fn ra rb rc) = .ok (mk ra rb rc) := by
  obtain ⟨h1, h2, h3, h4, h5⟩ := encFp_fields op ra rb rc fn
  simp only [decode, h1, h, h2, h3, h4, h5, hf]

theorem decode_encMisc {mk : MkMisc} {fn : BitVec 16} (h : lookup fn miscTable = some mk) :
    decode (encMisc fn ra rb) = .ok (mk ra rb) := by
  obtain ⟨h1, h2, h3, h4⟩ := encMisc_fields ra rb fn
  have hc : opClass 0x18#6 = .misc := rfl
  simp only [decode, h1, hc, h2, h3, h4, h]

theorem decode_encRes {mk : BitVec 26 → Instr} (h : opClass op = .res mk) (rest : BitVec 26) :
    decode (encPal op rest) = .ok (mk rest) := by
  obtain ⟨h1, h2⟩ := encPal_fields op rest
  simp only [decode, h1, h, h2]

theorem decode_encCallPal (f : BitVec 26) :
    decode (encPal 0x00#6 f) = .ok ((lookup f palTable).getD (.callPal f)) := by
  obtain ⟨h1, h2⟩ := encPal_fields 0x00#6 f
  have hc : opClass 0x00#6 = .pal := rfl
  simp only [decode, h1, hc, h2]

theorem decode_encHwLd (b15 b14 b13 b12 b11 b10 : Bool) (d : BitVec 10) :
    decode (encHwMem 0x1B#6 ra rb b15 b14 b13 b12 b11 b10 d) = .ok (.hwLd ra rb b15 b14 b13 b12 b11 b10 d) := by
  obtain ⟨h1, h2, h3, h4, h5, h6, h7, h8, h9, h10⟩ := encHwMem_fields 0x1B#6 ra rb b15 b14 b13 b12 b11 b10 d
  have hc : opClass 0x1B#6 = .hwLd := rfl
  simp only [decode, h1, hc, h2, h3, h4, h5, h6, h7, h8, h9, h10]

theorem decode_encHwSt (b15 b14 b13 b12 b11 b10 : Bool) (d : BitVec 10) :
    decode (encHwMem 0x1F#6 ra rb b15 b14 b13 b12 b11 b10 d) = .ok (.hwSt ra rb b15 b14 b13 b12 b11 b10 d) := by
  obtain ⟨h1, h2, h3, h4, h5, h6, h7, h8, h9, h10⟩ := encHwMem_fields 0x1F#6 ra rb b15 b14 b13 b12 b11 b10 d
  have hc : opClass 0x1F#6 = .hwSt := rfl
  simp only [decode, h1, hc, h2, h3, h4, h5, h6, h7, h8, h9, h10]

theorem decode_encHwRei (typ : BitVec 2) (mbz : BitVec 14) :
    decode (0x1E#6 ++ (ra ++ (rb ++ (typ ++ mbz)))) = .ok (.hwRei ra rb typ mbz) := by
  have h : fOp (0x1E#6 ++ (ra ++ (rb ++ (typ ++ mbz)))) = 0x1E#6 ∧ fRa (0x1E#6 ++ (ra ++ (rb ++ (typ ++ mbz)))) = ra ∧
      fRb (0x1E#6 ++ (ra ++ (rb ++ (typ ++ mbz)))) = rb ∧ fTop2 (0x1E#6 ++ (ra ++ (rb ++ (typ ++ mbz)))) = typ ∧
      fLow14 (0x1E#6 ++ (ra ++ (rb ++ (typ ++ mbz)))) = mbz := by
    simp (disch := omega) only [fOp, fRa, fRb, fTop2, fLow14, extract_cat_hi, extract_cat_lo]
    exact ⟨extract_all _, extract_all _, extract_all _, extract_all _, extract_all _⟩
  obtain ⟨h1, h2, h3, h4, h5⟩ := h
  have hc : opClass 0x1E#6 = .hwRei := rfl
  simp only [decode, h1, hc, h2, h3, h4, h5]

/-- The bytes of a word in memory give the word back. -/
theorem bytesWord_wordBytes (w : Longword) :
    bytesWord (w.extractLsb' 0 8) (w.extractLsb' 8 8) (w.extractLsb' 16 8) (w.extractLsb' 24 8) = w := by
  refine BitVec.eq_of_getLsbD_eq fun i hi => ?_
  rw [bytesWord]
  rcases Nat.lt_or_ge i 8 with h | h
  · simp (disch := omega) only [bit_cat_lo, BitVec.getLsbD_extractLsb', h, decide_true, Bool.true_and, Nat.zero_add]
  rcases Nat.lt_or_ge i 16 with h2 | h2
  · simp (disch := omega) only [bit_cat_lo, bit_cat_hi, BitVec.getLsbD_extractLsb', show i - 8 < 8 by omega,
      decide_true, Bool.true_and, show 8 + (i - 8) = i by omega]
  rcases Nat.lt_or_ge i 24 with h3 | h3
  · simp (disch := omega) only [bit_cat_lo, bit_cat_hi, BitVec.getLsbD_extractLsb', show i - (8 + 8) < 8 by omega,
      decide_true, Bool.true_and, show 16 + (i - (8 + 8)) = i by omega]
  · simp (disch := omega) only [bit_cat_hi, BitVec.getLsbD_extractLsb', show i - (8 + (8 + 8)) < 8 by omega,
      decide_true, Bool.true_and, show 24 + (i - (8 + (8 + 8))) = i by omega]

end Sys2Proof
end

