-- ==== Sys2Proof/Laws/Floating.lean ====
section
/-! SUPPORT. Every IEEE and VAX operate is its function code's operation between the floating-point gate and the common end. -/

namespace Sys2Proof.Machine

set_option maxRecDepth 8000

/-- The operation of an IEEE function code, gated and completed. -/
def State.ieeeRun (s : State) (fn : BitVec 11) (fa fb fc : RegNum) : Res State :=
  s.fpGate fun s => .next (s.finishFp fc (fn.getLsbD 10) (ieeeCode fn s.fpControl (s.readFp fa) (s.readFp fb)))

/-- The operation of a VAX function code, gated and completed. -/
def State.vaxRun (s : State) (fn : BitVec 11) (fa fb fc : RegNum) : Res State :=
  s.fpGate fun s => .next (s.finishFp fc (fn.getLsbD 10) (vaxCode fn s.fpControl (s.readFp fa) (s.readFp fb)))

theorem exec_fltiAdds : ∀ p ∈ fltiAdds, ∀ fa fb fc (s : State), exec (p.2 fa fb fc) s = s.ieeeRun p.1 fa fb fc := by
  intro p hp fa fb fc s
  fin_cases hp <;> rfl

theorem exec_fltiAddt : ∀ p ∈ fltiAddt, ∀ fa fb fc (s : State), exec (p.2 fa fb fc) s = s.ieeeRun p.1 fa fb fc := by
  intro p hp fa fb fc s
  fin_cases hp <;> rfl

theorem exec_fltiSubs : ∀ p ∈ fltiSubs, ∀ fa fb fc (s : State), exec (p.2 fa fb fc) s = s.ieeeRun p.1 fa fb fc := by
  intro p hp fa fb fc s
  fin_cases hp <;> rfl

theorem exec_fltiSubt : ∀ p ∈ fltiSubt, ∀ fa fb fc (s : State), exec (p.2 fa fb fc) s = s.ieeeRun p.1 fa fb fc := by
  intro p hp fa fb fc s
  fin_cases hp <;> rfl

theorem exec_fltiMuls : ∀ p ∈ fltiMuls, ∀ fa fb fc (s : State), exec (p.2 fa fb fc) s = s.ieeeRun p.1 fa fb fc := by
  intro p hp fa fb fc s
  fin_cases hp <;> rfl

theorem exec_fltiMult : ∀ p ∈ fltiMult, ∀ fa fb fc (s : State), exec (p.2 fa fb fc) s = s.ieeeRun p.1 fa fb fc := by
  intro p hp fa fb fc s
  fin_cases hp <;> rfl

theorem exec_fltiDivs : ∀ p ∈ fltiDivs, ∀ fa fb fc (s : State), exec (p.2 fa fb fc) s = s.ieeeRun p.1 fa fb fc := by
  intro p hp fa fb fc s
  fin_cases hp <;> rfl

theorem exec_fltiDivt : ∀ p ∈ fltiDivt, ∀ fa fb fc (s : State), exec (p.2 fa fb fc) s = s.ieeeRun p.1 fa fb fc := by
  intro p hp fa fb fc s
  fin_cases hp <;> rfl

theorem exec_fltiCmpteq : ∀ p ∈ fltiCmpteq, ∀ fa fb fc (s : State), exec (p.2 fa fb fc) s = s.ieeeRun p.1 fa fb fc := by
  intro p hp fa fb fc s
  fin_cases hp <;> rfl

theorem exec_fltiCmptlt : ∀ p ∈ fltiCmptlt, ∀ fa fb fc (s : State), exec (p.2 fa fb fc) s = s.ieeeRun p.1 fa fb fc := by
  intro p hp fa fb fc s
  fin_cases hp <;> rfl

theorem exec_fltiCmptle : ∀ p ∈ fltiCmptle, ∀ fa fb fc (s : State), exec (p.2 fa fb fc) s = s.ieeeRun p.1 fa fb fc := by
  intro p hp fa fb fc s
  fin_cases hp <;> rfl

theorem exec_fltiCmptun : ∀ p ∈ fltiCmptun, ∀ fa fb fc (s : State), exec (p.2 fa fb fc) s = s.ieeeRun p.1 fa fb fc := by
  intro p hp fa fb fc s
  fin_cases hp <;> rfl

theorem exec_fltiCvtqs : ∀ p ∈ fltiCvtqs, ∀ fa fb fc (s : State), exec (p.2 fa fb fc) s = s.ieeeRun p.1 fa fb fc := by
  intro p hp fa fb fc s
  fin_cases hp <;> rfl

theorem exec_fltiCvtqt : ∀ p ∈ fltiCvtqt, ∀ fa fb fc (s : State), exec (p.2 fa fb fc) s = s.ieeeRun p.1 fa fb fc := by
  intro p hp fa fb fc s
  fin_cases hp <;> rfl

theorem exec_fltiCvtts : ∀ p ∈ fltiCvtts, ∀ fa fb fc (s : State), exec (p.2 fa fb fc) s = s.ieeeRun p.1 fa fb fc := by
  intro p hp fa fb fc s
  fin_cases hp <;> rfl

theorem exec_fltiCvtst : ∀ p ∈ fltiCvtst, ∀ fa fb fc (s : State), exec (p.2 fa fb fc) s = s.ieeeRun p.1 fa fb fc := by
  intro p hp fa fb fc s
  fin_cases hp <;> rfl

theorem exec_fltiCvttq : ∀ p ∈ fltiCvttq, ∀ fa fb fc (s : State), exec (p.2 fa fb fc) s = s.ieeeRun p.1 fa fb fc := by
  intro p hp fa fb fc s
  fin_cases hp <;> rfl

theorem exec_fltvAddf : ∀ p ∈ fltvAddf, ∀ fa fb fc (s : State), exec (p.2 fa fb fc) s = s.vaxRun p.1 fa fb fc := by
  intro p hp fa fb fc s
  fin_cases hp <;> rfl

theorem exec_fltvAddg : ∀ p ∈ fltvAddg, ∀ fa fb fc (s : State), exec (p.2 fa fb fc) s = s.vaxRun p.1 fa fb fc := by
  intro p hp fa fb fc s
  fin_cases hp <;> rfl

theorem exec_fltvSubf : ∀ p ∈ fltvSubf, ∀ fa fb fc (s : State), exec (p.2 fa fb fc) s = s.vaxRun p.1 fa fb fc := by
  intro p hp fa fb fc s
  fin_cases hp <;> rfl

theorem exec_fltvSubg : ∀ p ∈ fltvSubg, ∀ fa fb fc (s : State), exec (p.2 fa fb fc) s = s.vaxRun p.1 fa fb fc := by
  intro p hp fa fb fc s
  fin_cases hp <;> rfl

theorem exec_fltvMulf : ∀ p ∈ fltvMulf, ∀ fa fb fc (s : State), exec (p.2 fa fb fc) s = s.vaxRun p.1 fa fb fc := by
  intro p hp fa fb fc s
  fin_cases hp <;> rfl

theorem exec_fltvMulg : ∀ p ∈ fltvMulg, ∀ fa fb fc (s : State), exec (p.2 fa fb fc) s = s.vaxRun p.1 fa fb fc := by
  intro p hp fa fb fc s
  fin_cases hp <;> rfl

theorem exec_fltvDivf : ∀ p ∈ fltvDivf, ∀ fa fb fc (s : State), exec (p.2 fa fb fc) s = s.vaxRun p.1 fa fb fc := by
  intro p hp fa fb fc s
  fin_cases hp <;> rfl

theorem exec_fltvDivg : ∀ p ∈ fltvDivg, ∀ fa fb fc (s : State), exec (p.2 fa fb fc) s = s.vaxRun p.1 fa fb fc := by
  intro p hp fa fb fc s
  fin_cases hp <;> rfl

theorem exec_fltvCmpgeq : ∀ p ∈ fltvCmpgeq, ∀ fa fb fc (s : State), exec (p.2 fa fb fc) s = s.vaxRun p.1 fa fb fc := by
  intro p hp fa fb fc s
  fin_cases hp <;> rfl

theorem exec_fltvCmpglt : ∀ p ∈ fltvCmpglt, ∀ fa fb fc (s : State), exec (p.2 fa fb fc) s = s.vaxRun p.1 fa fb fc := by
  intro p hp fa fb fc s
  fin_cases hp <;> rfl

theorem exec_fltvCmpgle : ∀ p ∈ fltvCmpgle, ∀ fa fb fc (s : State), exec (p.2 fa fb fc) s = s.vaxRun p.1 fa fb fc := by
  intro p hp fa fb fc s
  fin_cases hp <;> rfl

theorem exec_fltvCvtgf : ∀ p ∈ fltvCvtgf, ∀ fa fb fc (s : State), exec (p.2 fa fb fc) s = s.vaxRun p.1 fa fb fc := by
  intro p hp fa fb fc s
  fin_cases hp <;> rfl

theorem exec_fltvCvtgd : ∀ p ∈ fltvCvtgd, ∀ fa fb fc (s : State), exec (p.2 fa fb fc) s = s.vaxRun p.1 fa fb fc := by
  intro p hp fa fb fc s
  fin_cases hp <;> rfl

theorem exec_fltvCvtqf : ∀ p ∈ fltvCvtqf, ∀ fa fb fc (s : State), exec (p.2 fa fb fc) s = s.vaxRun p.1 fa fb fc := by
  intro p hp fa fb fc s
  fin_cases hp <;> rfl

theorem exec_fltvCvtqg : ∀ p ∈ fltvCvtqg, ∀ fa fb fc (s : State), exec (p.2 fa fb fc) s = s.vaxRun p.1 fa fb fc := by
  intro p hp fa fb fc s
  fin_cases hp <;> rfl

theorem exec_fltvCvtdg : ∀ p ∈ fltvCvtdg, ∀ fa fb fc (s : State), exec (p.2 fa fb fc) s = s.vaxRun p.1 fa fb fc := by
  intro p hp fa fb fc s
  fin_cases hp <;> rfl

theorem exec_fltvCvtgq : ∀ p ∈ fltvCvtgq, ∀ fa fb fc (s : State), exec (p.2 fa fb fc) s = s.vaxRun p.1 fa fb fc := by
  intro p hp fa fb fc s
  fin_cases hp <;> rfl

/-- Every instruction of the table. -/
theorem exec_fltiTable : ∀ p ∈ fltiTable, ∀ fa fb fc (s : State), exec (p.2 fa fb fc) s = s.ieeeRun p.1 fa fb fc := by
  intro p hp
  simp only [fltiTable, List.mem_append] at hp
  rcases hp with (((((((((((((((hp | hp) | hp) | hp) | hp) | hp) | hp) | hp) | hp) | hp) | hp) | hp) | hp) | hp) | hp) | hp) | hp
  · exact exec_fltiAdds p hp
  · exact exec_fltiAddt p hp
  · exact exec_fltiSubs p hp
  · exact exec_fltiSubt p hp
  · exact exec_fltiMuls p hp
  · exact exec_fltiMult p hp
  · exact exec_fltiDivs p hp
  · exact exec_fltiDivt p hp
  · exact exec_fltiCmpteq p hp
  · exact exec_fltiCmptlt p hp
  · exact exec_fltiCmptle p hp
  · exact exec_fltiCmptun p hp
  · exact exec_fltiCvtqs p hp
  · exact exec_fltiCvtqt p hp
  · exact exec_fltiCvtts p hp
  · exact exec_fltiCvtst p hp
  · exact exec_fltiCvttq p hp

/-- Every instruction of the table. -/
theorem exec_fltvTable : ∀ p ∈ fltvTable, ∀ fa fb fc (s : State), exec (p.2 fa fb fc) s = s.vaxRun p.1 fa fb fc := by
  intro p hp
  simp only [fltvTable, List.mem_append] at hp
  rcases hp with (((((((((((((((hp | hp) | hp) | hp) | hp) | hp) | hp) | hp) | hp) | hp) | hp) | hp) | hp) | hp) | hp) | hp) | hp
  · exact exec_fltvAddf p hp
  · exact exec_fltvAddg p hp
  · exact exec_fltvSubf p hp
  · exact exec_fltvSubg p hp
  · exact exec_fltvMulf p hp
  · exact exec_fltvMulg p hp
  · exact exec_fltvDivf p hp
  · exact exec_fltvDivg p hp
  · exact exec_fltvCmpgeq p hp
  · exact exec_fltvCmpglt p hp
  · exact exec_fltvCmpgle p hp
  · exact exec_fltvCvtgf p hp
  · exact exec_fltvCvtgd p hp
  · exact exec_fltvCvtqf p hp
  · exact exec_fltvCvtqg p hp
  · exact exec_fltvCvtdg p hp
  · exact exec_fltvCvtgq p hp

end Sys2Proof.Machine
end

