-- ==== Sys2Proof/Laws/Quiet.lean ====
section
/-! SUPPORT. What the buffers and the caches may change when they work on their own, once for every operation: `Quiet s t` says
that `t` is `s` but for registers that loads deliver to, the lock flag and address, the correctable-error request, the Cbox registers, the
caches and buffers, main memory, which stays in canonical form, and the model's own records. -/

namespace Sys2Proof.Machine

/-- The state with every field that the buffers and caches change on their own put out of sight. -/
def State.core (s : State) : State :=
  { s with
    ints := State.reset.ints, shadow := State.reset.shadow, fregs := State.reset.fregs, lockFlag := false, lockAddr := 0#40
    ibox := { s.ibox with crdReq := false }
    cbox := Cbox.reset, icache := State.reset.icache, dcache := State.reset.dcache, wb := [], maf := [], imaf := []
    mbWaits := false, scache := [], victims := [], bcTags := [], bcDatas := [], miss0 := none, miss1 := none, cmds := []
    mchkPending := false, mem := [], answers := [], busOut := [], freeCount := 0, tally := [] }

/-- Only what the buffers and caches change on their own has changed. -/
structure Quiet (s t : State) : Prop where
  mem : s.memOk → t.memOk
  core : t.core = s.core

namespace Quiet

variable {s t u : State}

theorem refl (s : State) : Quiet s s := ⟨id, rfl⟩

theorem trans (h : Quiet s t) (h' : Quiet t u) : Quiet s u := ⟨fun a => h'.mem (h.mem a), h'.core.trans h.core⟩

theorem of_eq (hm : t.mem = s.mem) (hc : t.core = s.core) : Quiet s t :=
  ⟨fun h => by unfold State.memOk at *; rw [hm]; exact h, hc⟩

theorem pc (h : Quiet s t) : t.pc = s.pc := by have := congrArg State.pc h.core; exact this
theorem palmode (h : Quiet s t) : t.palmode = s.palmode := by have := congrArg State.palmode h.core; exact this
theorem mbox (h : Quiet s t) : t.mbox = s.mbox := by have := congrArg State.mbox h.core; exact this
theorem pins (h : Quiet s t) : t.pins = s.pins := by have := congrArg State.pins h.core; exact this
theorem excAddr (h : Quiet s t) : t.ibox.excAddr = s.ibox.excAddr := by have := congrArg (fun u : State => u.ibox.excAddr) h.core; exact this
theorem icsr (h : Quiet s t) : t.ibox.icsr = s.ibox.icsr := by have := congrArg (fun u : State => u.ibox.icsr) h.core; exact this

theorem foldl {α : Type} {f : State → α → State} (h : ∀ s a, Quiet s (f s a)) (l : List α) :
    ∀ s, Quiet s (l.foldl f s) := by
  induction l with
  | nil => exact fun s => .refl s
  | cons a l ih => exact fun s => (h s a).trans (ih _)

/-- Either of two ways. -/
theorem ite {c : Prop} [Decidable c] (h : Quiet s t) (h' : Quiet s u) : Quiet s (if c then t else u) := by
  split
  · exact h
  · exact h'

theorem ite_snd {α : Type} {c : Prop} [Decidable c] {a b : α × State} (h : Quiet s a.2) (h' : Quiet s b.2) :
    Quiet s (if c then a else b).2 := by
  split
  · exact h
  · exact h'

end Quiet

variable (s : State)

/-- Something done under watch. -/
theorem Quiet.watch {f : State → State} (h : ∀ u, Quiet u (f u)) : Quiet s (s.watch f).2 :=
  ((Quiet.of_eq (s := s) (t := { s with mchkPending := false }) rfl rfl).trans (h _)).trans (.of_eq rfl rfl)

/-! ## Records, the Cbox registers, the Dcache -/

theorem Quiet.drawn : Quiet s s.drawn := .of_eq rfl rfl
theorem Quiet.drive (e : BusEvent) : Quiet s (s.drive e) := .of_eq rfl rfl
theorem Quiet.noteEvent (e : CboxEvent) : Quiet s (s.noteEvent e) := .of_eq rfl rfl

theorem Quiet.takeAnswer (m : Bool) : Quiet s (s.takeAnswer m).2 := by
  unfold State.takeAnswer
  split
  · exact .refl s
  · exact .of_eq rfl rfl

theorem Quiet.scError (t : BitVec 3) (d : BitVec 8) (c : ScCommand) (pa : PAddr) : Quiet s (s.scError t d c pa) := by
  unfold State.scError
  split
  · exact .refl s
  · split <;> exact .of_eq rfl rfl

theorem Quiet.hardError (b : EiBits) (m i : Bool) (pa : PAddr) (y : BitVec 16) : Quiet s (s.hardError b m i pa y) := by
  unfold State.hardError
  split
  · exact .refl s
  · split <;> exact .of_eq rfl rfl

theorem Quiet.recordCorrectable (m i : Bool) (pa : PAddr) (y : BitVec 16) : Quiet s (s.recordCorrectable m i pa y) := by
  unfold State.recordCorrectable
  split
  · exact .refl s
  · split <;> exact .of_eq rfl rfl

theorem Quiet.dcMap (f : List DcLine → List DcLine) : Quiet s (s.dcMap f) := .of_eq rfl rfl
theorem Quiet.dcFlush : Quiet s s.dcFlush := .of_eq rfl rfl
theorem Quiet.dcInvalidate (pa : PAddr) : Quiet s (s.dcInvalidate pa) := .of_eq rfl rfl

theorem Quiet.dcFill (pa : PAddr) (d : Hexword) : Quiet s (s.dcFill pa d) := by
  unfold State.dcFill
  split
  · exact .of_eq rfl rfl
  · exact .refl s

theorem Quiet.correctableError (m i : Bool) (pa : PAddr) (y : BitVec 16) : Quiet s (s.correctableError m i pa y) :=
  ((Quiet.recordCorrectable s m i pa y).trans (Quiet.dcFlush _)).trans (.of_eq rfl rfl)

theorem Quiet.checkBeat (m i : Bool) (pa : PAddr) (x : Beat) : Quiet s (s.checkBeat m i pa x) := by
  unfold State.checkBeat
  dsimp only
  split
  · exact .refl s
  · split
    · exact .ite (.refl s) (Quiet.correctableError ..)
    · exact Quiet.hardError ..

/-! ## The Scache -/

theorem Quiet.scTagLoad (b : Block) : Quiet s (s.scTagLoad b) := .of_eq rfl rfl

theorem Quiet.scLookup (c : ScCommand) (pa : PAddr) (l : List Block) : Quiet s (s.scLookup c pa l) := by
  unfold State.scLookup
  dsimp only
  split
  · exact .ite (.refl s) (Quiet.scTagLoad ..)
  · split
    · exact Quiet.scError ..
    · exact .ite (.refl s) (Quiet.scError ..)

theorem Quiet.scUpdate (b : Block) (f : ScSub → ScSub) : Quiet s (s.scUpdate b f) := .of_eq rfl rfl
theorem Quiet.scInvalidate (b : Block) : Quiet s (s.scInvalidate b) := .of_eq rfl rfl
theorem Quiet.scForcedStore (b : Block) (m : BitVec 8) (d : Hexword) : Quiet s (s.scForcedStore b m d) := .of_eq rfl rfl
theorem Quiet.scFlush : Quiet s s.scFlush := .of_eq rfl rfl

/-! ## The Bcache -/

theorem Quiet.bcStoreTag (l : BcTag) : Quiet s (s.bcStoreTag l) := by
  unfold State.bcStoreTag
  exact .ite (.of_eq rfl rfl) (.refl s)

theorem Quiet.bcStoreData (l : BcData) : Quiet s (s.bcStoreData l) := by
  unfold State.bcStoreData
  exact .ite (.of_eq rfl rfl) (.refl s)

theorem Quiet.bcWriteTag (b : Block) (v x y : Bool) : Quiet s (s.bcWriteTag b v x y) := Quiet.bcStoreTag ..

theorem Quiet.bcWrite (b : Block) (o : BitVec 2) (d : Hexword) (x y : Bool) : Quiet s (s.bcWrite b o d x y) :=
  (Quiet.bcStoreData ..).trans (Quiet.bcWriteTag ..)

theorem Quiet.bcWriteBeats (b : Block) (lo hi : Beat) (x y : Bool) : Quiet s (s.bcWriteBeats b lo hi x y) :=
  (Quiet.bcStoreData ..).trans (Quiet.bcWriteTag ..)

theorem Quiet.bcProbe (i y : Bool) (pa : PAddr) : Quiet s (s.bcProbe i y pa) := by
  have h : ∀ w e, Quiet s (State.noteEvent { s.drawn with cbox := { s.cbox with bcTagAddr := w } } e) := fun _ _ => .of_eq rfl rfl
  exact .ite (h ..) ((h ..).trans (Quiet.hardError ..))

/-! ## Main memory and victims -/

theorem Quiet.writeMem (b : Block) (m : BitVec 8) (h : Hexword) : Quiet s (s.writeMem b m h) :=
  ⟨fun hm => ⟨Memory.wf_writeBlock hm.1 b m h, Memory.below_writeBlock hm.2 b m h⟩, rfl⟩

theorem Quiet.writeVictim (l : ScLine) : Quiet s (s.writeVictim l) := by
  have h := (Quiet.writeMem s (l.block false) (s.victimMask l false) (l.half false).data).trans
    (Quiet.writeMem _ (l.block true) (s.victimMask l true) (l.half true).data)
  have hd : ∀ (c : Bool) (t : State) e, Quiet t (if c then t.drive e else t) := fun _ _ _ => .ite (Quiet.drive ..) (.refl _)
  exact .ite (h.trans (Quiet.drive ..)) ((h.trans (hd ..)).trans (hd ..))

theorem Quiet.writeVictims : Quiet s s.writeVictims :=
  (Quiet.of_eq (s := s) (t := { s with victims := [] }) rfl rfl).trans (Quiet.foldl Quiet.writeVictim _ _)

theorem Quiet.victimRoom : Quiet s s.victimRoom := by
  unfold State.victimRoom
  split
  · exact .ite ((Quiet.of_eq (s := s) (t := { s with victims := s.victims.tail }) rfl rfl).trans (Quiet.writeVictim ..))
      (Quiet.writeVictims s)
  · exact .refl s

theorem Quiet.pushVictim (l : ScLine) : Quiet s (s.pushVictim l) := (Quiet.victimRoom s).trans (.of_eq rfl rfl)

theorem Quiet.settleVictims (b : Block) : Quiet s (s.settleVictims b) :=
  .ite (.ite ((Quiet.of_eq (s := s) (t := { s with victims := s.victims.filter fun l => !l.holds b }) rfl rfl).trans
    (Quiet.foldl Quiet.writeVictim _ _)) (Quiet.writeVictims s)) (.refl s)

theorem Quiet.bcTake (h : Bool) (b : Block) (x : ScSub) : Quiet s (s.bcTake h b x) := Quiet.bcWrite ..

theorem Quiet.displaceSub (l : ScLine) (h u : Bool) : Quiet s (s.displaceSub l h u) := by
  have hi := Quiet.dcInvalidate s (granuleAddr (l.block u))
  exact .ite (.ite (hi.trans (Quiet.bcTake ..)) hi) (.refl s)

theorem Quiet.checkVictim (l : ScLine) : Quiet s (s.checkVictim l) := by
  unfold State.checkVictim
  exact .ite (.refl s) (Quiet.scError ..)

theorem Quiet.displace (way : Fin 3) (idx : Nat) : Quiet s (s.displace way idx) := by
  unfold State.displace
  dsimp only
  generalize scGet way idx s.scache = l
  generalize s.bcHit (l.block false) = a
  generalize s.bcHit (l.block true) = b
  have h2 : Quiet s { (s.displaceSub l a false).displaceSub l b true with
      scache := scPut l.flushed ((s.displaceSub l a false).displaceSub l b true).scache } :=
    ((Quiet.displaceSub ..).trans (Quiet.displaceSub ..)).trans (.of_eq rfl rfl)
  have h3 := h2.trans (Quiet.noteEvent _ .scVictim)
  exact .ite (Quiet.trans (.ite h3 (h3.trans (Quiet.pushVictim ..))) (Quiet.checkVictim ..)) h2

theorem Quiet.scMakeRoom (w : Fin 3) (b : Block) : Quiet s (s.scMakeRoom w b) := .ite (.refl s) (Quiet.displace ..)

theorem Quiet.scFill (w : Fin 3) (b : Block) (d : Block → Hexword) (x y : Bool) : Quiet s (s.scFill w b d x y) :=
  (Quiet.scMakeRoom s w b).trans (.of_eq rfl rfl)

theorem Quiet.bcReclaim (g : Block) : Quiet s (s.bcReclaim g) := by
  unfold State.bcReclaim
  dsimp only
  split
  · refine Quiet.trans ?_ (Quiet.scInvalidate ..)
    split
    · exact .ite (Quiet.bcTake ..) (.refl s)
    · exact .refl s
  · exact .refl s

theorem Quiet.bcCastOut (b : Block) : Quiet s (s.bcCastOut b) := by
  have h : Quiet s (if (s.bcTagAt b).dirty then
      (s.blockGranules b).foldl (fun t g => t.writeMem (s.bcOccupant g) 0xFF#8 (s.bcDataAt g).data) s else s) :=
    .ite (Quiet.foldl (fun _ _ => Quiet.writeMem ..) _ _) (.refl s)
  exact .ite (h.trans (Quiet.bcStoreTag ..)) (.refl s)

theorem Quiet.bcEvict (pa : PAddr) : Quiet s (s.bcEvict pa).2 := by
  have h := (Quiet.foldl Quiet.bcReclaim (s.blockGranules (granule pa)) s).trans (Quiet.bcCastOut _ (granule pa))
  exact .ite_snd (h.trans (Quiet.noteEvent ..)) h

/-! ## System commands -/

theorem Quiet.dropLock : Quiet s s.dropLock := .of_eq rfl rfl

theorem Quiet.unlockBlock (pa : PAddr) : Quiet s (s.unlockBlock pa) := .ite (Quiet.dropLock s) (.refl s)

theorem Quiet.removeGranule (c : SysCommand) (g : Block) : Quiet s (s.removeGranule c g) :=
  .ite ((Quiet.scInvalidate s g).trans (Quiet.bcWriteTag ..)) (Quiet.scInvalidate s g)

theorem Quiet.shareDirty (a : Answer) (g : Block) : Quiet s (s.shareDirty a g) := by
  unfold State.shareDirty
  split
  · exact .refl s
  · exact .ite ((Quiet.scUpdate ..).trans (Quiet.bcWrite ..)) (Quiet.scUpdate ..)
  · exact (Quiet.scUpdate ..).trans (Quiet.bcWriteTag ..)

theorem Quiet.commandGranule (c : SysCommand) (a : Answer) (pa : PAddr) (g : Block) : Quiet s (s.commandGranule c a pa g) := by
  have h : Quiet s (if c.removes && dataFollows c a then s.writeMem g 0xFF#8 (s.answerData pa g) else s) :=
    .ite (Quiet.writeMem ..) (.refl s)
  unfold State.commandGranule
  dsimp only
  split
  · exact h.trans (Quiet.removeGranule ..)
  · exact h.trans (Quiet.removeGranule ..)
  · exact h.trans (Quiet.removeGranule ..)
  · exact .ite ((h.trans (Quiet.scUpdate ..)).trans (Quiet.bcWriteTag ..)) (h.trans (Quiet.scUpdate ..))
  · exact h.trans (Quiet.shareDirty ..)
  · exact h

theorem Quiet.commandLookup (c : SysCommand) (pa : PAddr) : Quiet s (s.commandLookup c pa) := by
  have h1 := Quiet.foldl Quiet.settleVictims (s.blockGranules (granule pa)) s
  have h := h1.trans (Quiet.scLookup ((s.blockGranules (granule pa)).foldl State.settleVictims s) c.scCommand pa
    ((s.wrapOrder pa).map (s.octGranule (granule pa))))
  exact .ite (.ite (h.trans (Quiet.bcProbe ..)) h) (.refl s)

theorem Quiet.answerCommand (c : SysCommand) (pa : PAddr) : Quiet s (s.answerCommand c pa) := .of_eq rfl rfl

theorem Quiet.commandEffect (c : SysCommand) (a : Answer) (pa : PAddr) : Quiet s (s.commandEffect c a pa) := by
  have h : Quiet s (if regionOf pa = .memory then
      (s.blockGranules (granule pa)).foldl (fun t g => t.commandGranule c a pa g) s else s) :=
    .ite (Quiet.foldl (fun t g => Quiet.commandGranule t c a pa g) _ s) (.refl s)
  exact .ite (h.trans (Quiet.unlockBlock ..)) h

theorem Quiet.serveCommand (c : SysCommand) (pa : PAddr) : Quiet s (s.serveCommand c pa) :=
  ((Quiet.commandLookup s c pa).trans (Quiet.answerCommand ..)).trans (Quiet.commandEffect ..)

theorem Quiet.serveWaiting (w : Waiting) : Quiet s (s.serveWaiting w) := by
  cases w with
  | command c pa => exact Quiet.serveCommand s c pa
  | bad => exact Quiet.drive ..

theorem Quiet.interpose (e : BusEvent) : Quiet s (s.interpose e) := by
  unfold State.interpose
  split
  · exact .refl s
  · exact (Quiet.of_eq (s := s) (t := (s.drive e).clearBefore) rfl rfl).trans
      (Quiet.foldl (fun t (p : SysCommand × PAddr) => Quiet.serveCommand t p.1 p.2) _ _)

/-! ## Fills -/

theorem Quiet.holdMiss (m : Miss) : Quiet s (s.holdMiss m) := .ite (.of_eq rfl rfl) (.of_eq rfl rfl)

theorem Quiet.driveMiss (c : BusEvent) (v : Option (PAddr × BusEvent)) : Quiet s (s.driveMiss c v) := by
  unfold State.driveMiss
  split
  · exact Quiet.drive ..
  · exact .ite ((Quiet.drive ..).trans (Quiet.drive ..)) (((Quiet.drive ..).trans (Quiet.drive ..)).trans (Quiet.drive ..))

theorem Quiet.missPlan (w : Want) (pa : PAddr) : Quiet s (s.missPlan w pa).after := by
  have h := (Quiet.scMakeRoom s (s.scVictimWay (granule pa)) (granule pa)).trans (Quiet.drawn _)
  exact .ite_snd (h.trans (Quiet.bcEvict ..)) h

theorem Quiet.sendMiss (w : Want) (pa : PAddr) : Quiet s (s.sendMiss w pa).2 := (Quiet.missPlan s w pa).trans (Quiet.driveMiss ..)

theorem Quiet.checkFill (a : SysAnswer) (i : Bool) (pa : PAddr) : Quiet s (s.checkFill a i pa) :=
  (Quiet.of_eq (s := s) (t := { s with mchkPending := s.mchkPending || a.fillError }) rfl rfl).trans
    (Quiet.foldl (fun _ _ => Quiet.checkBeat ..) _ _)

theorem Quiet.bcFill (a : SysAnswer) (pa : PAddr) (f : Block → Nat → Beat) : Quiet s (s.bcFill a pa f) :=
  Quiet.foldl (fun _ _ => Quiet.bcWriteBeats ..) _ s

theorem Quiet.takeFill (w : Want) (k : Fin 3) (a : SysAnswer) (pa : PAddr) : Quiet s (s.takeFill w k a pa).2 := by
  have h1 : Quiet s (s.watch fun u => u.checkFill a w.istream pa).2 := .watch s fun u => Quiet.checkFill u a w.istream pa
  unfold State.takeFill
  dsimp only
  refine .ite ?_ (h1.trans (Quiet.scFill ..))
  refine ((h1.trans ?_).trans (Quiet.bcFill ..)).trans (Quiet.scFill ..)
  have h2 := Quiet.bcEvict (s.watch fun u => u.checkFill a w.istream pa).2 pa
  split
  · rename_i hv; rw [hv] at h2; exact h2.trans (Quiet.drive ..)
  · rename_i hv; rw [hv] at h2; exact h2

theorem Quiet.takeFromBcache (w : Want) (pa : PAddr) : Quiet s (s.takeFromBcache w pa).2 :=
  ((Quiet.watch s fun u => Quiet.foldl (fun _ _ => Quiet.checkBeat ..) _ u).trans (Quiet.scFill ..)).trans (Quiet.drawn _)

theorem Quiet.bringBlock (w : Want) (k : Option MissKind) (pa : PAddr) : Quiet s (s.bringBlock w k pa).after := by
  have h : Quiet s (if (s.settleVictims (granule pa)).bcEnabled then
      (s.settleVictims (granule pa)).watch fun u => u.bcProbe w.istream false pa else (false, s.settleVictims (granule pa))).2 :=
    (Quiet.settleVictims s (granule pa)).trans (.ite_snd (.watch _ fun u => Quiet.bcProbe ..) (.refl _))
  have h1 : ∀ u : State, Quiet u (((u.interpose (u.missFirst w pa)).sendMiss w pa).2.takeAnswer w.modify).2 := fun u =>
    ((Quiet.interpose u _).trans (Quiet.sendMiss ..)).trans (Quiet.takeAnswer ..)
  unfold State.bringBlock
  dsimp only
  split
  · exact h.trans (Quiet.takeFromBcache ..)
  · split
    · exact (h.trans (h1 _)).trans (Quiet.holdMiss ..)
    · exact (h.trans (h1 _)).trans (Quiet.takeFill ..)

theorem Quiet.cachedRead (w : Want) (k : Option MissKind) (pa : PAddr) : Quiet s (s.cachedRead w k pa).after := by
  have h : Quiet s (s.watch fun u => (u.scLookup w.scCommand pa [granule pa]).noteEvent
      (.scache false (s.scLine (granule pa)).isSome)).2 :=
    .watch s fun u => (Quiet.scLookup u ..).trans (Quiet.noteEvent ..)
  unfold State.cachedRead
  dsimp only
  split
  · exact h
  · exact h.trans (Quiet.bringBlock ..)

theorem Quiet.deviceFill (a : SysAnswer) (i : Bool) (pa : PAddr) : Quiet s (s.deviceFill a i pa).2 :=
  .watch s fun u => ((Quiet.of_eq (s := u) (t := { u with
    freeCount := u.freeCount + 4, mchkPending := u.mchkPending || a.fillError }) rfl rfl).trans
    (Quiet.checkBeat ..)).trans (Quiet.checkBeat ..)

theorem Quiet.deviceRead (i : Bool) (k : Option MissKind) (pa : PAddr) (q : BitVec 4) :
    Quiet s (s.deviceRead i k pa q).2.after := by
  have h := ((Quiet.interpose s (.readMiss s.missRegister none false (pa &&& ~~~15#40) q)).trans
    (Quiet.drive _ (.readMiss s.missRegister none false (pa &&& ~~~15#40) q))).trans (Quiet.takeAnswer _ false)
  unfold State.deviceRead
  dsimp only
  split
  · exact h.trans (Quiet.holdMiss ..)
  · exact h.trans (Quiet.deviceFill ..)

/-! ## Registers, and the fills of the miss registers -/

theorem Quiet.writeSlot (n : IntSlot) (v : Word) : Quiet s (s.writeSlot n v) := by
  unfold State.writeSlot
  split <;> exact .of_eq rfl rfl

theorem Quiet.writeFp (n : RegNum) (v : Word) : Quiet s (s.writeFp n v) := by
  unfold State.writeFp
  split
  · exact .of_eq rfl rfl
  · exact .refl s

theorem Quiet.deliver (t : LoadTarget) (v : Word) : Quiet s (s.deliver t v) := by
  unfold State.deliver
  split
  · exact Quiet.writeSlot ..
  · exact Quiet.writeFp ..

theorem Quiet.deliverAny (t : LoadTarget) (q : Bool) : Quiet s (s.deliverAny t q) := (Quiet.deliver s _ _).trans (Quiet.drawn _)

theorem Quiet.deliverFill (b : Bool) (h : Hexword) (l : MafLoad) : Quiet s (s.deliverFill b h l) :=
  .ite (Quiet.deliverAny ..) (Quiet.deliver ..)

theorem Quiet.refillPut (b : Block) (h : Hexword) : Quiet s (s.refillPut b h) := .of_eq rfl rfl

theorem Quiet.ifTaken (b : Bool) {f : State → State} (h : Quiet s (f s)) : Quiet s (s.ifTaken b f) :=
  .ite (.ite (h.trans (Quiet.drawn _)) (Quiet.drawn s)) h

theorem Quiet.clearMiss (r : Bool) : Quiet s (s.clearMiss r) := .ite (.of_eq rfl rfl) (.of_eq rfl rfl)

theorem Quiet.arrives (k : MissKind) (pa : PAddr) (b : Bool) (h : Hexword) : Quiet s (s.arrives k pa b h) := by
  cases k with
  | prefetch => exact Quiet.ifTaken s b (f := fun t => t.refillPut (granule pa) h) (Quiet.refillPut ..)
  | load e =>
    have hd : Quiet s (if e.conflict || pa.getLsbD 39 then s else s.dcFill pa h) := .ite (.refl s) (Quiet.dcFill ..)
    exact hd.trans (Quiet.foldl (fun t l => Quiet.deliverFill t b h l) _ _)
  | store => exact .refl s

theorem Quiet.takeMiss (r : Bool) (a : SysAnswer) : Quiet s (s.takeMiss r a) := by
  unfold State.takeMiss
  split
  · exact .refl s
  · exact .ite (((Quiet.clearMiss s r).trans (Quiet.takeFill ..)).trans (Quiet.arrives ..))
      (((Quiet.clearMiss s r).trans (Quiet.deviceFill ..)).trans (Quiet.arrives ..))

theorem Quiet.awaitMiss (r : Bool) : Quiet s (s.awaitMiss r) := by
  unfold State.awaitMiss
  split
  · exact .refl s
  · exact (Quiet.takeAnswer ..).trans (Quiet.takeMiss ..)

theorem Quiet.awaitFills : Quiet s s.awaitFills := (Quiet.awaitMiss ..).trans (Quiet.awaitMiss ..)

/-- One fill or another is awaited, or none. -/
theorem Quiet.awaitIf (c : Prop) [Decidable c] (r : Bool) : Quiet s (if c then s.awaitMiss r else s) :=
  .ite (Quiet.awaitMiss ..) (.refl s)

theorem Quiet.readyMiss (pa : PAddr) : Quiet s (s.readyMiss pa) := by
  have h : Quiet s (if s.victimsDue pa then s.awaitFills else s) := .ite (Quiet.awaitFills s) (.refl s)
  exact (h.trans (Quiet.awaitIf ..)).trans (Quiet.awaitIf ..)

theorem Quiet.awaitStore : Quiet s s.awaitStore := .ite (Quiet.awaitMiss ..) (Quiet.awaitIf ..)

theorem Quiet.awaitLoadFills : Quiet s s.awaitLoadFills := (Quiet.awaitIf ..).trans (Quiet.awaitIf ..)

/-! ## Prefetches -/

theorem Quiet.sendPrefetch {pa : PAddr} {t : State} (h : s.sendPrefetch pa = some t) : Quiet s t := by
  unfold State.sendPrefetch at h
  dsimp only at h
  split at h
  · injection h with h; exact h ▸ .refl s
  · split at h
    · cases h
    · injection h with h; exact h ▸ (Quiet.drive ..).trans (Quiet.holdMiss ..)
  · split at h
    · injection h with h; exact h ▸ .refl s
    · split at h
      · cases h
      · split at h
        · injection h with h
          exact h ▸ (Quiet.cachedRead s ..).trans (Quiet.arrives ..)
        · split at h
          · cases h
          · injection h with h
            have h1 := (Quiet.scLookup s .iread pa [granule pa]).trans (Quiet.noteEvent _ (.scache false false))
            exact h ▸ (Quiet.trans (.ite (h1.trans (Quiet.bcProbe ..)) h1) (Quiet.sendMiss ..)).trans (Quiet.holdMiss ..)

theorem Quiet.sendPrefetches (l : List PAddr) : ∀ s, Quiet s (State.sendPrefetches s l) := by
  induction l with
  | nil => exact fun s => .of_eq rfl rfl
  | cons pa rest ih =>
    intro s
    rw [State.sendPrefetches]
    split
    · rename_i t h
      exact (Quiet.sendPrefetch s h).trans (ih t)
    · exact .of_eq rfl rfl

/-! ## Write-buffer entries -/

/-- The state an attempt leaves. -/
def Attempt.state : Attempt → State
  | .done _ s | .again s | .waits s => s

theorem Quiet.ite_state {c : Prop} [Decidable c] {a b : Attempt} (h : Quiet s a.state) (h' : Quiet s b.state) :
    Quiet s (if c then a else b).state := by
  split
  · exact h
  · exact h'

theorem Quiet.writeShared (w : Want) (e : WbEntry) : Quiet s (s.writeShared w e).state := by
  unfold State.writeShared
  dsimp only
  have h0 := (Quiet.awaitFills s).trans (Quiet.victimRoom _)
  split
  · exact h0.trans (Quiet.interpose ..)
  · have h1 : ∀ b, Quiet s (((s.awaitFills.victimRoom.noteEvent .sharedWrite).drive b).takeAnswer false).2 := fun b =>
      ((h0.trans (Quiet.noteEvent ..)).trans (Quiet.drive ..)).trans (Quiet.takeAnswer ..)
    split
    · exact h1 _
    · refine (h1 _).trans (Quiet.foldl (fun t g => ?_) _ _)
      exact Quiet.trans (.ite ((Quiet.scUpdate ..).trans (Quiet.bcWrite ..)) (Quiet.scUpdate ..)) (Quiet.writeMem ..)

theorem Quiet.writeOwned (e : WbEntry) : Quiet s (s.writeOwned e) := Quiet.foldl (fun _ _ => Quiet.scUpdate ..) _ s

theorem Quiet.writeClean (e : WbEntry) : Quiet s (s.writeClean e).state := by
  unfold State.writeClean
  dsimp only
  split
  · exact (Quiet.awaitFills s).trans (Quiet.interpose ..)
  · exact (((Quiet.awaitFills s).trans (Quiet.drive ..)).trans (Quiet.takeAnswer ..)).trans (Quiet.writeOwned ..)

theorem Quiet.tryWrite (w : Want) (e : WbEntry) : Quiet s (s.tryWrite w e).state := by
  unfold State.tryWrite
  split
  · have h := ((Quiet.scLookup s .dwrite e.address []).trans (Quiet.noteEvent _ (.scache true false))).trans
      (Quiet.bringBlock _ w (if w = .store then some .store else none) e.address)
    exact .ite_state s h h
  · rename_i l _
    have h := (Quiet.scLookup s .dwrite e.address (if (l.sub e.block).shared then s.blockGranules e.block else [e.block])).trans
      (Quiet.noteEvent _ (.scache true true))
    exact .ite_state s (h.trans (Quiet.writeShared ..)) (.ite_state s (h.trans (Quiet.writeOwned ..)) (h.trans (Quiet.writeClean ..)))

theorem Quiet.writeLoop (n : Nat) (w : Want) (e : WbEntry) : ∀ s, Quiet s (State.writeLoop n s w e).state := by
  induction n with
  | zero => exact fun s => .refl s
  | succ n ih =>
    intro s
    have h := Quiet.tryWrite s w e
    rw [State.writeLoop]
    split
    · exact .refl s
    · split
      · rename_i t ht
        rw [ht] at h
        exact h.trans (ih t)
      · exact h

theorem Quiet.writeScache (w : Want) (e : WbEntry) : Quiet s (s.writeScache w e).state := by
  unfold State.writeScache
  split
  · exact (Quiet.scForcedStore ..).trans (Quiet.noteEvent ..)
  · exact (Quiet.readyMiss ..).trans (Quiet.writeLoop ..)

theorem Quiet.writeDevice (c : BusEvent) : Quiet s (s.writeDevice c) :=
  ((Quiet.awaitFills s).trans (Quiet.interpose ..)).trans (Quiet.drive ..)

theorem Quiet.sendEntry (e : WbEntry) : Quiet s (s.sendEntry e).2 := by
  unfold State.sendEntry
  split
  · exact (Quiet.awaitFills s).trans (Quiet.drive ..)
  · exact (Quiet.awaitFills s).trans (Quiet.drive ..)
  · split
    · exact (Quiet.writeDevice ..).trans (Quiet.takeAnswer ..)
    · have h := Quiet.writeScache s .store e
      split <;> (rename_i ht; rw [ht] at h; exact h)
  · split
    · dsimp only
      split
      · exact Quiet.writeDevice ..
      · refine Quiet.trans ?_ (Quiet.writeSlot ..)
        exact (Quiet.writeDevice s (.writeBlockLock (granuleAddr e.block) (cyclesOf e.mask e.data))).trans (.of_eq rfl rfl)
    · split
      · exact (Quiet.dropLock s).trans (Quiet.writeSlot ..)
      · have h := Quiet.writeScache s .cond e
        split
        · rename_i ht; rw [ht] at h; exact (h.trans (Quiet.dropLock _)).trans (Quiet.writeSlot ..)
        · rename_i ht; rw [ht] at h; exact h
        · rename_i ht; rw [ht] at h; exact h

theorem Quiet.drainOne : Quiet s s.drainOne := by
  unfold State.drainOne
  split
  · exact .refl s
  · rename_i e _
    have h := (Quiet.of_eq (s := s) (t := { s with wb := s.wb.dropLast }) rfl rfl).trans (Quiet.sendEntry _ e)
    exact .ite (.refl s) (.ite h (h.trans (.of_eq rfl rfl)))

theorem Quiet.drainWb (m : Bool) (n : Nat) : ∀ s, Quiet s (State.drainWb s m n) := by
  induction n with
  | zero => exact fun s => .refl s
  | succ n ih =>
    intro s
    have h : Quiet s (if m then s.awaitStore else s) := .ite (Quiet.awaitStore s) (.refl s)
    exact (h.trans (Quiet.drainOne _)).trans (ih _)

theorem Quiet.drainFor (b : Block) : Quiet s (s.drainFor b) := Quiet.drainWb ..

/-! ## Load misses -/

theorem Quiet.takeLock (pa : PAddr) : Quiet s (s.takeLock pa) := .of_eq rfl rfl

theorem Quiet.driveLock (pa : PAddr) : Quiet s (s.driveLock pa) := .ite ((Quiet.awaitFills s).trans (Quiet.drive ..)) (.refl s)

theorem Quiet.readMaf (e : MafEntry) (pa : PAddr) : Quiet s (s.readMaf e pa) := by
  have h : Quiet s (if e.locked then (s.driveLock pa).takeLock pa else s) :=
    .ite ((Quiet.driveLock ..).trans (Quiet.takeLock ..)) (.refl s)
  unfold State.readMaf
  dsimp only
  split
  · have h1 := h.trans (Quiet.deviceRead _ false (some (.load e)) pa (quadsOf e.loads))
    exact .ite (h1.trans (Quiet.arrives ..)) h1
  · have h1 := h.trans (Quiet.cachedRead _ .load (some (.load e)) pa)
    exact .ite (h1.trans (Quiet.arrives ..)) h1

theorem Quiet.serveMiss (e : MafEntry) : Quiet s (s.serveMiss e).2 := by
  unfold State.serveMiss
  split
  · exact .refl s
  · rename_i l _ _
    split
    · exact .refl s
    · have h1 : Quiet s (if e.locked then s.drainOne else s) := .ite (Quiet.drainOne s) (.refl s)
      have h2 : ∀ u : State, Quiet u (if u.wbHolds e.block then u.drainFor e.block else u) := fun u =>
        .ite (Quiet.drainFor ..) (.refl u)
      have h3 := (h1.trans (h2 _)).trans (Quiet.readyMiss _ l.pa)
      exact .ite_snd h3 (h3.trans (Quiet.readMaf ..))

theorem Quiet.serveAll (l : List MafEntry) : ∀ s, Quiet s (State.serveAll s l) := by
  induction l with
  | nil => exact fun s => .of_eq rfl rfl
  | cons e rest ih =>
    intro s
    have h := Quiet.serveMiss s e
    rw [State.serveAll]
    dsimp only
    split
    · exact h.trans (ih _)
    · exact h.trans (.of_eq rfl rfl)

theorem Quiet.serveMisses : Quiet s s.serveMisses := Quiet.serveAll _ s

/-! ## Between two steps -/

theorem Quiet.awaitLoads : Quiet s s.awaitLoads := by
  unfold State.awaitLoads
  split
  · exact Quiet.awaitLoadFills s
  · exact (Quiet.serveMisses s).trans (Quiet.awaitLoadFills _)

theorem Quiet.settleLoads : Quiet s s.settleLoads := by
  unfold State.settleLoads
  split
  · exact .ite (Quiet.awaitLoadFills s) (.refl s)
  · exact .ite (.ite (Quiet.drawn s) ((Quiet.drawn s).trans (Quiet.serveMisses _)))
      (.ite (Quiet.awaitLoads s) (Quiet.serveMisses s))

theorem Quiet.readyFor (w : Longword) : Quiet s (s.readyFor w) := by
  have h : Quiet s (if isFree w && !s.awaited.any (s.uses w) then s else s.awaitLoads) := .ite (.refl s) (Quiet.awaitLoads s)
  exact .ite (h.trans (Quiet.drainWb ..)) h

theorem Quiet.finishMb : Quiet s s.finishMb := by
  have h : Quiet s { s.awaitFills.writeVictims with mbWaits := false } :=
    ((Quiet.awaitFills s).trans (Quiet.writeVictims _)).trans (.of_eq rfl rfl)
  exact .ite (.ite (.of_eq rfl rfl) (.ite (.refl s) (.ite (h.trans (Quiet.drive ..)) h))) (.refl s)

theorem Quiet.serveCommands : Quiet s s.serveCommands := by
  unfold State.serveCommands
  split
  · exact .refl s
  · split
    · exact .refl s
    · exact (Quiet.of_eq (s := s) (t := { s with cmds := [] }) rfl rfl).trans (Quiet.foldl Quiet.serveWaiting _ _)

theorem Quiet.settlePrefetches : Quiet s s.settlePrefetches := by
  unfold State.settlePrefetches
  split
  · exact .refl s
  · exact Quiet.sendPrefetches _ s

end Sys2Proof.Machine
end

