-- ==== Sys2Proof/Laws/Invariants.lean ====
section
/-! SUPPORT. What each shared operation does to the fields the invariants of Safety.lean are about: `Keeps s t` says that `t`
has them if `s` has them. -/

namespace Sys2Proof.Machine

/-- The invariants of `s` hold of `t`: memory's on its own, the registers' on their own. -/
def Keeps (s t : State) : Prop :=
  (s.memOk → t.memOk) ∧ (s.pcOk → s.reservedOk → t.pcOk ∧ t.reservedOk)

theorem Keeps.refl (s : State) : Keeps s s := ⟨id, fun h h' => ⟨h, h'⟩⟩

theorem Keeps.trans {s t u : State} (h : Keeps s t) (h' : Keeps t u) : Keeps s u :=
  ⟨fun a => h'.1 (h.1 a), fun a b => h'.2 (h.2 a b).1 (h.2 a b).2⟩

/-- Memory unchanged, and the registers right. -/
theorem Keeps.of_mem {s t : State} (hm : t.mem = s.mem) (hr : s.pcOk → s.reservedOk → t.pcOk ∧ t.reservedOk) :
    Keeps s t := by
  refine ⟨fun h => ?_, hr⟩
  unfold State.memOk at *
  rw [hm]
  exact h

/-- Nothing changed that the invariants look at. -/
theorem Keeps.of_eq {s t : State} (hm : t.mem = s.mem) (hp : t.pc = s.pc)
    (he : t.ibox.excAddr = s.ibox.excAddr) (hi : t.ibox.icsr = s.ibox.icsr) (hc : t.mbox.mcsr = s.mbox.mcsr) :
    Keeps s t := by
  refine .of_mem hm fun h h' => ?_
  unfold State.pcOk State.reservedOk at *
  rw [hp, he, hi, hc]
  exact ⟨h, h'⟩

/-- A new PC that is a multiple of 4, and nothing else the invariants look at. -/
theorem Keeps.of_pc {s t : State} (hm : t.mem = s.mem) (hp : t.pc &&& 3#64 = 0#64)
    (he : t.ibox.excAddr = s.ibox.excAddr) (hi : t.ibox.icsr = s.ibox.icsr) (hc : t.mbox.mcsr = s.mbox.mcsr) :
    Keeps s t := by
  refine .of_mem hm fun h h' => ?_
  unfold State.pcOk State.reservedOk at *
  rw [he, hi, hc]
  exact ⟨⟨hp, h.2⟩, h'⟩

/-- What the buffers and caches do on their own keeps the invariants. -/
theorem Keeps.of_quiet {s t : State} (h : Quiet s t) : Keeps s t := by
  refine ⟨h.mem, fun hp hr => ?_⟩
  unfold State.pcOk State.reservedOk at *
  rw [h.pc, h.excAddr, h.icsr, h.mbox]
  exact ⟨hp, hr⟩

/-- A change of fields that the invariants do not look at, then another step. -/
theorem Keeps.via {s t u : State} (h : Keeps t u) (hm : t.mem = s.mem) (hp : t.pc = s.pc)
    (he : t.ibox.excAddr = s.ibox.excAddr) (hi : t.ibox.icsr = s.ibox.icsr) (hc : t.mbox.mcsr = s.mbox.mcsr) : Keeps s u :=
  (Keeps.of_eq hm hp he hi hc).trans h

theorem Keeps.ite {s t u : State} {c : Prop} [Decidable c] (h : Keeps s t) (h' : Keeps s u) : Keeps s (if c then t else u) := by
  split
  · exact h
  · exact h'

/-! ## Bits -/

theorem align_and (a : Word) : a &&& ~~~3#64 &&& 3#64 = 0#64 := by
  rw [BitVec.and_assoc, show ~~~3#64 &&& 3#64 = 0#64 by decide, BitVec.and_zero]

theorem clear1_and (a : Word) : a &&& ~~~2#64 &&& 2#64 = 0#64 := by
  rw [BitVec.and_assoc, show ~~~2#64 &&& 2#64 = 0#64 by decide, BitVec.and_zero]

theorem add4_aligned {a : Word} (h : a &&& 3#64 = 0#64) : (a + 4#64) &&& 3#64 = 0#64 := by
  have h0 : a.toNat % 4 = 0 := by
    have := congrArg BitVec.toNat h
    rw [BitVec.toNat_and] at this
    simpa [Nat.and_two_pow_sub_one_eq_mod a.toNat 2] using this
  apply BitVec.eq_of_toNat_eq
  rw [BitVec.toNat_and, BitVec.toNat_add]
  simp only [BitVec.toNat_ofNat]
  rw [show 3 % 2 ^ 64 = 2 ^ 2 - 1 by norm_num, Nat.and_two_pow_sub_one_eq_mod]
  omega

theorem entry_aligned (b : BitVec 50) (o : BitVec 14) (h : o &&& 3#14 = 0#14) : (b ++ o : Word) &&& 3#64 = 0#64 := by
  rw [show (3#64 : BitVec (50 + 14)) = (0#50 ++ 3#14 : BitVec (50 + 14)) by decide, BitVec.and_append, h,
    BitVec.and_zero]
  decide

theorem offset_aligned (e : Entry) : e.offset &&& 3#14 = 0#14 := by
  cases e <;> decide

theorem palOffset_aligned (f : BitVec 26) : palOffset f &&& 3#14 = 0#14 := by
  unfold palOffset
  apply BitVec.eq_of_getLsbD_eq
  intro i hi
  simp only [BitVec.getLsbD_and, BitVec.getLsbD_append]
  interval_cases i <;> simp

/-! ## Registers and control -/

variable (s : State)

theorem Keeps.writeInt (n : RegNum) (v : Word) : Keeps s (s.writeInt n v) := .of_eq (by simp) (by simp) (by simp) (by simp) (by simp)

theorem Keeps.writeFp (n : RegNum) (v : Word) : Keeps s (s.writeFp n v) := .of_eq (by simp) (by simp) (by simp) (by simp) (by simp)

theorem Keeps.drawn : Keeps s s.drawn := .of_eq rfl rfl rfl rfl rfl

theorem Keeps.advance : Keeps s s.advance := by
  refine .of_mem rfl fun h h' => ?_
  exact ⟨⟨add4_aligned h.1, h.2⟩, h'⟩

theorem Keeps.jumpTo (a : Word) : Keeps s (s.jumpTo a) := .of_pc rfl (align_and a) rfl rfl rfl

theorem Keeps.enterPal (o : BitVec 14) (a : Word) (ho : o &&& 3#14 = 0#14) : Keeps s (s.enterPal o a) := by
  refine .of_mem rfl fun _ h' => ?_
  exact ⟨⟨entry_aligned _ _ ho, clear1_and _⟩, h'⟩

theorem Keeps.trap (e : Entry) (a : Word) : Keeps s (s.trap e a) :=
  (Keeps.enterPal s e.offset a (offset_aligned e)).trans (.of_eq rfl rfl rfl rfl rfl)

theorem Keeps.precise (e : Entry) : Keeps s (s.precise e) := (Keeps.trap s e s.pc).trans (.of_eq rfl rfl rfl rfl rfl)

theorem Keeps.returnFromPal : Keeps s s.returnFromPal := .of_pc rfl (align_and _) rfl rfl rfl

theorem Keeps.recordSum (c : Conds) (d : Nat) : Keeps s (s.recordSum c d) := .of_eq rfl rfl rfl rfl rfl

theorem Keeps.recordSwc (b : Bool) : Keeps s (s.recordSwc b) := by
  unfold State.recordSwc
  split
  · split
    · exact .refl s
    · exact .of_eq rfl rfl rfl rfl rfl
  · exact .of_eq rfl rfl rfl rfl rfl

theorem Keeps.finishInt (rc : RegNum) (v : Word) (b : Bool) : Keeps s (s.finishInt rc v b) := by
  unfold State.finishInt
  split
  · exact ((Keeps.writeInt s rc v).trans (Keeps.recordSum _ _ _)).trans (Keeps.trap _ _ _)
  · exact (Keeps.writeInt s rc v).trans (Keeps.advance _)

theorem Keeps.finishFp (fc : RegNum) (b : Bool) (o : FpOutcome) : Keeps s (s.finishFp fc b o) := by
  have h : Keeps s ((s.writeFpResult fc o.value).recordFpcr o.fpcr) :=
    .of_eq (by simp) (by simp) (by simp) (by simp) (by simp)
  unfold State.finishFp
  simp only
  split
  · exact h.trans (Keeps.advance _)
  · exact ((h.trans (Keeps.recordSum _ _ _)).trans (Keeps.recordSwc _ _)).trans (Keeps.trap _ _ _)

theorem Keeps.captureMm (v : Word) (b : MmBits) (r : RegNum) (o : BitVec 6) : Keeps s (s.captureMm v b r o) := by
  unfold State.captureMm
  split
  · exact .refl s
  · exact .of_eq rfl rfl rfl rfl rfl

theorem Keeps.mmTrap (r : Ref) (e : Entry) (b : MmBits) : Keeps s (s.mmTrap r e b) :=
  (Keeps.captureMm s _ _ _ _).trans (Keeps.precise _ _)

theorem Keeps.dcError (b : BitVec 4) (v : Word) (w : Bool) (r : RegNum) (o : BitVec 6) :
    Keeps s (s.dcError b v w r o) :=
  (Keeps.captureMm s _ _ _ _).trans (.of_eq rfl rfl rfl rfl rfl)

theorem Keeps.touchDtb (hit : Option (Fin 64)) : Keeps s (s.touchDtb hit) := by
  cases hit <;> exact .of_eq rfl rfl rfl rfl rfl

theorem Keeps.drive (e : BusEvent) : Keeps s (s.drive e) := .of_eq rfl rfl rfl rfl rfl

theorem Keeps.takeLock (a : PAddr) : Keeps s (s.takeLock a) :=
  .of_eq (by simp) (by simp) (by simp) (by simp) (by simp)

/-! ## Outcomes -/

/-- Every next state keeps the invariants of `s`. -/
structure KeepsRes (s : State) (r : Res State) : Prop where
  of : ∀ t, r = .next t → Keeps s t

theorem KeepsRes.next {s t : State} (h : Keeps s t) : KeepsRes s (.next t) := ⟨fun u hu => by
  injection hu with hu; exact hu ▸ h⟩

theorem KeepsRes.fault (s : State) (f : Fault) : KeepsRes s (.fault f) := ⟨fun _ h => by cases h⟩

theorem KeepsRes.refused (s : State) (r : Refusal) : KeepsRes s (.refused r) := ⟨fun _ h => by cases h⟩

theorem KeepsRes.fpGate {f : State → Res State} (h : KeepsRes s (f s)) : KeepsRes s (s.fpGate f) := by
  unfold State.fpGate
  split
  · exact h
  · exact .next (Keeps.precise s _)

theorem KeepsRes.palGate {f : State → Res State} (h : KeepsRes s (f s)) : KeepsRes s (s.palGate f) := by
  unfold State.palGate
  split
  · exact h
  · exact .next (Keeps.precise s _)

theorem KeepsRes.mapRes {s : State} {r : Res State} {f : State → State} (h : KeepsRes s r) (hf : ∀ t, Keeps t (f t)) :
    KeepsRes s (mapRes f r) := by
  constructor
  intro t ht
  obtain ⟨u, hu, rfl⟩ := mapRes_eq_next ht
  exact (h.of u hu).trans (hf u)

end Sys2Proof.Machine
end

