-- ==== Sys2Proof/Laws/PerInstr.lean ====
section
/-! SUPPORT. Decoding the word of a well-formed instruction gives the instruction back: one lemma per constructor. -/

namespace Sys2Proof.Laws.RoundTrip

set_option maxRecDepth 8000

/-- Decoding undoes encoding. -/
def Statement (i : Instr) : Prop := i.wellFormed = true → decode (encode i) = .ok i

theorem lda (ra rb : RegNum) (disp : BitVec 16) : Statement (.lda ra rb disp) := fun _ => decode_encMem _ _ _ rfl _
theorem ldah (ra rb : RegNum) (disp : BitVec 16) : Statement (.ldah ra rb disp) := fun _ => decode_encMem _ _ _ rfl _
theorem ldl (ra rb : RegNum) (disp : BitVec 16) : Statement (.ldl ra rb disp) := fun _ => decode_encMem _ _ _ rfl _
theorem ldq (ra rb : RegNum) (disp : BitVec 16) : Statement (.ldq ra rb disp) := fun _ => decode_encMem _ _ _ rfl _
theorem ldqU (ra rb : RegNum) (disp : BitVec 16) : Statement (.ldqU ra rb disp) := fun _ => decode_encMem _ _ _ rfl _
theorem ldlL (ra rb : RegNum) (disp : BitVec 16) : Statement (.ldlL ra rb disp) := fun _ => decode_encMem _ _ _ rfl _
theorem ldqL (ra rb : RegNum) (disp : BitVec 16) : Statement (.ldqL ra rb disp) := fun _ => decode_encMem _ _ _ rfl _
theorem stl (ra rb : RegNum) (disp : BitVec 16) : Statement (.stl ra rb disp) := fun _ => decode_encMem _ _ _ rfl _
theorem stq (ra rb : RegNum) (disp : BitVec 16) : Statement (.stq ra rb disp) := fun _ => decode_encMem _ _ _ rfl _
theorem stqU (ra rb : RegNum) (disp : BitVec 16) : Statement (.stqU ra rb disp) := fun _ => decode_encMem _ _ _ rfl _
theorem stlC (ra rb : RegNum) (disp : BitVec 16) : Statement (.stlC ra rb disp) := fun _ => decode_encMem _ _ _ rfl _
theorem stqC (ra rb : RegNum) (disp : BitVec 16) : Statement (.stqC ra rb disp) := fun _ => decode_encMem _ _ _ rfl _
theorem ldf (ra rb : RegNum) (disp : BitVec 16) : Statement (.ldf ra rb disp) := fun _ => decode_encMem _ _ _ rfl _
theorem ldg (ra rb : RegNum) (disp : BitVec 16) : Statement (.ldg ra rb disp) := fun _ => decode_encMem _ _ _ rfl _
theorem lds (ra rb : RegNum) (disp : BitVec 16) : Statement (.lds ra rb disp) := fun _ => decode_encMem _ _ _ rfl _
theorem ldt (ra rb : RegNum) (disp : BitVec 16) : Statement (.ldt ra rb disp) := fun _ => decode_encMem _ _ _ rfl _
theorem stf (ra rb : RegNum) (disp : BitVec 16) : Statement (.stf ra rb disp) := fun _ => decode_encMem _ _ _ rfl _
theorem stg (ra rb : RegNum) (disp : BitVec 16) : Statement (.stg ra rb disp) := fun _ => decode_encMem _ _ _ rfl _
theorem sts (ra rb : RegNum) (disp : BitVec 16) : Statement (.sts ra rb disp) := fun _ => decode_encMem _ _ _ rfl _
theorem stt (ra rb : RegNum) (disp : BitVec 16) : Statement (.stt ra rb disp) := fun _ => decode_encMem _ _ _ rfl _
theorem br (ra : RegNum) (disp : BitVec 21) : Statement (.br ra disp) := fun _ => decode_encBra _ _ rfl _
theorem bsr (ra : RegNum) (disp : BitVec 21) : Statement (.bsr ra disp) := fun _ => decode_encBra _ _ rfl _
theorem beq (ra : RegNum) (disp : BitVec 21) : Statement (.beq ra disp) := fun _ => decode_encBra _ _ rfl _
theorem bne (ra : RegNum) (disp : BitVec 21) : Statement (.bne ra disp) := fun _ => decode_encBra _ _ rfl _
theorem blt (ra : RegNum) (disp : BitVec 21) : Statement (.blt ra disp) := fun _ => decode_encBra _ _ rfl _
theorem ble (ra : RegNum) (disp : BitVec 21) : Statement (.ble ra disp) := fun _ => decode_encBra _ _ rfl _
theorem bgt (ra : RegNum) (disp : BitVec 21) : Statement (.bgt ra disp) := fun _ => decode_encBra _ _ rfl _
theorem bge (ra : RegNum) (disp : BitVec 21) : Statement (.bge ra disp) := fun _ => decode_encBra _ _ rfl _
theorem blbc (ra : RegNum) (disp : BitVec 21) : Statement (.blbc ra disp) := fun _ => decode_encBra _ _ rfl _
theorem blbs (ra : RegNum) (disp : BitVec 21) : Statement (.blbs ra disp) := fun _ => decode_encBra _ _ rfl _
theorem fbeq (ra : RegNum) (disp : BitVec 21) : Statement (.fbeq ra disp) := fun _ => decode_encBra _ _ rfl _
theorem fbne (ra : RegNum) (disp : BitVec 21) : Statement (.fbne ra disp) := fun _ => decode_encBra _ _ rfl _
theorem fblt (ra : RegNum) (disp : BitVec 21) : Statement (.fblt ra disp) := fun _ => decode_encBra _ _ rfl _
theorem fble (ra : RegNum) (disp : BitVec 21) : Statement (.fble ra disp) := fun _ => decode_encBra _ _ rfl _
theorem fbgt (ra : RegNum) (disp : BitVec 21) : Statement (.fbgt ra disp) := fun _ => decode_encBra _ _ rfl _
theorem fbge (ra : RegNum) (disp : BitVec 21) : Statement (.fbge ra disp) := fun _ => decode_encBra _ _ rfl _
theorem jmp (ra rb : RegNum) (hint : BitVec 14) : Statement (.jmp ra rb hint) := fun _ => decode_encJump _ _ rfl _
theorem jsr (ra rb : RegNum) (hint : BitVec 14) : Statement (.jsr ra rb hint) := fun _ => decode_encJump _ _ rfl _
theorem ret (ra rb : RegNum) (hint : BitVec 14) : Statement (.ret ra rb hint) := fun _ => decode_encJump _ _ rfl _
theorem jsrCoroutine (ra rb : RegNum) (hint : BitVec 14) : Statement (.jsrCoroutine ra rb hint) := fun _ => decode_encJump _ _ rfl _
theorem addl (ra : RegNum) (rb : RegOrLit) (rc : RegNum) : Statement (.addl ra rb rc) := fun _ => decode_encOpr _ _ _ rfl rfl _
theorem addlV (ra : RegNum) (rb : RegOrLit) (rc : RegNum) : Statement (.addlV ra rb rc) := fun _ => decode_encOpr _ _ _ rfl rfl _
theorem addq (ra : RegNum) (rb : RegOrLit) (rc : RegNum) : Statement (.addq ra rb rc) := fun _ => decode_encOpr _ _ _ rfl rfl _
theorem addqV (ra : RegNum) (rb : RegOrLit) (rc : RegNum) : Statement (.addqV ra rb rc) := fun _ => decode_encOpr _ _ _ rfl rfl _
theorem s4addl (ra : RegNum) (rb : RegOrLit) (rc : RegNum) : Statement (.s4addl ra rb rc) := fun _ => decode_encOpr _ _ _ rfl rfl _
theorem s4addq (ra : RegNum) (rb : RegOrLit) (rc : RegNum) : Statement (.s4addq ra rb rc) := fun _ => decode_encOpr _ _ _ rfl rfl _
theorem s8addl (ra : RegNum) (rb : RegOrLit) (rc : RegNum) : Statement (.s8addl ra rb rc) := fun _ => decode_encOpr _ _ _ rfl rfl _
theorem s8addq (ra : RegNum) (rb : RegOrLit) (rc : RegNum) : Statement (.s8addq ra rb rc) := fun _ => decode_encOpr _ _ _ rfl rfl _
theorem subl (ra : RegNum) (rb : RegOrLit) (rc : RegNum) : Statement (.subl ra rb rc) := fun _ => decode_encOpr _ _ _ rfl rfl _
theorem sublV (ra : RegNum) (rb : RegOrLit) (rc : RegNum) : Statement (.sublV ra rb rc) := fun _ => decode_encOpr _ _ _ rfl rfl _
theorem subq (ra : RegNum) (rb : RegOrLit) (rc : RegNum) : Statement (.subq ra rb rc) := fun _ => decode_encOpr _ _ _ rfl rfl _
theorem subqV (ra : RegNum) (rb : RegOrLit) (rc : RegNum) : Statement (.subqV ra rb rc) := fun _ => decode_encOpr _ _ _ rfl rfl _
theorem s4subl (ra : RegNum) (rb : RegOrLit) (rc : RegNum) : Statement (.s4subl ra rb rc) := fun _ => decode_encOpr _ _ _ rfl rfl _
theorem s4subq (ra : RegNum) (rb : RegOrLit) (rc : RegNum) : Statement (.s4subq ra rb rc) := fun _ => decode_encOpr _ _ _ rfl rfl _
theorem s8subl (ra : RegNum) (rb : RegOrLit) (rc : RegNum) : Statement (.s8subl ra rb rc) := fun _ => decode_encOpr _ _ _ rfl rfl _
theorem s8subq (ra : RegNum) (rb : RegOrLit) (rc : RegNum) : Statement (.s8subq ra rb rc) := fun _ => decode_encOpr _ _ _ rfl rfl _
theorem cmpeq (ra : RegNum) (rb : RegOrLit) (rc : RegNum) : Statement (.cmpeq ra rb rc) := fun _ => decode_encOpr _ _ _ rfl rfl _
theorem cmplt (ra : RegNum) (rb : RegOrLit) (rc : RegNum) : Statement (.cmplt ra rb rc) := fun _ => decode_encOpr _ _ _ rfl rfl _
theorem cmple (ra : RegNum) (rb : RegOrLit) (rc : RegNum) : Statement (.cmple ra rb rc) := fun _ => decode_encOpr _ _ _ rfl rfl _
theorem cmpult (ra : RegNum) (rb : RegOrLit) (rc : RegNum) : Statement (.cmpult ra rb rc) := fun _ => decode_encOpr _ _ _ rfl rfl _
theorem cmpule (ra : RegNum) (rb : RegOrLit) (rc : RegNum) : Statement (.cmpule ra rb rc) := fun _ => decode_encOpr _ _ _ rfl rfl _
theorem mull (ra : RegNum) (rb : RegOrLit) (rc : RegNum) : Statement (.mull ra rb rc) := fun _ => decode_encOpr _ _ _ rfl rfl _
theorem mullV (ra : RegNum) (rb : RegOrLit) (rc : RegNum) : Statement (.mullV ra rb rc) := fun _ => decode_encOpr _ _ _ rfl rfl _
theorem mulq (ra : RegNum) (rb : RegOrLit) (rc : RegNum) : Statement (.mulq ra rb rc) := fun _ => decode_encOpr _ _ _ rfl rfl _
theorem mulqV (ra : RegNum) (rb : RegOrLit) (rc : RegNum) : Statement (.mulqV ra rb rc) := fun _ => decode_encOpr _ _ _ rfl rfl _
theorem umulh (ra : RegNum) (rb : RegOrLit) (rc : RegNum) : Statement (.umulh ra rb rc) := fun _ => decode_encOpr _ _ _ rfl rfl _
theorem and (ra : RegNum) (rb : RegOrLit) (rc : RegNum) : Statement (.and ra rb rc) := fun _ => decode_encOpr _ _ _ rfl rfl _
theorem bic (ra : RegNum) (rb : RegOrLit) (rc : RegNum) : Statement (.bic ra rb rc) := fun _ => decode_encOpr _ _ _ rfl rfl _
theorem bis (ra : RegNum) (rb : RegOrLit) (rc : RegNum) : Statement (.bis ra rb rc) := fun _ => decode_encOpr _ _ _ rfl rfl _
theorem ornot (ra : RegNum) (rb : RegOrLit) (rc : RegNum) : Statement (.ornot ra rb rc) := fun _ => decode_encOpr _ _ _ rfl rfl _
theorem xor (ra : RegNum) (rb : RegOrLit) (rc : RegNum) : Statement (.xor ra rb rc) := fun _ => decode_encOpr _ _ _ rfl rfl _
theorem eqv (ra : RegNum) (rb : RegOrLit) (rc : RegNum) : Statement (.eqv ra rb rc) := fun _ => decode_encOpr _ _ _ rfl rfl _
theorem cmoveq (ra : RegNum) (rb : RegOrLit) (rc : RegNum) : Statement (.cmoveq ra rb rc) := fun _ => decode_encOpr _ _ _ rfl rfl _
theorem cmovne (ra : RegNum) (rb : RegOrLit) (rc : RegNum) : Statement (.cmovne ra rb rc) := fun _ => decode_encOpr _ _ _ rfl rfl _
theorem cmovlt (ra : RegNum) (rb : RegOrLit) (rc : RegNum) : Statement (.cmovlt ra rb rc) := fun _ => decode_encOpr _ _ _ rfl rfl _
theorem cmovge (ra : RegNum) (rb : RegOrLit) (rc : RegNum) : Statement (.cmovge ra rb rc) := fun _ => decode_encOpr _ _ _ rfl rfl _
theorem cmovle (ra : RegNum) (rb : RegOrLit) (rc : RegNum) : Statement (.cmovle ra rb rc) := fun _ => decode_encOpr _ _ _ rfl rfl _
theorem cmovgt (ra : RegNum) (rb : RegOrLit) (rc : RegNum) : Statement (.cmovgt ra rb rc) := fun _ => decode_encOpr _ _ _ rfl rfl _
theorem cmovlbs (ra : RegNum) (rb : RegOrLit) (rc : RegNum) : Statement (.cmovlbs ra rb rc) := fun _ => decode_encOpr _ _ _ rfl rfl _
theorem cmovlbc (ra : RegNum) (rb : RegOrLit) (rc : RegNum) : Statement (.cmovlbc ra rb rc) := fun _ => decode_encOpr _ _ _ rfl rfl _
theorem sll (ra : RegNum) (rb : RegOrLit) (rc : RegNum) : Statement (.sll ra rb rc) := fun _ => decode_encOpr _ _ _ rfl rfl _
theorem srl (ra : RegNum) (rb : RegOrLit) (rc : RegNum) : Statement (.srl ra rb rc) := fun _ => decode_encOpr _ _ _ rfl rfl _
theorem sra (ra : RegNum) (rb : RegOrLit) (rc : RegNum) : Statement (.sra ra rb rc) := fun _ => decode_encOpr _ _ _ rfl rfl _
theorem cmpbge (ra : RegNum) (rb : RegOrLit) (rc : RegNum) : Statement (.cmpbge ra rb rc) := fun _ => decode_encOpr _ _ _ rfl rfl _
theorem extbl (ra : RegNum) (rb : RegOrLit) (rc : RegNum) : Statement (.extbl ra rb rc) := fun _ => decode_encOpr _ _ _ rfl rfl _
theorem extwl (ra : RegNum) (rb : RegOrLit) (rc : RegNum) : Statement (.extwl ra rb rc) := fun _ => decode_encOpr _ _ _ rfl rfl _
theorem extll (ra : RegNum) (rb : RegOrLit) (rc : RegNum) : Statement (.extll ra rb rc) := fun _ => decode_encOpr _ _ _ rfl rfl _
theorem extql (ra : RegNum) (rb : RegOrLit) (rc : RegNum) : Statement (.extql ra rb rc) := fun _ => decode_encOpr _ _ _ rfl rfl _
theorem extwh (ra : RegNum) (rb : RegOrLit) (rc : RegNum) : Statement (.extwh ra rb rc) := fun _ => decode_encOpr _ _ _ rfl rfl _
theorem extlh (ra : RegNum) (rb : RegOrLit) (rc : RegNum) : Statement (.extlh ra rb rc) := fun _ => decode_encOpr _ _ _ rfl rfl _
theorem extqh (ra : RegNum) (rb : RegOrLit) (rc : RegNum) : Statement (.extqh ra rb rc) := fun _ => decode_encOpr _ _ _ rfl rfl _
theorem insbl (ra : RegNum) (rb : RegOrLit) (rc : RegNum) : Statement (.insbl ra rb rc) := fun _ => decode_encOpr _ _ _ rfl rfl _
theorem inswl (ra : RegNum) (rb : RegOrLit) (rc : RegNum) : Statement (.inswl ra rb rc) := fun _ => decode_encOpr _ _ _ rfl rfl _
theorem insll (ra : RegNum) (rb : RegOrLit) (rc : RegNum) : Statement (.insll ra rb rc) := fun _ => decode_encOpr _ _ _ rfl rfl _
theorem insql (ra : RegNum) (rb : RegOrLit) (rc : RegNum) : Statement (.insql ra rb rc) := fun _ => decode_encOpr _ _ _ rfl rfl _
theorem inswh (ra : RegNum) (rb : RegOrLit) (rc : RegNum) : Statement (.inswh ra rb rc) := fun _ => decode_encOpr _ _ _ rfl rfl _
theorem inslh (ra : RegNum) (rb : RegOrLit) (rc : RegNum) : Statement (.inslh ra rb rc) := fun _ => decode_encOpr _ _ _ rfl rfl _
theorem insqh (ra : RegNum) (rb : RegOrLit) (rc : RegNum) : Statement (.insqh ra rb rc) := fun _ => decode_encOpr _ _ _ rfl rfl _
theorem mskbl (ra : RegNum) (rb : RegOrLit) (rc : RegNum) : Statement (.mskbl ra rb rc) := fun _ => decode_encOpr _ _ _ rfl rfl _
theorem mskwl (ra : RegNum) (rb : RegOrLit) (rc : RegNum) : Statement (.mskwl ra rb rc) := fun _ => decode_encOpr _ _ _ rfl rfl _
theorem mskll (ra : RegNum) (rb : RegOrLit) (rc : RegNum) : Statement (.mskll ra rb rc) := fun _ => decode_encOpr _ _ _ rfl rfl _
theorem mskql (ra : RegNum) (rb : RegOrLit) (rc : RegNum) : Statement (.mskql ra rb rc) := fun _ => decode_encOpr _ _ _ rfl rfl _
theorem mskwh (ra : RegNum) (rb : RegOrLit) (rc : RegNum) : Statement (.mskwh ra rb rc) := fun _ => decode_encOpr _ _ _ rfl rfl _
theorem msklh (ra : RegNum) (rb : RegOrLit) (rc : RegNum) : Statement (.msklh ra rb rc) := fun _ => decode_encOpr _ _ _ rfl rfl _
theorem mskqh (ra : RegNum) (rb : RegOrLit) (rc : RegNum) : Statement (.mskqh ra rb rc) := fun _ => decode_encOpr _ _ _ rfl rfl _
theorem zap (ra : RegNum) (rb : RegOrLit) (rc : RegNum) : Statement (.zap ra rb rc) := fun _ => decode_encOpr _ _ _ rfl rfl _
theorem zapnot (ra : RegNum) (rb : RegOrLit) (rc : RegNum) : Statement (.zapnot ra rb rc) := fun _ => decode_encOpr _ _ _ rfl rfl _
theorem callPal_aux (f : BitVec 26) (h : palFunctionOk f = true) : decode (encPal 0x00#6 f) = .ok (.callPal f) := by
  rw [decode_encCallPal]
  simp only [palFunctionOk, Bool.and_eq_true, bne_iff_ne, ne_eq] at h
  simp [palTable, lookup, h]

theorem callPal (f : BitVec 26) : Statement (.callPal f) := fun h => callPal_aux f h
theorem mb (ra rb : RegNum) : Statement (.mb ra rb) := fun _ => decode_encMisc _ _ rfl
theorem wmb (ra rb : RegNum) : Statement (.wmb ra rb) := fun _ => decode_encMisc _ _ rfl
theorem excb (ra rb : RegNum) : Statement (.excb ra rb) := fun _ => decode_encMisc _ _ rfl
theorem trapb (ra rb : RegNum) : Statement (.trapb ra rb) := fun _ => decode_encMisc _ _ rfl
theorem fetch (ra rb : RegNum) : Statement (.fetch ra rb) := fun _ => decode_encMisc _ _ rfl
theorem fetchM (ra rb : RegNum) : Statement (.fetchM ra rb) := fun _ => decode_encMisc _ _ rfl
theorem rpcc (ra rb : RegNum) : Statement (.rpcc ra rb) := fun _ => decode_encMisc _ _ rfl
theorem rc (ra rb : RegNum) : Statement (.rc ra rb) := fun _ => decode_encMisc _ _ rfl
theorem rs (ra rb : RegNum) : Statement (.rs ra rb) := fun _ => decode_encMisc _ _ rfl
theorem hwMfpr (ra rb : RegNum) (index : BitVec 16) : Statement (.hwMfpr ra rb index) := fun _ => decode_encMem _ _ _ rfl _
theorem hwLd (ra rb : RegNum) (phys alt wrtck quad vpte lock : Bool) (disp : BitVec 10) : Statement (.hwLd ra rb phys alt wrtck quad vpte lock disp) := fun _ => decode_encHwLd _ _ _ _ _ _ _ _ _
theorem hwMtpr (ra rb : RegNum) (index : BitVec 16) : Statement (.hwMtpr ra rb index) := fun _ => decode_encMem _ _ _ rfl _
theorem hwRei (ra rb : RegNum) (typ : BitVec 2) (mbz : BitVec 14) : Statement (.hwRei ra rb typ mbz) := fun _ => decode_encHwRei _ _ _ _
theorem hwSt (ra rb : RegNum) (phys alt : Bool) (mbz13 : Bool) (quad : Bool) (mbz11 cond : Bool) (disp : BitVec 10) : Statement (.hwSt ra rb phys alt mbz13 quad mbz11 cond disp) := fun _ => decode_encHwSt _ _ _ _ _ _ _ _ _
theorem callPalHalt : Statement (.callPalHalt) := fun _ => decode_encCallPal _
theorem callPalDraina : Statement (.callPalDraina) := fun _ => decode_encCallPal _
theorem callPalImb : Statement (.callPalImb) := fun _ => decode_encCallPal _
theorem opc01 (rest : BitVec 26) : Statement (.opc01 rest) := fun _ => decode_encRes _ rfl _
theorem opc02 (rest : BitVec 26) : Statement (.opc02 rest) := fun _ => decode_encRes _ rfl _
theorem opc03 (rest : BitVec 26) : Statement (.opc03 rest) := fun _ => decode_encRes _ rfl _
theorem opc04 (rest : BitVec 26) : Statement (.opc04 rest) := fun _ => decode_encRes _ rfl _
theorem opc05 (rest : BitVec 26) : Statement (.opc05 rest) := fun _ => decode_encRes _ rfl _
theorem opc06 (rest : BitVec 26) : Statement (.opc06 rest) := fun _ => decode_encRes _ rfl _
theorem opc07 (rest : BitVec 26) : Statement (.opc07 rest) := fun _ => decode_encRes _ rfl _
theorem opc0a (rest : BitVec 26) : Statement (.opc0a rest) := fun _ => decode_encRes _ rfl _
theorem opc0c (rest : BitVec 26) : Statement (.opc0c rest) := fun _ => decode_encRes _ rfl _
theorem opc0d (rest : BitVec 26) : Statement (.opc0d rest) := fun _ => decode_encRes _ rfl _
theorem opc0e (rest : BitVec 26) : Statement (.opc0e rest) := fun _ => decode_encRes _ rfl _
theorem opc14 (rest : BitVec 26) : Statement (.opc14 rest) := fun _ => decode_encRes _ rfl _
theorem opc1c (rest : BitVec 26) : Statement (.opc1c rest) := fun _ => decode_encRes _ rfl _
theorem cpys (fa fb fc : RegNum) : Statement (.cpys fa fb fc) := fun _ => decode_encFp _ _ _ _ rfl rfl
theorem cpysn (fa fb fc : RegNum) : Statement (.cpysn fa fb fc) := fun _ => decode_encFp _ _ _ _ rfl rfl
theorem cpyse (fa fb fc : RegNum) : Statement (.cpyse fa fb fc) := fun _ => decode_encFp _ _ _ _ rfl rfl
theorem cvtlq (fa fb fc : RegNum) : Statement (.cvtlq fa fb fc) := fun _ => decode_encFp _ _ _ _ rfl rfl
theorem cvtql (fa fb fc : RegNum) : Statement (.cvtql fa fb fc) := fun _ => decode_encFp _ _ _ _ rfl rfl
theorem cvtqlV (fa fb fc : RegNum) : Statement (.cvtqlV fa fb fc) := fun _ => decode_encFp _ _ _ _ rfl rfl
theorem cvtqlSv (fa fb fc : RegNum) : Statement (.cvtqlSv fa fb fc) := fun _ => decode_encFp _ _ _ _ rfl rfl
theorem fcmoveq (fa fb fc : RegNum) : Statement (.fcmoveq fa fb fc) := fun _ => decode_encFp _ _ _ _ rfl rfl
theorem fcmovne (fa fb fc : RegNum) : Statement (.fcmovne fa fb fc) := fun _ => decode_encFp _ _ _ _ rfl rfl
theorem fcmovlt (fa fb fc : RegNum) : Statement (.fcmovlt fa fb fc) := fun _ => decode_encFp _ _ _ _ rfl rfl
theorem fcmovge (fa fb fc : RegNum) : Statement (.fcmovge fa fb fc) := fun _ => decode_encFp _ _ _ _ rfl rfl
theorem fcmovle (fa fb fc : RegNum) : Statement (.fcmovle fa fb fc) := fun _ => decode_encFp _ _ _ _ rfl rfl
theorem fcmovgt (fa fb fc : RegNum) : Statement (.fcmovgt fa fb fc) := fun _ => decode_encFp _ _ _ _ rfl rfl
theorem mtFpcr (fa fb fc : RegNum) : Statement (.mtFpcr fa fb fc) := fun _ => decode_encFp _ _ _ _ rfl rfl
theorem mfFpcr (fa fb fc : RegNum) : Statement (.mfFpcr fa fb fc) := fun _ => decode_encFp _ _ _ _ rfl rfl
theorem adds (fa fb fc : RegNum) : Statement (.adds fa fb fc) := fun _ => decode_encIeee _ _ _ _ rfl rfl
theorem addsC (fa fb fc : RegNum) : Statement (.addsC fa fb fc) := fun _ => decode_encIeee _ _ _ _ rfl rfl
theorem addsM (fa fb fc : RegNum) : Statement (.addsM fa fb fc) := fun _ => decode_encIeee _ _ _ _ rfl rfl
theorem addsD (fa fb fc : RegNum) : Statement (.addsD fa fb fc) := fun _ => decode_encIeee _ _ _ _ rfl rfl
theorem addsU (fa fb fc : RegNum) : Statement (.addsU fa fb fc) := fun _ => decode_encIeee _ _ _ _ rfl rfl
theorem addsUc (fa fb fc : RegNum) : Statement (.addsUc fa fb fc) := fun _ => decode_encIeee _ _ _ _ rfl rfl
theorem addsUm (fa fb fc : RegNum) : Statement (.addsUm fa fb fc) := fun _ => decode_encIeee _ _ _ _ rfl rfl
theorem addsUd (fa fb fc : RegNum) : Statement (.addsUd fa fb fc) := fun _ => decode_encIeee _ _ _ _ rfl rfl
theorem addsSu (fa fb fc : RegNum) : Statement (.addsSu fa fb fc) := fun _ => decode_encIeee _ _ _ _ rfl rfl
theorem addsSuc (fa fb fc : RegNum) : Statement (.addsSuc fa fb fc) := fun _ => decode_encIeee _ _ _ _ rfl rfl
theorem addsSum (fa fb fc : RegNum) : Statement (.addsSum fa fb fc) := fun _ => decode_encIeee _ _ _ _ rfl rfl
theorem addsSud (fa fb fc : RegNum) : Statement (.addsSud fa fb fc) := fun _ => decode_encIeee _ _ _ _ rfl rfl
theorem addsSui (fa fb fc : RegNum) : Statement (.addsSui fa fb fc) := fun _ => decode_encIeee _ _ _ _ rfl rfl
theorem addsSuic (fa fb fc : RegNum) : Statement (.addsSuic fa fb fc) := fun _ => decode_encIeee _ _ _ _ rfl rfl
theorem addsSuim (fa fb fc : RegNum) : Statement (.addsSuim fa fb fc) := fun _ => decode_encIeee _ _ _ _ rfl rfl
theorem addsSuid (fa fb fc : RegNum) : Statement (.addsSuid fa fb fc) := fun _ => decode_encIeee _ _ _ _ rfl rfl
theorem addt (fa fb fc : RegNum) : Statement (.addt fa fb fc) := fun _ => decode_encIeee _ _ _ _ rfl rfl
theorem addtC (fa fb fc : RegNum) : Statement (.addtC fa fb fc) := fun _ => decode_encIeee _ _ _ _ rfl rfl
theorem addtM (fa fb fc : RegNum) : Statement (.addtM fa fb fc) := fun _ => decode_encIeee _ _ _ _ rfl rfl
theorem addtD (fa fb fc : RegNum) : Statement (.addtD fa fb fc) := fun _ => decode_encIeee _ _ _ _ rfl rfl
theorem addtU (fa fb fc : RegNum) : Statement (.addtU fa fb fc) := fun _ => decode_encIeee _ _ _ _ rfl rfl
theorem addtUc (fa fb fc : RegNum) : Statement (.addtUc fa fb fc) := fun _ => decode_encIeee _ _ _ _ rfl rfl
theorem addtUm (fa fb fc : RegNum) : Statement (.addtUm fa fb fc) := fun _ => decode_encIeee _ _ _ _ rfl rfl
theorem addtUd (fa fb fc : RegNum) : Statement (.addtUd fa fb fc) := fun _ => decode_encIeee _ _ _ _ rfl rfl
theorem addtSu (fa fb fc : RegNum) : Statement (.addtSu fa fb fc) := fun _ => decode_encIeee _ _ _ _ rfl rfl
theorem addtSuc (fa fb fc : RegNum) : Statement (.addtSuc fa fb fc) := fun _ => decode_encIeee _ _ _ _ rfl rfl
theorem addtSum (fa fb fc : RegNum) : Statement (.addtSum fa fb fc) := fun _ => decode_encIeee _ _ _ _ rfl rfl
theorem addtSud (fa fb fc : RegNum) : Statement (.addtSud fa fb fc) := fun _ => decode_encIeee _ _ _ _ rfl rfl
theorem addtSui (fa fb fc : RegNum) : Statement (.addtSui fa fb fc) := fun _ => decode_encIeee _ _ _ _ rfl rfl
theorem addtSuic (fa fb fc : RegNum) : Statement (.addtSuic fa fb fc) := fun _ => decode_encIeee _ _ _ _ rfl rfl
theorem addtSuim (fa fb fc : RegNum) : Statement (.addtSuim fa fb fc) := fun _ => decode_encIeee _ _ _ _ rfl rfl
theorem addtSuid (fa fb fc : RegNum) : Statement (.addtSuid fa fb fc) := fun _ => decode_encIeee _ _ _ _ rfl rfl
theorem subs (fa fb fc : RegNum) : Statement (.subs fa fb fc) := fun _ => decode_encIeee _ _ _ _ rfl rfl
theorem subsC (fa fb fc : RegNum) : Statement (.subsC fa fb fc) := fun _ => decode_encIeee _ _ _ _ rfl rfl
theorem subsM (fa fb fc : RegNum) : Statement (.subsM fa fb fc) := fun _ => decode_encIeee _ _ _ _ rfl rfl
theorem subsD (fa fb fc : RegNum) : Statement (.subsD fa fb fc) := fun _ => decode_encIeee _ _ _ _ rfl rfl
theorem subsU (fa fb fc : RegNum) : Statement (.subsU fa fb fc) := fun _ => decode_encIeee _ _ _ _ rfl rfl
theorem subsUc (fa fb fc : RegNum) : Statement (.subsUc fa fb fc) := fun _ => decode_encIeee _ _ _ _ rfl rfl
theorem subsUm (fa fb fc : RegNum) : Statement (.subsUm fa fb fc) := fun _ => decode_encIeee _ _ _ _ rfl rfl
theorem subsUd (fa fb fc : RegNum) : Statement (.subsUd fa fb fc) := fun _ => decode_encIeee _ _ _ _ rfl rfl
theorem subsSu (fa fb fc : RegNum) : Statement (.subsSu fa fb fc) := fun _ => decode_encIeee _ _ _ _ rfl rfl
theorem subsSuc (fa fb fc : RegNum) : Statement (.subsSuc fa fb fc) := fun _ => decode_encIeee _ _ _ _ rfl rfl
theorem subsSum (fa fb fc : RegNum) : Statement (.subsSum fa fb fc) := fun _ => decode_encIeee _ _ _ _ rfl rfl
theorem subsSud (fa fb fc : RegNum) : Statement (.subsSud fa fb fc) := fun _ => decode_encIeee _ _ _ _ rfl rfl
theorem subsSui (fa fb fc : RegNum) : Statement (.subsSui fa fb fc) := fun _ => decode_encIeee _ _ _ _ rfl rfl
theorem subsSuic (fa fb fc : RegNum) : Statement (.subsSuic fa fb fc) := fun _ => decode_encIeee _ _ _ _ rfl rfl
theorem subsSuim (fa fb fc : RegNum) : Statement (.subsSuim fa fb fc) := fun _ => decode_encIeee _ _ _ _ rfl rfl
theorem subsSuid (fa fb fc : RegNum) : Statement (.subsSuid fa fb fc) := fun _ => decode_encIeee _ _ _ _ rfl rfl
theorem subt (fa fb fc : RegNum) : Statement (.subt fa fb fc) := fun _ => decode_encIeee _ _ _ _ rfl rfl
theorem subtC (fa fb fc : RegNum) : Statement (.subtC fa fb fc) := fun _ => decode_encIeee _ _ _ _ rfl rfl
theorem subtM (fa fb fc : RegNum) : Statement (.subtM fa fb fc) := fun _ => decode_encIeee _ _ _ _ rfl rfl
theorem subtD (fa fb fc : RegNum) : Statement (.subtD fa fb fc) := fun _ => decode_encIeee _ _ _ _ rfl rfl
theorem subtU (fa fb fc : RegNum) : Statement (.subtU fa fb fc) := fun _ => decode_encIeee _ _ _ _ rfl rfl
theorem subtUc (fa fb fc : RegNum) : Statement (.subtUc fa fb fc) := fun _ => decode_encIeee _ _ _ _ rfl rfl
theorem subtUm (fa fb fc : RegNum) : Statement (.subtUm fa fb fc) := fun _ => decode_encIeee _ _ _ _ rfl rfl
theorem subtUd (fa fb fc : RegNum) : Statement (.subtUd fa fb fc) := fun _ => decode_encIeee _ _ _ _ rfl rfl
theorem subtSu (fa fb fc : RegNum) : Statement (.subtSu fa fb fc) := fun _ => decode_encIeee _ _ _ _ rfl rfl
theorem subtSuc (fa fb fc : RegNum) : Statement (.subtSuc fa fb fc) := fun _ => decode_encIeee _ _ _ _ rfl rfl
theorem subtSum (fa fb fc : RegNum) : Statement (.subtSum fa fb fc) := fun _ => decode_encIeee _ _ _ _ rfl rfl
theorem subtSud (fa fb fc : RegNum) : Statement (.subtSud fa fb fc) := fun _ => decode_encIeee _ _ _ _ rfl rfl
theorem subtSui (fa fb fc : RegNum) : Statement (.subtSui fa fb fc) := fun _ => decode_encIeee _ _ _ _ rfl rfl
theorem subtSuic (fa fb fc : RegNum) : Statement (.subtSuic fa fb fc) := fun _ => decode_encIeee _ _ _ _ rfl rfl
theorem subtSuim (fa fb fc : RegNum) : Statement (.subtSuim fa fb fc) := fun _ => decode_encIeee _ _ _ _ rfl rfl
theorem subtSuid (fa fb fc : RegNum) : Statement (.subtSuid fa fb fc) := fun _ => decode_encIeee _ _ _ _ rfl rfl
theorem muls (fa fb fc : RegNum) : Statement (.muls fa fb fc) := fun _ => decode_encIeee _ _ _ _ rfl rfl
theorem mulsC (fa fb fc : RegNum) : Statement (.mulsC fa fb fc) := fun _ => decode_encIeee _ _ _ _ rfl rfl
theorem mulsM (fa fb fc : RegNum) : Statement (.mulsM fa fb fc) := fun _ => decode_encIeee _ _ _ _ rfl rfl
theorem mulsD (fa fb fc : RegNum) : Statement (.mulsD fa fb fc) := fun _ => decode_encIeee _ _ _ _ rfl rfl
theorem mulsU (fa fb fc : RegNum) : Statement (.mulsU fa fb fc) := fun _ => decode_encIeee _ _ _ _ rfl rfl
theorem mulsUc (fa fb fc : RegNum) : Statement (.mulsUc fa fb fc) := fun _ => decode_encIeee _ _ _ _ rfl rfl
theorem mulsUm (fa fb fc : RegNum) : Statement (.mulsUm fa fb fc) := fun _ => decode_encIeee _ _ _ _ rfl rfl
theorem mulsUd (fa fb fc : RegNum) : Statement (.mulsUd fa fb fc) := fun _ => decode_encIeee _ _ _ _ rfl rfl
theorem mulsSu (fa fb fc : RegNum) : Statement (.mulsSu fa fb fc) := fun _ => decode_encIeee _ _ _ _ rfl rfl
theorem mulsSuc (fa fb fc : RegNum) : Statement (.mulsSuc fa fb fc) := fun _ => decode_encIeee _ _ _ _ rfl rfl
theorem mulsSum (fa fb fc : RegNum) : Statement (.mulsSum fa fb fc) := fun _ => decode_encIeee _ _ _ _ rfl rfl
theorem mulsSud (fa fb fc : RegNum) : Statement (.mulsSud fa fb fc) := fun _ => decode_encIeee _ _ _ _ rfl rfl
theorem mulsSui (fa fb fc : RegNum) : Statement (.mulsSui fa fb fc) := fun _ => decode_encIeee _ _ _ _ rfl rfl
theorem mulsSuic (fa fb fc : RegNum) : Statement (.mulsSuic fa fb fc) := fun _ => decode_encIeee _ _ _ _ rfl rfl
theorem mulsSuim (fa fb fc : RegNum) : Statement (.mulsSuim fa fb fc) := fun _ => decode_encIeee _ _ _ _ rfl rfl
theorem mulsSuid (fa fb fc : RegNum) : Statement (.mulsSuid fa fb fc) := fun _ => decode_encIeee _ _ _ _ rfl rfl
theorem mult (fa fb fc : RegNum) : Statement (.mult fa fb fc) := fun _ => decode_encIeee _ _ _ _ rfl rfl
theorem multC (fa fb fc : RegNum) : Statement (.multC fa fb fc) := fun _ => decode_encIeee _ _ _ _ rfl rfl
theorem multM (fa fb fc : RegNum) : Statement (.multM fa fb fc) := fun _ => decode_encIeee _ _ _ _ rfl rfl
theorem multD (fa fb fc : RegNum) : Statement (.multD fa fb fc) := fun _ => decode_encIeee _ _ _ _ rfl rfl
theorem multU (fa fb fc : RegNum) : Statement (.multU fa fb fc) := fun _ => decode_encIeee _ _ _ _ rfl rfl
theorem multUc (fa fb fc : RegNum) : Statement (.multUc fa fb fc) := fun _ => decode_encIeee _ _ _ _ rfl rfl
theorem multUm (fa fb fc : RegNum) : Statement (.multUm fa fb fc) := fun _ => decode_encIeee _ _ _ _ rfl rfl
theorem multUd (fa fb fc : RegNum) : Statement (.multUd fa fb fc) := fun _ => decode_encIeee _ _ _ _ rfl rfl
theorem multSu (fa fb fc : RegNum) : Statement (.multSu fa fb fc) := fun _ => decode_encIeee _ _ _ _ rfl rfl
theorem multSuc (fa fb fc : RegNum) : Statement (.multSuc fa fb fc) := fun _ => decode_encIeee _ _ _ _ rfl rfl
theorem multSum (fa fb fc : RegNum) : Statement (.multSum fa fb fc) := fun _ => decode_encIeee _ _ _ _ rfl rfl
theorem multSud (fa fb fc : RegNum) : Statement (.multSud fa fb fc) := fun _ => decode_encIeee _ _ _ _ rfl rfl
theorem multSui (fa fb fc : RegNum) : Statement (.multSui fa fb fc) := fun _ => decode_encIeee _ _ _ _ rfl rfl
theorem multSuic (fa fb fc : RegNum) : Statement (.multSuic fa fb fc) := fun _ => decode_encIeee _ _ _ _ rfl rfl
theorem multSuim (fa fb fc : RegNum) : Statement (.multSuim fa fb fc) := fun _ => decode_encIeee _ _ _ _ rfl rfl
theorem multSuid (fa fb fc : RegNum) : Statement (.multSuid fa fb fc) := fun _ => decode_encIeee _ _ _ _ rfl rfl
theorem divs (fa fb fc : RegNum) : Statement (.divs fa fb fc) := fun _ => decode_encIeee _ _ _ _ rfl rfl
theorem divsC (fa fb fc : RegNum) : Statement (.divsC fa fb fc) := fun _ => decode_encIeee _ _ _ _ rfl rfl
theorem divsM (fa fb fc : RegNum) : Statement (.divsM fa fb fc) := fun _ => decode_encIeee _ _ _ _ rfl rfl
theorem divsD (fa fb fc : RegNum) : Statement (.divsD fa fb fc) := fun _ => decode_encIeee _ _ _ _ rfl rfl
theorem divsU (fa fb fc : RegNum) : Statement (.divsU fa fb fc) := fun _ => decode_encIeee _ _ _ _ rfl rfl
theorem divsUc (fa fb fc : RegNum) : Statement (.divsUc fa fb fc) := fun _ => decode_encIeee _ _ _ _ rfl rfl
theorem divsUm (fa fb fc : RegNum) : Statement (.divsUm fa fb fc) := fun _ => decode_encIeee _ _ _ _ rfl rfl
theorem divsUd (fa fb fc : RegNum) : Statement (.divsUd fa fb fc) := fun _ => decode_encIeee _ _ _ _ rfl rfl
theorem divsSu (fa fb fc : RegNum) : Statement (.divsSu fa fb fc) := fun _ => decode_encIeee _ _ _ _ rfl rfl
theorem divsSuc (fa fb fc : RegNum) : Statement (.divsSuc fa fb fc) := fun _ => decode_encIeee _ _ _ _ rfl rfl
theorem divsSum (fa fb fc : RegNum) : Statement (.divsSum fa fb fc) := fun _ => decode_encIeee _ _ _ _ rfl rfl
theorem divsSud (fa fb fc : RegNum) : Statement (.divsSud fa fb fc) := fun _ => decode_encIeee _ _ _ _ rfl rfl
theorem divsSui (fa fb fc : RegNum) : Statement (.divsSui fa fb fc) := fun _ => decode_encIeee _ _ _ _ rfl rfl
theorem divsSuic (fa fb fc : RegNum) : Statement (.divsSuic fa fb fc) := fun _ => decode_encIeee _ _ _ _ rfl rfl
theorem divsSuim (fa fb fc : RegNum) : Statement (.divsSuim fa fb fc) := fun _ => decode_encIeee _ _ _ _ rfl rfl
theorem divsSuid (fa fb fc : RegNum) : Statement (.divsSuid fa fb fc) := fun _ => decode_encIeee _ _ _ _ rfl rfl
theorem divt (fa fb fc : RegNum) : Statement (.divt fa fb fc) := fun _ => decode_encIeee _ _ _ _ rfl rfl
theorem divtC (fa fb fc : RegNum) : Statement (.divtC fa fb fc) := fun _ => decode_encIeee _ _ _ _ rfl rfl
theorem divtM (fa fb fc : RegNum) : Statement (.divtM fa fb fc) := fun _ => decode_encIeee _ _ _ _ rfl rfl
theorem divtD (fa fb fc : RegNum) : Statement (.divtD fa fb fc) := fun _ => decode_encIeee _ _ _ _ rfl rfl
theorem divtU (fa fb fc : RegNum) : Statement (.divtU fa fb fc) := fun _ => decode_encIeee _ _ _ _ rfl rfl
theorem divtUc (fa fb fc : RegNum) : Statement (.divtUc fa fb fc) := fun _ => decode_encIeee _ _ _ _ rfl rfl
theorem divtUm (fa fb fc : RegNum) : Statement (.divtUm fa fb fc) := fun _ => decode_encIeee _ _ _ _ rfl rfl
theorem divtUd (fa fb fc : RegNum) : Statement (.divtUd fa fb fc) := fun _ => decode_encIeee _ _ _ _ rfl rfl
theorem divtSu (fa fb fc : RegNum) : Statement (.divtSu fa fb fc) := fun _ => decode_encIeee _ _ _ _ rfl rfl
theorem divtSuc (fa fb fc : RegNum) : Statement (.divtSuc fa fb fc) := fun _ => decode_encIeee _ _ _ _ rfl rfl
theorem divtSum (fa fb fc : RegNum) : Statement (.divtSum fa fb fc) := fun _ => decode_encIeee _ _ _ _ rfl rfl
theorem divtSud (fa fb fc : RegNum) : Statement (.divtSud fa fb fc) := fun _ => decode_encIeee _ _ _ _ rfl rfl
theorem divtSui (fa fb fc : RegNum) : Statement (.divtSui fa fb fc) := fun _ => decode_encIeee _ _ _ _ rfl rfl
theorem divtSuic (fa fb fc : RegNum) : Statement (.divtSuic fa fb fc) := fun _ => decode_encIeee _ _ _ _ rfl rfl
theorem divtSuim (fa fb fc : RegNum) : Statement (.divtSuim fa fb fc) := fun _ => decode_encIeee _ _ _ _ rfl rfl
theorem divtSuid (fa fb fc : RegNum) : Statement (.divtSuid fa fb fc) := fun _ => decode_encIeee _ _ _ _ rfl rfl
theorem cmpteq (fa fb fc : RegNum) : Statement (.cmpteq fa fb fc) := fun _ => decode_encIeee _ _ _ _ rfl rfl
theorem cmpteqSu (fa fb fc : RegNum) : Statement (.cmpteqSu fa fb fc) := fun _ => decode_encIeee _ _ _ _ rfl rfl
theorem cmptlt (fa fb fc : RegNum) : Statement (.cmptlt fa fb fc) := fun _ => decode_encIeee _ _ _ _ rfl rfl
theorem cmptltSu (fa fb fc : RegNum) : Statement (.cmptltSu fa fb fc) := fun _ => decode_encIeee _ _ _ _ rfl rfl
theorem cmptle (fa fb fc : RegNum) : Statement (.cmptle fa fb fc) := fun _ => decode_encIeee _ _ _ _ rfl rfl
theorem cmptleSu (fa fb fc : RegNum) : Statement (.cmptleSu fa fb fc) := fun _ => decode_encIeee _ _ _ _ rfl rfl
theorem cmptun (fa fb fc : RegNum) : Statement (.cmptun fa fb fc) := fun _ => decode_encIeee _ _ _ _ rfl rfl
theorem cmptunSu (fa fb fc : RegNum) : Statement (.cmptunSu fa fb fc) := fun _ => decode_encIeee _ _ _ _ rfl rfl
theorem cvtqs (fa fb fc : RegNum) : Statement (.cvtqs fa fb fc) := fun _ => decode_encIeee _ _ _ _ rfl rfl
theorem cvtqsC (fa fb fc : RegNum) : Statement (.cvtqsC fa fb fc) := fun _ => decode_encIeee _ _ _ _ rfl rfl
theorem cvtqsM (fa fb fc : RegNum) : Statement (.cvtqsM fa fb fc) := fun _ => decode_encIeee _ _ _ _ rfl rfl
theorem cvtqsD (fa fb fc : RegNum) : Statement (.cvtqsD fa fb fc) := fun _ => decode_encIeee _ _ _ _ rfl rfl
theorem cvtqsSui (fa fb fc : RegNum) : Statement (.cvtqsSui fa fb fc) := fun _ => decode_encIeee _ _ _ _ rfl rfl
theorem cvtqsSuic (fa fb fc : RegNum) : Statement (.cvtqsSuic fa fb fc) := fun _ => decode_encIeee _ _ _ _ rfl rfl
theorem cvtqsSuim (fa fb fc : RegNum) : Statement (.cvtqsSuim fa fb fc) := fun _ => decode_encIeee _ _ _ _ rfl rfl
theorem cvtqsSuid (fa fb fc : RegNum) : Statement (.cvtqsSuid fa fb fc) := fun _ => decode_encIeee _ _ _ _ rfl rfl
theorem cvtqt (fa fb fc : RegNum) : Statement (.cvtqt fa fb fc) := fun _ => decode_encIeee _ _ _ _ rfl rfl
theorem cvtqtC (fa fb fc : RegNum) : Statement (.cvtqtC fa fb fc) := fun _ => decode_encIeee _ _ _ _ rfl rfl
theorem cvtqtM (fa fb fc : RegNum) : Statement (.cvtqtM fa fb fc) := fun _ => decode_encIeee _ _ _ _ rfl rfl
theorem cvtqtD (fa fb fc : RegNum) : Statement (.cvtqtD fa fb fc) := fun _ => decode_encIeee _ _ _ _ rfl rfl
theorem cvtqtSui (fa fb fc : RegNum) : Statement (.cvtqtSui fa fb fc) := fun _ => decode_encIeee _ _ _ _ rfl rfl
theorem cvtqtSuic (fa fb fc : RegNum) : Statement (.cvtqtSuic fa fb fc) := fun _ => decode_encIeee _ _ _ _ rfl rfl
theorem cvtqtSuim (fa fb fc : RegNum) : Statement (.cvtqtSuim fa fb fc) := fun _ => decode_encIeee _ _ _ _ rfl rfl
theorem cvtqtSuid (fa fb fc : RegNum) : Statement (.cvtqtSuid fa fb fc) := fun _ => decode_encIeee _ _ _ _ rfl rfl
theorem cvtts (fa fb fc : RegNum) : Statement (.cvtts fa fb fc) := fun _ => decode_encIeee _ _ _ _ rfl rfl
theorem cvttsC (fa fb fc : RegNum) : Statement (.cvttsC fa fb fc) := fun _ => decode_encIeee _ _ _ _ rfl rfl
theorem cvttsM (fa fb fc : RegNum) : Statement (.cvttsM fa fb fc) := fun _ => decode_encIeee _ _ _ _ rfl rfl
theorem cvttsD (fa fb fc : RegNum) : Statement (.cvttsD fa fb fc) := fun _ => decode_encIeee _ _ _ _ rfl rfl
theorem cvttsU (fa fb fc : RegNum) : Statement (.cvttsU fa fb fc) := fun _ => decode_encIeee _ _ _ _ rfl rfl
theorem cvttsUc (fa fb fc : RegNum) : Statement (.cvttsUc fa fb fc) := fun _ => decode_encIeee _ _ _ _ rfl rfl
theorem cvttsUm (fa fb fc : RegNum) : Statement (.cvttsUm fa fb fc) := fun _ => decode_encIeee _ _ _ _ rfl rfl
theorem cvttsUd (fa fb fc : RegNum) : Statement (.cvttsUd fa fb fc) := fun _ => decode_encIeee _ _ _ _ rfl rfl
theorem cvttsSu (fa fb fc : RegNum) : Statement (.cvttsSu fa fb fc) := fun _ => decode_encIeee _ _ _ _ rfl rfl
theorem cvttsSuc (fa fb fc : RegNum) : Statement (.cvttsSuc fa fb fc) := fun _ => decode_encIeee _ _ _ _ rfl rfl
theorem cvttsSum (fa fb fc : RegNum) : Statement (.cvttsSum fa fb fc) := fun _ => decode_encIeee _ _ _ _ rfl rfl
theorem cvttsSud (fa fb fc : RegNum) : Statement (.cvttsSud fa fb fc) := fun _ => decode_encIeee _ _ _ _ rfl rfl
theorem cvttsSui (fa fb fc : RegNum) : Statement (.cvttsSui fa fb fc) := fun _ => decode_encIeee _ _ _ _ rfl rfl
theorem cvttsSuic (fa fb fc : RegNum) : Statement (.cvttsSuic fa fb fc) := fun _ => decode_encIeee _ _ _ _ rfl rfl
theorem cvttsSuim (fa fb fc : RegNum) : Statement (.cvttsSuim fa fb fc) := fun _ => decode_encIeee _ _ _ _ rfl rfl
theorem cvttsSuid (fa fb fc : RegNum) : Statement (.cvttsSuid fa fb fc) := fun _ => decode_encIeee _ _ _ _ rfl rfl
theorem cvtst (fa fb fc : RegNum) : Statement (.cvtst fa fb fc) := fun _ => decode_encIeee _ _ _ _ rfl rfl
theorem cvtstS (fa fb fc : RegNum) : Statement (.cvtstS fa fb fc) := fun _ => decode_encIeee _ _ _ _ rfl rfl
theorem cvttq (fa fb fc : RegNum) : Statement (.cvttq fa fb fc) := fun _ => decode_encIeee _ _ _ _ rfl rfl
theorem cvttqC (fa fb fc : RegNum) : Statement (.cvttqC fa fb fc) := fun _ => decode_encIeee _ _ _ _ rfl rfl
theorem cvttqV (fa fb fc : RegNum) : Statement (.cvttqV fa fb fc) := fun _ => decode_encIeee _ _ _ _ rfl rfl
theorem cvttqVc (fa fb fc : RegNum) : Statement (.cvttqVc fa fb fc) := fun _ => decode_encIeee _ _ _ _ rfl rfl
theorem cvttqSv (fa fb fc : RegNum) : Statement (.cvttqSv fa fb fc) := fun _ => decode_encIeee _ _ _ _ rfl rfl
theorem cvttqSvc (fa fb fc : RegNum) : Statement (.cvttqSvc fa fb fc) := fun _ => decode_encIeee _ _ _ _ rfl rfl
theorem cvttqSvi (fa fb fc : RegNum) : Statement (.cvttqSvi fa fb fc) := fun _ => decode_encIeee _ _ _ _ rfl rfl
theorem cvttqSvic (fa fb fc : RegNum) : Statement (.cvttqSvic fa fb fc) := fun _ => decode_encIeee _ _ _ _ rfl rfl
theorem cvttqD (fa fb fc : RegNum) : Statement (.cvttqD fa fb fc) := fun _ => decode_encIeee _ _ _ _ rfl rfl
theorem cvttqVd (fa fb fc : RegNum) : Statement (.cvttqVd fa fb fc) := fun _ => decode_encIeee _ _ _ _ rfl rfl
theorem cvttqSvd (fa fb fc : RegNum) : Statement (.cvttqSvd fa fb fc) := fun _ => decode_encIeee _ _ _ _ rfl rfl
theorem cvttqSvid (fa fb fc : RegNum) : Statement (.cvttqSvid fa fb fc) := fun _ => decode_encIeee _ _ _ _ rfl rfl
theorem cvttqM (fa fb fc : RegNum) : Statement (.cvttqM fa fb fc) := fun _ => decode_encIeee _ _ _ _ rfl rfl
theorem cvttqVm (fa fb fc : RegNum) : Statement (.cvttqVm fa fb fc) := fun _ => decode_encIeee _ _ _ _ rfl rfl
theorem cvttqSvm (fa fb fc : RegNum) : Statement (.cvttqSvm fa fb fc) := fun _ => decode_encIeee _ _ _ _ rfl rfl
theorem cvttqSvim (fa fb fc : RegNum) : Statement (.cvttqSvim fa fb fc) := fun _ => decode_encIeee _ _ _ _ rfl rfl
theorem addf (fa fb fc : RegNum) : Statement (.addf fa fb fc) := fun _ => decode_encFp _ _ _ _ rfl rfl
theorem addfC (fa fb fc : RegNum) : Statement (.addfC fa fb fc) := fun _ => decode_encFp _ _ _ _ rfl rfl
theorem addfU (fa fb fc : RegNum) : Statement (.addfU fa fb fc) := fun _ => decode_encFp _ _ _ _ rfl rfl
theorem addfUc (fa fb fc : RegNum) : Statement (.addfUc fa fb fc) := fun _ => decode_encFp _ _ _ _ rfl rfl
theorem addfS (fa fb fc : RegNum) : Statement (.addfS fa fb fc) := fun _ => decode_encFp _ _ _ _ rfl rfl
theorem addfSc (fa fb fc : RegNum) : Statement (.addfSc fa fb fc) := fun _ => decode_encFp _ _ _ _ rfl rfl
theorem addfSu (fa fb fc : RegNum) : Statement (.addfSu fa fb fc) := fun _ => decode_encFp _ _ _ _ rfl rfl
theorem addfSuc (fa fb fc : RegNum) : Statement (.addfSuc fa fb fc) := fun _ => decode_encFp _ _ _ _ rfl rfl
theorem addg (fa fb fc : RegNum) : Statement (.addg fa fb fc) := fun _ => decode_encFp _ _ _ _ rfl rfl
theorem addgC (fa fb fc : RegNum) : Statement (.addgC fa fb fc) := fun _ => decode_encFp _ _ _ _ rfl rfl
theorem addgU (fa fb fc : RegNum) : Statement (.addgU fa fb fc) := fun _ => decode_encFp _ _ _ _ rfl rfl
theorem addgUc (fa fb fc : RegNum) : Statement (.addgUc fa fb fc) := fun _ => decode_encFp _ _ _ _ rfl rfl
theorem addgS (fa fb fc : RegNum) : Statement (.addgS fa fb fc) := fun _ => decode_encFp _ _ _ _ rfl rfl
theorem addgSc (fa fb fc : RegNum) : Statement (.addgSc fa fb fc) := fun _ => decode_encFp _ _ _ _ rfl rfl
theorem addgSu (fa fb fc : RegNum) : Statement (.addgSu fa fb fc) := fun _ => decode_encFp _ _ _ _ rfl rfl
theorem addgSuc (fa fb fc : RegNum) : Statement (.addgSuc fa fb fc) := fun _ => decode_encFp _ _ _ _ rfl rfl
theorem subf (fa fb fc : RegNum) : Statement (.subf fa fb fc) := fun _ => decode_encFp _ _ _ _ rfl rfl
theorem subfC (fa fb fc : RegNum) : Statement (.subfC fa fb fc) := fun _ => decode_encFp _ _ _ _ rfl rfl
theorem subfU (fa fb fc : RegNum) : Statement (.subfU fa fb fc) := fun _ => decode_encFp _ _ _ _ rfl rfl
theorem subfUc (fa fb fc : RegNum) : Statement (.subfUc fa fb fc) := fun _ => decode_encFp _ _ _ _ rfl rfl
theorem subfS (fa fb fc : RegNum) : Statement (.subfS fa fb fc) := fun _ => decode_encFp _ _ _ _ rfl rfl
theorem subfSc (fa fb fc : RegNum) : Statement (.subfSc fa fb fc) := fun _ => decode_encFp _ _ _ _ rfl rfl
theorem subfSu (fa fb fc : RegNum) : Statement (.subfSu fa fb fc) := fun _ => decode_encFp _ _ _ _ rfl rfl
theorem subfSuc (fa fb fc : RegNum) : Statement (.subfSuc fa fb fc) := fun _ => decode_encFp _ _ _ _ rfl rfl
theorem subg (fa fb fc : RegNum) : Statement (.subg fa fb fc) := fun _ => decode_encFp _ _ _ _ rfl rfl
theorem subgC (fa fb fc : RegNum) : Statement (.subgC fa fb fc) := fun _ => decode_encFp _ _ _ _ rfl rfl
theorem subgU (fa fb fc : RegNum) : Statement (.subgU fa fb fc) := fun _ => decode_encFp _ _ _ _ rfl rfl
theorem subgUc (fa fb fc : RegNum) : Statement (.subgUc fa fb fc) := fun _ => decode_encFp _ _ _ _ rfl rfl
theorem subgS (fa fb fc : RegNum) : Statement (.subgS fa fb fc) := fun _ => decode_encFp _ _ _ _ rfl rfl
theorem subgSc (fa fb fc : RegNum) : Statement (.subgSc fa fb fc) := fun _ => decode_encFp _ _ _ _ rfl rfl
theorem subgSu (fa fb fc : RegNum) : Statement (.subgSu fa fb fc) := fun _ => decode_encFp _ _ _ _ rfl rfl
theorem subgSuc (fa fb fc : RegNum) : Statement (.subgSuc fa fb fc) := fun _ => decode_encFp _ _ _ _ rfl rfl
theorem mulf (fa fb fc : RegNum) : Statement (.mulf fa fb fc) := fun _ => decode_encFp _ _ _ _ rfl rfl
theorem mulfC (fa fb fc : RegNum) : Statement (.mulfC fa fb fc) := fun _ => decode_encFp _ _ _ _ rfl rfl
theorem mulfU (fa fb fc : RegNum) : Statement (.mulfU fa fb fc) := fun _ => decode_encFp _ _ _ _ rfl rfl
theorem mulfUc (fa fb fc : RegNum) : Statement (.mulfUc fa fb fc) := fun _ => decode_encFp _ _ _ _ rfl rfl
theorem mulfS (fa fb fc : RegNum) : Statement (.mulfS fa fb fc) := fun _ => decode_encFp _ _ _ _ rfl rfl
theorem mulfSc (fa fb fc : RegNum) : Statement (.mulfSc fa fb fc) := fun _ => decode_encFp _ _ _ _ rfl rfl
theorem mulfSu (fa fb fc : RegNum) : Statement (.mulfSu fa fb fc) := fun _ => decode_encFp _ _ _ _ rfl rfl
theorem mulfSuc (fa fb fc : RegNum) : Statement (.mulfSuc fa fb fc) := fun _ => decode_encFp _ _ _ _ rfl rfl
theorem mulg (fa fb fc : RegNum) : Statement (.mulg fa fb fc) := fun _ => decode_encFp _ _ _ _ rfl rfl
theorem mulgC (fa fb fc : RegNum) : Statement (.mulgC fa fb fc) := fun _ => decode_encFp _ _ _ _ rfl rfl
theorem mulgU (fa fb fc : RegNum) : Statement (.mulgU fa fb fc) := fun _ => decode_encFp _ _ _ _ rfl rfl
theorem mulgUc (fa fb fc : RegNum) : Statement (.mulgUc fa fb fc) := fun _ => decode_encFp _ _ _ _ rfl rfl
theorem mulgS (fa fb fc : RegNum) : Statement (.mulgS fa fb fc) := fun _ => decode_encFp _ _ _ _ rfl rfl
theorem mulgSc (fa fb fc : RegNum) : Statement (.mulgSc fa fb fc) := fun _ => decode_encFp _ _ _ _ rfl rfl
theorem mulgSu (fa fb fc : RegNum) : Statement (.mulgSu fa fb fc) := fun _ => decode_encFp _ _ _ _ rfl rfl
theorem mulgSuc (fa fb fc : RegNum) : Statement (.mulgSuc fa fb fc) := fun _ => decode_encFp _ _ _ _ rfl rfl
theorem divf (fa fb fc : RegNum) : Statement (.divf fa fb fc) := fun _ => decode_encFp _ _ _ _ rfl rfl
theorem divfC (fa fb fc : RegNum) : Statement (.divfC fa fb fc) := fun _ => decode_encFp _ _ _ _ rfl rfl
theorem divfU (fa fb fc : RegNum) : Statement (.divfU fa fb fc) := fun _ => decode_encFp _ _ _ _ rfl rfl
theorem divfUc (fa fb fc : RegNum) : Statement (.divfUc fa fb fc) := fun _ => decode_encFp _ _ _ _ rfl rfl
theorem divfS (fa fb fc : RegNum) : Statement (.divfS fa fb fc) := fun _ => decode_encFp _ _ _ _ rfl rfl
theorem divfSc (fa fb fc : RegNum) : Statement (.divfSc fa fb fc) := fun _ => decode_encFp _ _ _ _ rfl rfl
theorem divfSu (fa fb fc : RegNum) : Statement (.divfSu fa fb fc) := fun _ => decode_encFp _ _ _ _ rfl rfl
theorem divfSuc (fa fb fc : RegNum) : Statement (.divfSuc fa fb fc) := fun _ => decode_encFp _ _ _ _ rfl rfl
theorem divg (fa fb fc : RegNum) : Statement (.divg fa fb fc) := fun _ => decode_encFp _ _ _ _ rfl rfl
theorem divgC (fa fb fc : RegNum) : Statement (.divgC fa fb fc) := fun _ => decode_encFp _ _ _ _ rfl rfl
theorem divgU (fa fb fc : RegNum) : Statement (.divgU fa fb fc) := fun _ => decode_encFp _ _ _ _ rfl rfl
theorem divgUc (fa fb fc : RegNum) : Statement (.divgUc fa fb fc) := fun _ => decode_encFp _ _ _ _ rfl rfl
theorem divgS (fa fb fc : RegNum) : Statement (.divgS fa fb fc) := fun _ => decode_encFp _ _ _ _ rfl rfl
theorem divgSc (fa fb fc : RegNum) : Statement (.divgSc fa fb fc) := fun _ => decode_encFp _ _ _ _ rfl rfl
theorem divgSu (fa fb fc : RegNum) : Statement (.divgSu fa fb fc) := fun _ => decode_encFp _ _ _ _ rfl rfl
theorem divgSuc (fa fb fc : RegNum) : Statement (.divgSuc fa fb fc) := fun _ => decode_encFp _ _ _ _ rfl rfl
theorem cmpgeq (fa fb fc : RegNum) : Statement (.cmpgeq fa fb fc) := fun _ => decode_encFp _ _ _ _ rfl rfl
theorem cmpgeqS (fa fb fc : RegNum) : Statement (.cmpgeqS fa fb fc) := fun _ => decode_encFp _ _ _ _ rfl rfl
theorem cmpglt (fa fb fc : RegNum) : Statement (.cmpglt fa fb fc) := fun _ => decode_encFp _ _ _ _ rfl rfl
theorem cmpgltS (fa fb fc : RegNum) : Statement (.cmpgltS fa fb fc) := fun _ => decode_encFp _ _ _ _ rfl rfl
theorem cmpgle (fa fb fc : RegNum) : Statement (.cmpgle fa fb fc) := fun _ => decode_encFp _ _ _ _ rfl rfl
theorem cmpgleS (fa fb fc : RegNum) : Statement (.cmpgleS fa fb fc) := fun _ => decode_encFp _ _ _ _ rfl rfl
theorem cvtgf (fa fb fc : RegNum) : Statement (.cvtgf fa fb fc) := fun _ => decode_encFp _ _ _ _ rfl rfl
theorem cvtgfC (fa fb fc : RegNum) : Statement (.cvtgfC fa fb fc) := fun _ => decode_encFp _ _ _ _ rfl rfl
theorem cvtgfU (fa fb fc : RegNum) : Statement (.cvtgfU fa fb fc) := fun _ => decode_encFp _ _ _ _ rfl rfl
theorem cvtgfUc (fa fb fc : RegNum) : Statement (.cvtgfUc fa fb fc) := fun _ => decode_encFp _ _ _ _ rfl rfl
theorem cvtgfS (fa fb fc : RegNum) : Statement (.cvtgfS fa fb fc) := fun _ => decode_encFp _ _ _ _ rfl rfl
theorem cvtgfSc (fa fb fc : RegNum) : Statement (.cvtgfSc fa fb fc) := fun _ => decode_encFp _ _ _ _ rfl rfl
theorem cvtgfSu (fa fb fc : RegNum) : Statement (.cvtgfSu fa fb fc) := fun _ => decode_encFp _ _ _ _ rfl rfl
theorem cvtgfSuc (fa fb fc : RegNum) : Statement (.cvtgfSuc fa fb fc) := fun _ => decode_encFp _ _ _ _ rfl rfl
theorem cvtgd (fa fb fc : RegNum) : Statement (.cvtgd fa fb fc) := fun _ => decode_encFp _ _ _ _ rfl rfl
theorem cvtgdC (fa fb fc : RegNum) : Statement (.cvtgdC fa fb fc) := fun _ => decode_encFp _ _ _ _ rfl rfl
theorem cvtgdU (fa fb fc : RegNum) : Statement (.cvtgdU fa fb fc) := fun _ => decode_encFp _ _ _ _ rfl rfl
theorem cvtgdUc (fa fb fc : RegNum) : Statement (.cvtgdUc fa fb fc) := fun _ => decode_encFp _ _ _ _ rfl rfl
theorem cvtgdS (fa fb fc : RegNum) : Statement (.cvtgdS fa fb fc) := fun _ => decode_encFp _ _ _ _ rfl rfl
theorem cvtgdSc (fa fb fc : RegNum) : Statement (.cvtgdSc fa fb fc) := fun _ => decode_encFp _ _ _ _ rfl rfl
theorem cvtgdSu (fa fb fc : RegNum) : Statement (.cvtgdSu fa fb fc) := fun _ => decode_encFp _ _ _ _ rfl rfl
theorem cvtgdSuc (fa fb fc : RegNum) : Statement (.cvtgdSuc fa fb fc) := fun _ => decode_encFp _ _ _ _ rfl rfl
theorem cvtqf (fa fb fc : RegNum) : Statement (.cvtqf fa fb fc) := fun _ => decode_encFp _ _ _ _ rfl rfl
theorem cvtqfC (fa fb fc : RegNum) : Statement (.cvtqfC fa fb fc) := fun _ => decode_encFp _ _ _ _ rfl rfl
theorem cvtqg (fa fb fc : RegNum) : Statement (.cvtqg fa fb fc) := fun _ => decode_encFp _ _ _ _ rfl rfl
theorem cvtqgC (fa fb fc : RegNum) : Statement (.cvtqgC fa fb fc) := fun _ => decode_encFp _ _ _ _ rfl rfl
theorem cvtdg (fa fb fc : RegNum) : Statement (.cvtdg fa fb fc) := fun _ => decode_encFp _ _ _ _ rfl rfl
theorem cvtdgC (fa fb fc : RegNum) : Statement (.cvtdgC fa fb fc) := fun _ => decode_encFp _ _ _ _ rfl rfl
theorem cvtdgU (fa fb fc : RegNum) : Statement (.cvtdgU fa fb fc) := fun _ => decode_encFp _ _ _ _ rfl rfl
theorem cvtdgUc (fa fb fc : RegNum) : Statement (.cvtdgUc fa fb fc) := fun _ => decode_encFp _ _ _ _ rfl rfl
theorem cvtdgS (fa fb fc : RegNum) : Statement (.cvtdgS fa fb fc) := fun _ => decode_encFp _ _ _ _ rfl rfl
theorem cvtdgSc (fa fb fc : RegNum) : Statement (.cvtdgSc fa fb fc) := fun _ => decode_encFp _ _ _ _ rfl rfl
theorem cvtdgSu (fa fb fc : RegNum) : Statement (.cvtdgSu fa fb fc) := fun _ => decode_encFp _ _ _ _ rfl rfl
theorem cvtdgSuc (fa fb fc : RegNum) : Statement (.cvtdgSuc fa fb fc) := fun _ => decode_encFp _ _ _ _ rfl rfl
theorem cvtgq (fa fb fc : RegNum) : Statement (.cvtgq fa fb fc) := fun _ => decode_encFp _ _ _ _ rfl rfl
theorem cvtgqC (fa fb fc : RegNum) : Statement (.cvtgqC fa fb fc) := fun _ => decode_encFp _ _ _ _ rfl rfl
theorem cvtgqV (fa fb fc : RegNum) : Statement (.cvtgqV fa fb fc) := fun _ => decode_encFp _ _ _ _ rfl rfl
theorem cvtgqVc (fa fb fc : RegNum) : Statement (.cvtgqVc fa fb fc) := fun _ => decode_encFp _ _ _ _ rfl rfl
theorem cvtgqS (fa fb fc : RegNum) : Statement (.cvtgqS fa fb fc) := fun _ => decode_encFp _ _ _ _ rfl rfl
theorem cvtgqSc (fa fb fc : RegNum) : Statement (.cvtgqSc fa fb fc) := fun _ => decode_encFp _ _ _ _ rfl rfl
theorem cvtgqSv (fa fb fc : RegNum) : Statement (.cvtgqSv fa fb fc) := fun _ => decode_encFp _ _ _ _ rfl rfl
theorem cvtgqSvc (fa fb fc : RegNum) : Statement (.cvtgqSvc fa fb fc) := fun _ => decode_encFp _ _ _ _ rfl rfl

end Sys2Proof.Laws.RoundTrip
end

