-- ==== Sys2Proof/Laws/Steps.lean ====
section
/-! SUPPORT. What an instruction, a fetch, an environment event, the counters and the work between two steps do to the fields
the invariants of Safety.lean are about. -/

namespace Sys2Proof.Machine

variable (s : State)

/-! ## Loads and stores -/

theorem Keeps.dcReference (q w : Bool) (a : PAddr) : Keeps s (s.dcReference q w a).2 := by
  unfold State.dcReference
  dsimp only
  split
  · exact .refl s
  · exact Keeps.drawn s

theorem Keeps.deliver (t : LoadTarget) (v : Word) : Keeps s (s.deliver t v) := .of_quiet (Quiet.deliver s t v)

theorem Keeps.deliverAny (t : LoadTarget) (q : Bool) : Keeps s (s.deliverAny t q) := .of_quiet (Quiet.deliverAny s t q)

theorem Keeps.loadMiss (q l : Bool) (t : LoadTarget) (a : PAddr) : Keeps s (s.loadMiss q l t a) :=
  Keeps.via (Keeps.deliver _ _ _) rfl rfl rfl rfl rfl

theorem Keeps.loadForced (r : Ref) (t : LoadTarget) (a : PAddr) : Keeps s (s.loadForced r t a) := by
  have h := Keeps.dcReference s r.quad false a
  exact Keeps.trans (.ite (h.trans (Keeps.dcError ..)) h) (Keeps.deliverAny ..)

theorem Keeps.lockIf (l : Bool) (a : PAddr) : Keeps s (if l then s.takeLock a else s) := .ite (Keeps.takeLock s a) (.refl s)

theorem Keeps.loadMemory (r : Ref) (l : Bool) (t : LoadTarget) (a : PAddr) : Keeps s (s.loadMemory r l t a) := by
  have h := Keeps.dcReference s r.quad false a
  exact .ite ((Keeps.lockIf s l a).trans (Keeps.loadForced ..)) (.ite ((Keeps.takeLock s a).trans (Keeps.loadMiss ..))
    (.ite ((h.trans (Keeps.dcError ..)).trans (Keeps.deliverAny ..))
      (.ite (h.trans (Keeps.deliver ..)) (h.trans (Keeps.loadMiss ..)))))

theorem Keeps.wbStore (b : Block) (m : BitVec 8) (d : Hexword) : Keeps s (s.wbStore b m d) :=
  .of_eq (by simp) (by simp) (by simp) (by simp) (by simp)

theorem Keeps.storeMemory (r : Ref) (a : PAddr) (v : Word) : Keeps s (s.storeMemory r a v) := by
  have h : Keeps s ((s.dcReference r.quad true a).2.dcStore r.integer r.quad a v) :=
    (Keeps.dcReference s r.quad true a).trans (.of_eq (by simp) (by simp) (by simp) (by simp) (by simp))
  have h1 := h.trans (Keeps.wbStore _ (granule a) (longsOf r.quad a) (blockData r.quad a v))
  exact .ite h1 (h1.trans (Keeps.dcError ..))

theorem Keeps.writeSlot (n : IntSlot) (v : Word) : Keeps s (s.writeSlot n v) := .of_quiet (Quiet.writeSlot s n v)

theorem Keeps.condMemory (r : Ref) (a : PAddr) (v : Word) : Keeps s (s.condMemory r a v) :=
  Keeps.via (Keeps.writeSlot _ _ _) rfl rfl rfl rfl rfl

theorem Keeps.loadNoncached (r : Ref) (l : Bool) (t : LoadTarget) (a : PAddr) : Keeps s (s.loadNoncached r l t a) := by
  have h := Keeps.lockIf s l a
  have h1 : Keeps s ((if l then s.takeLock a else s).mafPush ⟨a, r.quad, t⟩ l) := h.trans (.of_eq rfl rfl rfl rfl rfl)
  exact .ite (h.trans (Keeps.loadForced ..)) (h1.trans (Keeps.deliverAny ..))

theorem Keeps.storeNoncached (r : Ref) (a : PAddr) (v : Word) : Keeps s (s.storeNoncached r a v) :=
  .ite (Keeps.storeMemory ..) (Keeps.wbStore ..)

theorem Keeps.condNoncached (r : Ref) (a : PAddr) (v : Word) : Keeps s (s.condNoncached r a v) :=
  have h : Keeps s ((s.dropLock.wbAllocate (granule a) (.cond (s.intSlot r.ra)) (longsOf r.quad a) (blockData r.quad a v)).writeSlot
      (s.intSlot r.ra) (ofBool64 (s.freeNow.getLsbD 0))) := Keeps.via (Keeps.writeSlot ..) rfl rfl rfl rfl rfl
  h.trans (Keeps.drawn _)

theorem Keeps.cboxAfterRead (r : CboxReg) : Keeps s (s.cboxAfterRead r) := by
  cases r <;> exact .of_eq rfl rfl rfl rfl rfl

theorem Keeps.payRead (r : CboxReg) : Keeps s (s.payRead r) := .ite (.of_eq rfl rfl rfl rfl rfl) (.refl s)

theorem Keeps.owe (a b c : Bool) : Keeps s (s.owe a b c) := .ite (.refl s) (.of_eq rfl rfl rfl rfl rfl)

theorem KeepsRes.ite {r r' : Res State} {c : Prop} [Decidable c] (h : KeepsRes s r) (h' : KeepsRes s r') :
    KeepsRes s (if c then r else r') := by
  split
  · exact h
  · exact h'

theorem KeepsRes.ordered {same : Bool} {r : Res State} (h : KeepsRes s r) : KeepsRes s (s.ordered same r) :=
  .ite s h (.refused ..)

theorem KeepsRes.cboxWrite (r : CboxReg) (v : Word) : KeepsRes s (s.cboxWrite r v) := by
  cases r
  case scCtl =>
    have h : Keeps s { s with cbox := { s.cbox with scCtl := v.setWidth 16 } } := .of_eq rfl rfl rfl rfl rfl
    exact .ite s (.refused ..) (.ite s (.refused ..) (.ite s (.refused ..)
      (.ordered s (.next (Keeps.trans (.ite (h.trans (.of_quiet (Quiet.scFlush _))) h) (Keeps.owe ..))))))
  case bcControl =>
    exact .ite s (.refused ..) (.ite s (.refused ..) (.ite s (.refused ..)
      (.ordered s (.next (Keeps.via (Keeps.owe ..) rfl rfl rfl rfl rfl)))))
  case bcConfig =>
    exact .ite s (.refused ..) (.ite s (.refused ..)
      (.ordered s (.next (Keeps.via (Keeps.owe ..) rfl rfl rfl rfl rfl))))
  all_goals exact .next (.refl s)

theorem KeepsRes.loadAt (r : Ref) (l : Bool) (t : LoadTarget) (pa : PAddr) : KeepsRes s (s.loadAt r l t pa) := by
  unfold State.loadAt
  dsimp only
  split
  · exact .next (Keeps.loadMemory ..)
  · exact .next (Keeps.loadNoncached ..)
  · unfold State.loadCbox
    split
    · exact .fault ..
    · refine .ite s (.refused ..) (.ite s (.refused ..) (.next ?_))
      exact (((Keeps.cboxAfterRead s _).trans (Keeps.drawn _)).trans (Keeps.payRead ..)).trans (Keeps.deliver ..)

theorem KeepsRes.trans {s t : State} {r : Res State} (h : Keeps s t) (h' : KeepsRes t r) : KeepsRes s r :=
  ⟨fun u hu => h.trans (h'.of u hu)⟩

theorem KeepsRes.storeAt (r : Ref) (pa : PAddr) (v : Word) : KeepsRes s (s.storeAt r pa v) := by
  unfold State.storeAt
  dsimp only
  split
  · exact .next (Keeps.storeMemory ..)
  · exact .next (Keeps.storeNoncached ..)
  · unfold State.storeCbox
    split
    · exact .fault ..
    · exact .trans (.ite (.refl s) (Keeps.drawn s)) (KeepsRes.cboxWrite ..)

theorem KeepsRes.condAt (r : Ref) (pa : PAddr) (v : Word) : KeepsRes s (s.condAt r pa v) := by
  unfold State.condAt
  dsimp only
  split
  · exact .ite s (.refused ..) (.next (Keeps.condMemory ..))
  · exact .next (Keeps.condNoncached ..)
  · unfold condCbox
    split
    · exact .fault ..
    · exact .refused ..

theorem KeepsRes.dstream {r : Ref} {access : State → PAddr → Res State} (ha : ∀ t pa, KeepsRes t (access t pa)) :
    KeepsRes s (s.dstream r access) := by
  constructor
  intro t ht
  rcases State.dstream_eq_next ht with ⟨pa, hit, u, _, _, hacc, rfl⟩ | ⟨e, bits, _, rfl⟩
  · refine ((Keeps.touchDtb s hit).trans ((ha _ _).of u hacc)).trans ?_
    exact Keeps.via (Keeps.advance { u with afterMb := false }) rfl rfl rfl rfl rfl
  · exact Keeps.mmTrap ..

theorem KeepsRes.load (r : Ref) (l : Bool) (t : LoadTarget) : KeepsRes s (s.load r l t) :=
  .dstream s fun u _ => KeepsRes.loadAt u r l t _

theorem KeepsRes.store (r : Ref) (v : Word) : KeepsRes s (s.store r v) := .dstream s fun u _ => KeepsRes.storeAt u r _ v

theorem KeepsRes.storeCond (r : Ref) (v : Word) : KeepsRes s (s.storeCond r v) := .dstream s fun u _ => KeepsRes.condAt u r _ v

/-! ## Internal processor registers -/

theorem Keeps.iprAfterRead (r : Ipr) : Keeps s (s.iprAfterRead r) := by
  cases r <;> exact .of_eq rfl rfl rfl rfl rfl

/-- ICSR after a write: only named bits are ones. -/
theorem icsr_write (v i f : Word) :
    ((v &&& icsrWritable) ||| (i &&& 0x4000000000#64) ||| (f &&& 0x2000000000#64)) &&& ~~~0xFF7FF00300#64 = 0#64 := by
  simp only [BitVec.and_or_distrib_right, BitVec.and_assoc]
  rw [show icsrWritable &&& ~~~0xFF7FF00300#64 = 0#64 by decide,
    show (0x4000000000#64 : Word) &&& ~~~0xFF7FF00300#64 = 0#64 by decide,
    show (0x2000000000#64 : Word) &&& ~~~0xFF7FF00300#64 = 0#64 by decide]
  simp

theorem mcsr_write {v : Word} (h : v.getLsbD 3 = false) (h' : v.getLsbD 5 = false) :
    v.setWidth 6 &&& 0b101000#6 = 0#6 := by
  apply BitVec.eq_of_getLsbD_eq
  intro i hi
  simp only [BitVec.getLsbD_and, BitVec.getLsbD_setWidth]
  interval_cases i <;> simp_all

theorem KeepsRes.iprWrite (r : Ipr) (v : Word) : KeepsRes s (s.iprWrite r v) := by
  cases r
  case icsr =>
    unfold State.iprWrite State.writeIcsr
    simp only
    split
    · exact .refused ..
    · refine .next ?_
      have hz := icsr_write v s.ibox.icsr 0#64
      have hf := icsr_write v s.ibox.icsr s.freeNow
      rw [BitVec.zero_and, BitVec.or_zero] at hz
      split
      · exact .of_mem rfl fun hp hr => ⟨hp, hz, hr.2⟩
      · exact .of_mem rfl fun hp hr => ⟨hp, hf, hr.2⟩
  case mcsr =>
    unfold State.iprWrite State.writeMcsr
    simp only
    split
    · exact .refused ..
    · rename_i h
      split
      · exact .refused ..
      · simp only [Bool.or_eq_true, not_or, Bool.not_eq_true] at h
        exact .next (.of_mem rfl fun hp hr => ⟨hp, hr.1, mcsr_write h.1 h.2⟩)
  case excAddr => exact .next (.of_mem rfl fun hp hr => ⟨⟨hp.1, clear1_and v⟩, hr⟩)
  all_goals exact .next (.of_eq rfl rfl rfl rfl rfl)

theorem Keeps.mfpr (ra : RegNum) (index : BitVec 16) : Keeps s (s.mfpr ra index) := by
  unfold State.mfpr
  split
  · exact (((Keeps.iprAfterRead s _).trans (Keeps.writeInt _ _ _)).trans (Keeps.drawn _)).trans (Keeps.advance _)
  · exact ((Keeps.writeInt s _ _).trans (Keeps.drawn _)).trans (Keeps.advance _)

theorem KeepsRes.mtpr (ra : RegNum) (index : BitVec 16) : KeepsRes s (s.mtpr ra index) := by
  unfold State.mtpr
  split
  · exact .mapRes (KeepsRes.iprWrite s _ _) Keeps.advance
  · exact .refused ..

/-! ## The other shared operations -/

theorem Keeps.link (ra : RegNum) : Keeps s (s.link ra) := Keeps.writeInt ..

theorem Keeps.branchIf (b : Bool) (d : BitVec 21) : Keeps s (s.branchIf b d) := by
  unfold State.branchIf
  split
  · exact Keeps.jumpTo ..
  · exact Keeps.advance s

theorem Keeps.cmov (c : Word → Bool) (ra : RegNum) (rb : RegOrLit) (rc : RegNum) : Keeps s (s.cmov c ra rb rc) := by
  unfold State.cmov
  split
  · exact (Keeps.writeInt s _ _).trans (Keeps.advance _)
  · exact Keeps.advance s

theorem Keeps.fcmov (c : Word → Bool) (fa fb fc : RegNum) : Keeps s (s.fcmov c fa fb fc) := by
  unfold State.fcmov
  split
  · exact (Keeps.writeFp s _ _).trans (Keeps.advance _)
  · exact Keeps.advance s

theorem Keeps.callPal (f : BitVec 26) : Keeps s (s.callPal f) := by
  unfold State.callPal
  split
  · exact Keeps.enterPal s _ _ (palOffset_aligned f)
  · exact Keeps.precise s _

theorem KeepsRes.prefetch (k : WbKind) (ra rb : RegNum) : KeepsRes s (s.prefetch k ra rb) := by
  unfold State.prefetch
  split
  · rename_i pa hit _
    have h : Keeps s ((s.touchDtb hit).wbAllocate (granule pa) k 0#8 0#256) :=
      (Keeps.touchDtb s hit).trans (.of_eq rfl rfl rfl rfl rfl)
    exact .next (h.trans (Keeps.advance _))
  · exact .next (Keeps.advance s)
  · exact .refused ..

theorem Keeps.syncIstream (b : Bool) : Keeps s (s.syncIstream b) := by
  unfold State.syncIstream
  split <;> exact .of_eq rfl rfl rfl rfl rfl

/-! ## Every instruction -/

theorem keepsRes_exec (i : Instr) : KeepsRes s (exec i s) := by
  cases i with
  | lda ra rb disp => exact .next ((Keeps.writeInt s _ _).trans (Keeps.advance _))
  | ldah ra rb disp => exact .next ((Keeps.writeInt s _ _).trans (Keeps.advance _))
  | ldl ra rb disp => exact .load s _ _ _
  | ldq ra rb disp => exact .load s _ _ _
  | ldqU ra rb disp =>
    show KeepsRes s (execLdqU ra rb disp s)
    unfold execLdqU
    split
    · exact .next (Keeps.advance s)
    · exact .load s _ _ _
  | ldlL ra rb disp => exact .load s _ _ _
  | ldqL ra rb disp => exact .load s _ _ _
  | stl ra rb disp => exact .store s _ _
  | stq ra rb disp => exact .store s _ _
  | stqU ra rb disp => exact .store s _ _
  | stlC ra rb disp => exact .storeCond s _ _
  | stqC ra rb disp => exact .storeCond s _ _
  | ldf ra rb disp => exact (show KeepsRes s (execLdf ra rb disp s) by unfold execLdf; exact .fpGate s (by exact .load s _ _ _))
  | ldg ra rb disp => exact (show KeepsRes s (execLdg ra rb disp s) by unfold execLdg; exact .fpGate s (by exact .load s _ _ _))
  | lds ra rb disp => exact (show KeepsRes s (execLds ra rb disp s) by unfold execLds; exact .fpGate s (by exact .load s _ _ _))
  | ldt ra rb disp => exact (show KeepsRes s (execLdt ra rb disp s) by unfold execLdt; exact .fpGate s (by exact .load s _ _ _))
  | stf ra rb disp => exact (show KeepsRes s (execStf ra rb disp s) by unfold execStf; exact .fpGate s (by exact .store s _ _))
  | stg ra rb disp => exact (show KeepsRes s (execStg ra rb disp s) by unfold execStg; exact .fpGate s (by exact .store s _ _))
  | sts ra rb disp => exact (show KeepsRes s (execSts ra rb disp s) by unfold execSts; exact .fpGate s (by exact .store s _ _))
  | stt ra rb disp => exact (show KeepsRes s (execStt ra rb disp s) by unfold execStt; exact .fpGate s (by exact .store s _ _))
  | br ra disp => exact .next ((Keeps.link s _).trans (Keeps.jumpTo _ _))
  | bsr ra disp => exact .next ((Keeps.link s _).trans (Keeps.jumpTo _ _))
  | beq ra disp => exact .next (Keeps.branchIf s _ _)
  | bne ra disp => exact .next (Keeps.branchIf s _ _)
  | blt ra disp => exact .next (Keeps.branchIf s _ _)
  | ble ra disp => exact .next (Keeps.branchIf s _ _)
  | bgt ra disp => exact .next (Keeps.branchIf s _ _)
  | bge ra disp => exact .next (Keeps.branchIf s _ _)
  | blbc ra disp => exact .next (Keeps.branchIf s _ _)
  | blbs ra disp => exact .next (Keeps.branchIf s _ _)
  | fbeq ra disp => exact (show KeepsRes s (execFbeq ra disp s) by unfold execFbeq; exact .fpGate s (by exact .next (Keeps.branchIf s _ _)))
  | fbne ra disp => exact (show KeepsRes s (execFbne ra disp s) by unfold execFbne; exact .fpGate s (by exact .next (Keeps.branchIf s _ _)))
  | fblt ra disp => exact (show KeepsRes s (execFblt ra disp s) by unfold execFblt; exact .fpGate s (by exact .next (Keeps.branchIf s _ _)))
  | fble ra disp => exact (show KeepsRes s (execFble ra disp s) by unfold execFble; exact .fpGate s (by exact .next (Keeps.branchIf s _ _)))
  | fbgt ra disp => exact (show KeepsRes s (execFbgt ra disp s) by unfold execFbgt; exact .fpGate s (by exact .next (Keeps.branchIf s _ _)))
  | fbge ra disp => exact (show KeepsRes s (execFbge ra disp s) by unfold execFbge; exact .fpGate s (by exact .next (Keeps.branchIf s _ _)))
  | jmp ra rb hint => exact .next ((Keeps.link s _).trans (Keeps.jumpTo _ _))
  | jsr ra rb hint => exact .next ((Keeps.link s _).trans (Keeps.jumpTo _ _))
  | ret ra rb hint => exact .next ((Keeps.link s _).trans (Keeps.jumpTo _ _))
  | jsrCoroutine ra rb hint => exact .next ((Keeps.link s _).trans (Keeps.jumpTo _ _))
  | addl ra rb rc => exact .next (Keeps.finishInt s _ _ _)
  | addlV ra rb rc => exact .next (Keeps.finishInt s _ _ _)
  | addq ra rb rc => exact .next (Keeps.finishInt s _ _ _)
  | addqV ra rb rc => exact .next (Keeps.finishInt s _ _ _)
  | s4addl ra rb rc => exact .next (Keeps.finishInt s _ _ _)
  | s4addq ra rb rc => exact .next (Keeps.finishInt s _ _ _)
  | s8addl ra rb rc => exact .next (Keeps.finishInt s _ _ _)
  | s8addq ra rb rc => exact .next (Keeps.finishInt s _ _ _)
  | subl ra rb rc => exact .next (Keeps.finishInt s _ _ _)
  | sublV ra rb rc => exact .next (Keeps.finishInt s _ _ _)
  | subq ra rb rc => exact .next (Keeps.finishInt s _ _ _)
  | subqV ra rb rc => exact .next (Keeps.finishInt s _ _ _)
  | s4subl ra rb rc => exact .next (Keeps.finishInt s _ _ _)
  | s4subq ra rb rc => exact .next (Keeps.finishInt s _ _ _)
  | s8subl ra rb rc => exact .next (Keeps.finishInt s _ _ _)
  | s8subq ra rb rc => exact .next (Keeps.finishInt s _ _ _)
  | cmpeq ra rb rc => exact .next (Keeps.finishInt s _ _ _)
  | cmplt ra rb rc => exact .next (Keeps.finishInt s _ _ _)
  | cmple ra rb rc => exact .next (Keeps.finishInt s _ _ _)
  | cmpult ra rb rc => exact .next (Keeps.finishInt s _ _ _)
  | cmpule ra rb rc => exact .next (Keeps.finishInt s _ _ _)
  | mull ra rb rc => exact .next (Keeps.finishInt s _ _ _)
  | mullV ra rb rc => exact .next (Keeps.finishInt s _ _ _)
  | mulq ra rb rc => exact .next (Keeps.finishInt s _ _ _)
  | mulqV ra rb rc => exact .next (Keeps.finishInt s _ _ _)
  | umulh ra rb rc => exact .next (Keeps.finishInt s _ _ _)
  | and ra rb rc => exact .next (Keeps.finishInt s _ _ _)
  | bic ra rb rc => exact .next (Keeps.finishInt s _ _ _)
  | bis ra rb rc => exact .next (Keeps.finishInt s _ _ _)
  | ornot ra rb rc => exact .next (Keeps.finishInt s _ _ _)
  | xor ra rb rc => exact .next (Keeps.finishInt s _ _ _)
  | eqv ra rb rc => exact .next (Keeps.finishInt s _ _ _)
  | cmoveq ra rb rc => exact .next (Keeps.cmov s _ _ _ _)
  | cmovne ra rb rc => exact .next (Keeps.cmov s _ _ _ _)
  | cmovlt ra rb rc => exact .next (Keeps.cmov s _ _ _ _)
  | cmovge ra rb rc => exact .next (Keeps.cmov s _ _ _ _)
  | cmovle ra rb rc => exact .next (Keeps.cmov s _ _ _ _)
  | cmovgt ra rb rc => exact .next (Keeps.cmov s _ _ _ _)
  | cmovlbs ra rb rc => exact .next (Keeps.cmov s _ _ _ _)
  | cmovlbc ra rb rc => exact .next (Keeps.cmov s _ _ _ _)
  | sll ra rb rc => exact .next (Keeps.finishInt s _ _ _)
  | srl ra rb rc => exact .next (Keeps.finishInt s _ _ _)
  | sra ra rb rc => exact .next (Keeps.finishInt s _ _ _)
  | cmpbge ra rb rc => exact .next (Keeps.finishInt s _ _ _)
  | extbl ra rb rc => exact .next (Keeps.finishInt s _ _ _)
  | extwl ra rb rc => exact .next (Keeps.finishInt s _ _ _)
  | extll ra rb rc => exact .next (Keeps.finishInt s _ _ _)
  | extql ra rb rc => exact .next (Keeps.finishInt s _ _ _)
  | extwh ra rb rc => exact .next (Keeps.finishInt s _ _ _)
  | extlh ra rb rc => exact .next (Keeps.finishInt s _ _ _)
  | extqh ra rb rc => exact .next (Keeps.finishInt s _ _ _)
  | insbl ra rb rc => exact .next (Keeps.finishInt s _ _ _)
  | inswl ra rb rc => exact .next (Keeps.finishInt s _ _ _)
  | insll ra rb rc => exact .next (Keeps.finishInt s _ _ _)
  | insql ra rb rc => exact .next (Keeps.finishInt s _ _ _)
  | inswh ra rb rc => exact .next (Keeps.finishInt s _ _ _)
  | inslh ra rb rc => exact .next (Keeps.finishInt s _ _ _)
  | insqh ra rb rc => exact .next (Keeps.finishInt s _ _ _)
  | mskbl ra rb rc => exact .next (Keeps.finishInt s _ _ _)
  | mskwl ra rb rc => exact .next (Keeps.finishInt s _ _ _)
  | mskll ra rb rc => exact .next (Keeps.finishInt s _ _ _)
  | mskql ra rb rc => exact .next (Keeps.finishInt s _ _ _)
  | mskwh ra rb rc => exact .next (Keeps.finishInt s _ _ _)
  | msklh ra rb rc => exact .next (Keeps.finishInt s _ _ _)
  | mskqh ra rb rc => exact .next (Keeps.finishInt s _ _ _)
  | zap ra rb rc => exact .next (Keeps.finishInt s _ _ _)
  | zapnot ra rb rc => exact .next (Keeps.finishInt s _ _ _)
  | callPal f => exact .next (Keeps.callPal s _)
  | mb ra rb => exact .next (Keeps.via (Keeps.advance _) rfl rfl rfl rfl rfl)
  | wmb ra rb => exact .next (Keeps.via (Keeps.advance _) rfl rfl rfl rfl rfl)
  | excb ra rb => exact .next (Keeps.advance s)
  | trapb ra rb => exact .next (Keeps.advance s)
  | fetch ra rb => exact .prefetch s _ _ _
  | fetchM ra rb => exact .prefetch s _ _ _
  | rpcc ra rb => exact .next ((Keeps.writeInt s _ _).trans (Keeps.advance _))
  | rc ra rb => exact .next (((Keeps.writeInt s _ _).trans (.of_eq rfl rfl rfl rfl rfl)).trans (Keeps.advance _))
  | rs ra rb => exact .next (((Keeps.writeInt s _ _).trans (.of_eq rfl rfl rfl rfl rfl)).trans (Keeps.advance _))
  | hwMfpr ra rb index => exact (show KeepsRes s (execHwMfpr ra rb index s) by unfold execHwMfpr; exact .palGate s (by exact .next (Keeps.mfpr s _ _)))
  | hwLd ra rb phys alt wrtck quad vpte lock disp => exact (show KeepsRes s (execHwLd ra rb phys alt wrtck quad vpte lock disp s) by unfold execHwLd; exact .palGate s (by exact .load s _ _ _))
  | hwMtpr ra rb index => exact (show KeepsRes s (execHwMtpr ra rb index s) by unfold execHwMtpr; exact .palGate s (by exact .mtpr s _ _))
  | hwRei ra rb typ mbz =>
    show KeepsRes s (execHwRei ra rb typ mbz s)
    unfold execHwRei
    refine .palGate s ?_
    split
    · exact .refused ..
    · exact .next (Keeps.trans (Keeps.syncIstream s _) (Keeps.returnFromPal _))
  | hwSt ra rb phys alt mbz13 quad mbz11 cond disp =>
    show KeepsRes s (execHwSt ra rb phys alt mbz13 quad mbz11 cond disp s)
    unfold execHwSt
    refine .palGate s ?_
    split
    · exact .refused ..
    · split
      · exact .storeCond s _ _
      · exact .store s _ _
  | callPalHalt  => exact .next (Keeps.callPal s _)
  | callPalDraina  => exact .next (Keeps.callPal s _)
  | callPalImb  => exact .next (Keeps.callPal s _)
  | opc01 rest => exact .next (Keeps.precise s _)
  | opc02 rest => exact .next (Keeps.precise s _)
  | opc03 rest => exact .next (Keeps.precise s _)
  | opc04 rest => exact .next (Keeps.precise s _)
  | opc05 rest => exact .next (Keeps.precise s _)
  | opc06 rest => exact .next (Keeps.precise s _)
  | opc07 rest => exact .next (Keeps.precise s _)
  | opc0a rest => exact .next (Keeps.precise s _)
  | opc0c rest => exact .next (Keeps.precise s _)
  | opc0d rest => exact .next (Keeps.precise s _)
  | opc0e rest => exact .next (Keeps.precise s _)
  | opc14 rest => exact .next (Keeps.precise s _)
  | opc1c rest => exact .next (Keeps.precise s _)
  | cpys fa fb fc => exact (show KeepsRes s (execCpys fa fb fc s) by unfold execCpys; exact .fpGate s (by exact .next (Keeps.finishFp s _ _ _)))
  | cpysn fa fb fc => exact (show KeepsRes s (execCpysn fa fb fc s) by unfold execCpysn; exact .fpGate s (by exact .next (Keeps.finishFp s _ _ _)))
  | cpyse fa fb fc => exact (show KeepsRes s (execCpyse fa fb fc s) by unfold execCpyse; exact .fpGate s (by exact .next (Keeps.finishFp s _ _ _)))
  | cvtlq fa fb fc => exact (show KeepsRes s (execCvtlq fa fb fc s) by unfold execCvtlq; exact .fpGate s (by exact .next (Keeps.finishFp s _ _ _)))
  | cvtql fa fb fc => exact (show KeepsRes s (execCvtql fa fb fc s) by unfold execCvtql; exact .fpGate s (by exact .next (Keeps.finishFp s _ _ _)))
  | cvtqlV fa fb fc => exact (show KeepsRes s (execCvtqlV fa fb fc s) by unfold execCvtqlV; exact .fpGate s (by exact .next (Keeps.finishFp s _ _ _)))
  | cvtqlSv fa fb fc => exact (show KeepsRes s (execCvtqlSv fa fb fc s) by unfold execCvtqlSv; exact .fpGate s (by exact .next (Keeps.finishFp s _ _ _)))
  | fcmoveq fa fb fc => exact (show KeepsRes s (execFcmoveq fa fb fc s) by unfold execFcmoveq; exact .fpGate s (by exact .next (Keeps.fcmov s _ _ _ _)))
  | fcmovne fa fb fc => exact (show KeepsRes s (execFcmovne fa fb fc s) by unfold execFcmovne; exact .fpGate s (by exact .next (Keeps.fcmov s _ _ _ _)))
  | fcmovlt fa fb fc => exact (show KeepsRes s (execFcmovlt fa fb fc s) by unfold execFcmovlt; exact .fpGate s (by exact .next (Keeps.fcmov s _ _ _ _)))
  | fcmovge fa fb fc => exact (show KeepsRes s (execFcmovge fa fb fc s) by unfold execFcmovge; exact .fpGate s (by exact .next (Keeps.fcmov s _ _ _ _)))
  | fcmovle fa fb fc => exact (show KeepsRes s (execFcmovle fa fb fc s) by unfold execFcmovle; exact .fpGate s (by exact .next (Keeps.fcmov s _ _ _ _)))
  | fcmovgt fa fb fc => exact (show KeepsRes s (execFcmovgt fa fb fc s) by unfold execFcmovgt; exact .fpGate s (by exact .next (Keeps.fcmov s _ _ _ _)))
  | mtFpcr fa fb fc => exact (show KeepsRes s (execMtFpcr fa fb fc s) by unfold execMtFpcr; exact .fpGate s (by exact .next (Keeps.via (Keeps.advance _) rfl rfl rfl rfl rfl)))
  | mfFpcr fa fb fc => exact (show KeepsRes s (execMfFpcr fa fb fc s) by unfold execMfFpcr; exact .fpGate s (by exact .next ((Keeps.writeFp s _ _).trans (Keeps.advance _))))
  | adds fa fb fc => exact (show KeepsRes s (execAdds fa fb fc s) by unfold execAdds; exact .fpGate s (by exact .next (Keeps.finishFp s _ _ _)))
  | addsC fa fb fc => exact (show KeepsRes s (execAddsC fa fb fc s) by unfold execAddsC; exact .fpGate s (by exact .next (Keeps.finishFp s _ _ _)))
  | addsM fa fb fc => exact (show KeepsRes s (execAddsM fa fb fc s) by unfold execAddsM; exact .fpGate s (by exact .next (Keeps.finishFp s _ _ _)))
  | addsD fa fb fc => exact (show KeepsRes s (execAddsD fa fb fc s) by unfold execAddsD; exact .fpGate s (by exact .next (Keeps.finishFp s _ _ _)))
  | addsU fa fb fc => exact (show KeepsRes s (execAddsU fa fb fc s) by unfold execAddsU; exact .fpGate s (by exact .next (Keeps.finishFp s _ _ _)))
  | addsUc fa fb fc => exact (show KeepsRes s (execAddsUc fa fb fc s) by unfold execAddsUc; exact .fpGate s (by exact .next (Keeps.finishFp s _ _ _)))
  | addsUm fa fb fc => exact (show KeepsRes s (execAddsUm fa fb fc s) by unfold execAddsUm; exact .fpGate s (by exact .next (Keeps.finishFp s _ _ _)))
  | addsUd fa fb fc => exact (show KeepsRes s (execAddsUd fa fb fc s) by unfold execAddsUd; exact .fpGate s (by exact .next (Keeps.finishFp s _ _ _)))
  | addsSu fa fb fc => exact (show KeepsRes s (execAddsSu fa fb fc s) by unfold execAddsSu; exact .fpGate s (by exact .next (Keeps.finishFp s _ _ _)))
  | addsSuc fa fb fc => exact (show KeepsRes s (execAddsSuc fa fb fc s) by unfold execAddsSuc; exact .fpGate s (by exact .next (Keeps.finishFp s _ _ _)))
  | addsSum fa fb fc => exact (show KeepsRes s (execAddsSum fa fb fc s) by unfold execAddsSum; exact .fpGate s (by exact .next (Keeps.finishFp s _ _ _)))
  | addsSud fa fb fc => exact (show KeepsRes s (execAddsSud fa fb fc s) by unfold execAddsSud; exact .fpGate s (by exact .next (Keeps.finishFp s _ _ _)))
  | addsSui fa fb fc => exact (show KeepsRes s (execAddsSui fa fb fc s) by unfold execAddsSui; exact .fpGate s (by exact .next (Keeps.finishFp s _ _ _)))
  | addsSuic fa fb fc => exact (show KeepsRes s (execAddsSuic fa fb fc s) by unfold execAddsSuic; exact .fpGate s (by exact .next (Keeps.finishFp s _ _ _)))
  | addsSuim fa fb fc => exact (show KeepsRes s (execAddsSuim fa fb fc s) by unfold execAddsSuim; exact .fpGate s (by exact .next (Keeps.finishFp s _ _ _)))
  | addsSuid fa fb fc => exact (show KeepsRes s (execAddsSuid fa fb fc s) by unfold execAddsSuid; exact .fpGate s (by exact .next (Keeps.finishFp s _ _ _)))
  | addt fa fb fc => exact (show KeepsRes s (execAddt fa fb fc s) by unfold execAddt; exact .fpGate s (by exact .next (Keeps.finishFp s _ _ _)))
  | addtC fa fb fc => exact (show KeepsRes s (execAddtC fa fb fc s) by unfold execAddtC; exact .fpGate s (by exact .next (Keeps.finishFp s _ _ _)))
  | addtM fa fb fc => exact (show KeepsRes s (execAddtM fa fb fc s) by unfold execAddtM; exact .fpGate s (by exact .next (Keeps.finishFp s _ _ _)))
  | addtD fa fb fc => exact (show KeepsRes s (execAddtD fa fb fc s) by unfold execAddtD; exact .fpGate s (by exact .next (Keeps.finishFp s _ _ _)))
  | addtU fa fb fc => exact (show KeepsRes s (execAddtU fa fb fc s) by unfold execAddtU; exact .fpGate s (by exact .next (Keeps.finishFp s _ _ _)))
  | addtUc fa fb fc => exact (show KeepsRes s (execAddtUc fa fb fc s) by unfold execAddtUc; exact .fpGate s (by exact .next (Keeps.finishFp s _ _ _)))
  | addtUm fa fb fc => exact (show KeepsRes s (execAddtUm fa fb fc s) by unfold execAddtUm; exact .fpGate s (by exact .next (Keeps.finishFp s _ _ _)))
  | addtUd fa fb fc => exact (show KeepsRes s (execAddtUd fa fb fc s) by unfold execAddtUd; exact .fpGate s (by exact .next (Keeps.finishFp s _ _ _)))
  | addtSu fa fb fc => exact (show KeepsRes s (execAddtSu fa fb fc s) by unfold execAddtSu; exact .fpGate s (by exact .next (Keeps.finishFp s _ _ _)))
  | addtSuc fa fb fc => exact (show KeepsRes s (execAddtSuc fa fb fc s) by unfold execAddtSuc; exact .fpGate s (by exact .next (Keeps.finishFp s _ _ _)))
  | addtSum fa fb fc => exact (show KeepsRes s (execAddtSum fa fb fc s) by unfold execAddtSum; exact .fpGate s (by exact .next (Keeps.finishFp s _ _ _)))
  | addtSud fa fb fc => exact (show KeepsRes s (execAddtSud fa fb fc s) by unfold execAddtSud; exact .fpGate s (by exact .next (Keeps.finishFp s _ _ _)))
  | addtSui fa fb fc => exact (show KeepsRes s (execAddtSui fa fb fc s) by unfold execAddtSui; exact .fpGate s (by exact .next (Keeps.finishFp s _ _ _)))
  | addtSuic fa fb fc => exact (show KeepsRes s (execAddtSuic fa fb fc s) by unfold execAddtSuic; exact .fpGate s (by exact .next (Keeps.finishFp s _ _ _)))
  | addtSuim fa fb fc => exact (show KeepsRes s (execAddtSuim fa fb fc s) by unfold execAddtSuim; exact .fpGate s (by exact .next (Keeps.finishFp s _ _ _)))
  | addtSuid fa fb fc => exact (show KeepsRes s (execAddtSuid fa fb fc s) by unfold execAddtSuid; exact .fpGate s (by exact .next (Keeps.finishFp s _ _ _)))
  | subs fa fb fc => exact (show KeepsRes s (execSubs fa fb fc s) by unfold execSubs; exact .fpGate s (by exact .next (Keeps.finishFp s _ _ _)))
  | subsC fa fb fc => exact (show KeepsRes s (execSubsC fa fb fc s) by unfold execSubsC; exact .fpGate s (by exact .next (Keeps.finishFp s _ _ _)))
  | subsM fa fb fc => exact (show KeepsRes s (execSubsM fa fb fc s) by unfold execSubsM; exact .fpGate s (by exact .next (Keeps.finishFp s _ _ _)))
  | subsD fa fb fc => exact (show KeepsRes s (execSubsD fa fb fc s) by unfold execSubsD; exact .fpGate s (by exact .next (Keeps.finishFp s _ _ _)))
  | subsU fa fb fc => exact (show KeepsRes s (execSubsU fa fb fc s) by unfold execSubsU; exact .fpGate s (by exact .next (Keeps.finishFp s _ _ _)))
  | subsUc fa fb fc => exact (show KeepsRes s (execSubsUc fa fb fc s) by unfold execSubsUc; exact .fpGate s (by exact .next (Keeps.finishFp s _ _ _)))
  | subsUm fa fb fc => exact (show KeepsRes s (execSubsUm fa fb fc s) by unfold execSubsUm; exact .fpGate s (by exact .next (Keeps.finishFp s _ _ _)))
  | subsUd fa fb fc => exact (show KeepsRes s (execSubsUd fa fb fc s) by unfold execSubsUd; exact .fpGate s (by exact .next (Keeps.finishFp s _ _ _)))
  | subsSu fa fb fc => exact (show KeepsRes s (execSubsSu fa fb fc s) by unfold execSubsSu; exact .fpGate s (by exact .next (Keeps.finishFp s _ _ _)))
  | subsSuc fa fb fc => exact (show KeepsRes s (execSubsSuc fa fb fc s) by unfold execSubsSuc; exact .fpGate s (by exact .next (Keeps.finishFp s _ _ _)))
  | subsSum fa fb fc => exact (show KeepsRes s (execSubsSum fa fb fc s) by unfold execSubsSum; exact .fpGate s (by exact .next (Keeps.finishFp s _ _ _)))
  | subsSud fa fb fc => exact (show KeepsRes s (execSubsSud fa fb fc s) by unfold execSubsSud; exact .fpGate s (by exact .next (Keeps.finishFp s _ _ _)))
  | subsSui fa fb fc => exact (show KeepsRes s (execSubsSui fa fb fc s) by unfold execSubsSui; exact .fpGate s (by exact .next (Keeps.finishFp s _ _ _)))
  | subsSuic fa fb fc => exact (show KeepsRes s (execSubsSuic fa fb fc s) by unfold execSubsSuic; exact .fpGate s (by exact .next (Keeps.finishFp s _ _ _)))
  | subsSuim fa fb fc => exact (show KeepsRes s (execSubsSuim fa fb fc s) by unfold execSubsSuim; exact .fpGate s (by exact .next (Keeps.finishFp s _ _ _)))
  | subsSuid fa fb fc => exact (show KeepsRes s (execSubsSuid fa fb fc s) by unfold execSubsSuid; exact .fpGate s (by exact .next (Keeps.finishFp s _ _ _)))
  | subt fa fb fc => exact (show KeepsRes s (execSubt fa fb fc s) by unfold execSubt; exact .fpGate s (by exact .next (Keeps.finishFp s _ _ _)))
  | subtC fa fb fc => exact (show KeepsRes s (execSubtC fa fb fc s) by unfold execSubtC; exact .fpGate s (by exact .next (Keeps.finishFp s _ _ _)))
  | subtM fa fb fc => exact (show KeepsRes s (execSubtM fa fb fc s) by unfold execSubtM; exact .fpGate s (by exact .next (Keeps.finishFp s _ _ _)))
  | subtD fa fb fc => exact (show KeepsRes s (execSubtD fa fb fc s) by unfold execSubtD; exact .fpGate s (by exact .next (Keeps.finishFp s _ _ _)))
  | subtU fa fb fc => exact (show KeepsRes s (execSubtU fa fb fc s) by unfold execSubtU; exact .fpGate s (by exact .next (Keeps.finishFp s _ _ _)))
  | subtUc fa fb fc => exact (show KeepsRes s (execSubtUc fa fb fc s) by unfold execSubtUc; exact .fpGate s (by exact .next (Keeps.finishFp s _ _ _)))
  | subtUm fa fb fc => exact (show KeepsRes s (execSubtUm fa fb fc s) by unfold execSubtUm; exact .fpGate s (by exact .next (Keeps.finishFp s _ _ _)))
  | subtUd fa fb fc => exact (show KeepsRes s (execSubtUd fa fb fc s) by unfold execSubtUd; exact .fpGate s (by exact .next (Keeps.finishFp s _ _ _)))
  | subtSu fa fb fc => exact (show KeepsRes s (execSubtSu fa fb fc s) by unfold execSubtSu; exact .fpGate s (by exact .next (Keeps.finishFp s _ _ _)))
  | subtSuc fa fb fc => exact (show KeepsRes s (execSubtSuc fa fb fc s) by unfold execSubtSuc; exact .fpGate s (by exact .next (Keeps.finishFp s _ _ _)))
  | subtSum fa fb fc => exact (show KeepsRes s (execSubtSum fa fb fc s) by unfold execSubtSum; exact .fpGate s (by exact .next (Keeps.finishFp s _ _ _)))
  | subtSud fa fb fc => exact (show KeepsRes s (execSubtSud fa fb fc s) by unfold execSubtSud; exact .fpGate s (by exact .next (Keeps.finishFp s _ _ _)))
  | subtSui fa fb fc => exact (show KeepsRes s (execSubtSui fa fb fc s) by unfold execSubtSui; exact .fpGate s (by exact .next (Keeps.finishFp s _ _ _)))
  | subtSuic fa fb fc => exact (show KeepsRes s (execSubtSuic fa fb fc s) by unfold execSubtSuic; exact .fpGate s (by exact .next (Keeps.finishFp s _ _ _)))
  | subtSuim fa fb fc => exact (show KeepsRes s (execSubtSuim fa fb fc s) by unfold execSubtSuim; exact .fpGate s (by exact .next (Keeps.finishFp s _ _ _)))
  | subtSuid fa fb fc => exact (show KeepsRes s (execSubtSuid fa fb fc s) by unfold execSubtSuid; exact .fpGate s (by exact .next (Keeps.finishFp s _ _ _)))
  | muls fa fb fc => exact (show KeepsRes s (execMuls fa fb fc s) by unfold execMuls; exact .fpGate s (by exact .next (Keeps.finishFp s _ _ _)))
  | mulsC fa fb fc => exact (show KeepsRes s (execMulsC fa fb fc s) by unfold execMulsC; exact .fpGate s (by exact .next (Keeps.finishFp s _ _ _)))
  | mulsM fa fb fc => exact (show KeepsRes s (execMulsM fa fb fc s) by unfold execMulsM; exact .fpGate s (by exact .next (Keeps.finishFp s _ _ _)))
  | mulsD fa fb fc => exact (show KeepsRes s (execMulsD fa fb fc s) by unfold execMulsD; exact .fpGate s (by exact .next (Keeps.finishFp s _ _ _)))
  | mulsU fa fb fc => exact (show KeepsRes s (execMulsU fa fb fc s) by unfold execMulsU; exact .fpGate s (by exact .next (Keeps.finishFp s _ _ _)))
  | mulsUc fa fb fc => exact (show KeepsRes s (execMulsUc fa fb fc s) by unfold execMulsUc; exact .fpGate s (by exact .next (Keeps.finishFp s _ _ _)))
  | mulsUm fa fb fc => exact (show KeepsRes s (execMulsUm fa fb fc s) by unfold execMulsUm; exact .fpGate s (by exact .next (Keeps.finishFp s _ _ _)))
  | mulsUd fa fb fc => exact (show KeepsRes s (execMulsUd fa fb fc s) by unfold execMulsUd; exact .fpGate s (by exact .next (Keeps.finishFp s _ _ _)))
  | mulsSu fa fb fc => exact (show KeepsRes s (execMulsSu fa fb fc s) by unfold execMulsSu; exact .fpGate s (by exact .next (Keeps.finishFp s _ _ _)))
  | mulsSuc fa fb fc => exact (show KeepsRes s (execMulsSuc fa fb fc s) by unfold execMulsSuc; exact .fpGate s (by exact .next (Keeps.finishFp s _ _ _)))
  | mulsSum fa fb fc => exact (show KeepsRes s (execMulsSum fa fb fc s) by unfold execMulsSum; exact .fpGate s (by exact .next (Keeps.finishFp s _ _ _)))
  | mulsSud fa fb fc => exact (show KeepsRes s (execMulsSud fa fb fc s) by unfold execMulsSud; exact .fpGate s (by exact .next (Keeps.finishFp s _ _ _)))
  | mulsSui fa fb fc => exact (show KeepsRes s (execMulsSui fa fb fc s) by unfold execMulsSui; exact .fpGate s (by exact .next (Keeps.finishFp s _ _ _)))
  | mulsSuic fa fb fc => exact (show KeepsRes s (execMulsSuic fa fb fc s) by unfold execMulsSuic; exact .fpGate s (by exact .next (Keeps.finishFp s _ _ _)))
  | mulsSuim fa fb fc => exact (show KeepsRes s (execMulsSuim fa fb fc s) by unfold execMulsSuim; exact .fpGate s (by exact .next (Keeps.finishFp s _ _ _)))
  | mulsSuid fa fb fc => exact (show KeepsRes s (execMulsSuid fa fb fc s) by unfold execMulsSuid; exact .fpGate s (by exact .next (Keeps.finishFp s _ _ _)))
  | mult fa fb fc => exact (show KeepsRes s (execMult fa fb fc s) by unfold execMult; exact .fpGate s (by exact .next (Keeps.finishFp s _ _ _)))
  | multC fa fb fc => exact (show KeepsRes s (execMultC fa fb fc s) by unfold execMultC; exact .fpGate s (by exact .next (Keeps.finishFp s _ _ _)))
  | multM fa fb fc => exact (show KeepsRes s (execMultM fa fb fc s) by unfold execMultM; exact .fpGate s (by exact .next (Keeps.finishFp s _ _ _)))
  | multD fa fb fc => exact (show KeepsRes s (execMultD fa fb fc s) by unfold execMultD; exact .fpGate s (by exact .next (Keeps.finishFp s _ _ _)))
  | multU fa fb fc => exact (show KeepsRes s (execMultU fa fb fc s) by unfold execMultU; exact .fpGate s (by exact .next (Keeps.finishFp s _ _ _)))
  | multUc fa fb fc => exact (show KeepsRes s (execMultUc fa fb fc s) by unfold execMultUc; exact .fpGate s (by exact .next (Keeps.finishFp s _ _ _)))
  | multUm fa fb fc => exact (show KeepsRes s (execMultUm fa fb fc s) by unfold execMultUm; exact .fpGate s (by exact .next (Keeps.finishFp s _ _ _)))
  | multUd fa fb fc => exact (show KeepsRes s (execMultUd fa fb fc s) by unfold execMultUd; exact .fpGate s (by exact .next (Keeps.finishFp s _ _ _)))
  | multSu fa fb fc => exact (show KeepsRes s (execMultSu fa fb fc s) by unfold execMultSu; exact .fpGate s (by exact .next (Keeps.finishFp s _ _ _)))
  | multSuc fa fb fc => exact (show KeepsRes s (execMultSuc fa fb fc s) by unfold execMultSuc; exact .fpGate s (by exact .next (Keeps.finishFp s _ _ _)))
  | multSum fa fb fc => exact (show KeepsRes s (execMultSum fa fb fc s) by unfold execMultSum; exact .fpGate s (by exact .next (Keeps.finishFp s _ _ _)))
  | multSud fa fb fc => exact (show KeepsRes s (execMultSud fa fb fc s) by unfold execMultSud; exact .fpGate s (by exact .next (Keeps.finishFp s _ _ _)))
  | multSui fa fb fc => exact (show KeepsRes s (execMultSui fa fb fc s) by unfold execMultSui; exact .fpGate s (by exact .next (Keeps.finishFp s _ _ _)))
  | multSuic fa fb fc => exact (show KeepsRes s (execMultSuic fa fb fc s) by unfold execMultSuic; exact .fpGate s (by exact .next (Keeps.finishFp s _ _ _)))
  | multSuim fa fb fc => exact (show KeepsRes s (execMultSuim fa fb fc s) by unfold execMultSuim; exact .fpGate s (by exact .next (Keeps.finishFp s _ _ _)))
  | multSuid fa fb fc => exact (show KeepsRes s (execMultSuid fa fb fc s) by unfold execMultSuid; exact .fpGate s (by exact .next (Keeps.finishFp s _ _ _)))
  | divs fa fb fc => exact (show KeepsRes s (execDivs fa fb fc s) by unfold execDivs; exact .fpGate s (by exact .next (Keeps.finishFp s _ _ _)))
  | divsC fa fb fc => exact (show KeepsRes s (execDivsC fa fb fc s) by unfold execDivsC; exact .fpGate s (by exact .next (Keeps.finishFp s _ _ _)))
  | divsM fa fb fc => exact (show KeepsRes s (execDivsM fa fb fc s) by unfold execDivsM; exact .fpGate s (by exact .next (Keeps.finishFp s _ _ _)))
  | divsD fa fb fc => exact (show KeepsRes s (execDivsD fa fb fc s) by unfold execDivsD; exact .fpGate s (by exact .next (Keeps.finishFp s _ _ _)))
  | divsU fa fb fc => exact (show KeepsRes s (execDivsU fa fb fc s) by unfold execDivsU; exact .fpGate s (by exact .next (Keeps.finishFp s _ _ _)))
  | divsUc fa fb fc => exact (show KeepsRes s (execDivsUc fa fb fc s) by unfold execDivsUc; exact .fpGate s (by exact .next (Keeps.finishFp s _ _ _)))
  | divsUm fa fb fc => exact (show KeepsRes s (execDivsUm fa fb fc s) by unfold execDivsUm; exact .fpGate s (by exact .next (Keeps.finishFp s _ _ _)))
  | divsUd fa fb fc => exact (show KeepsRes s (execDivsUd fa fb fc s) by unfold execDivsUd; exact .fpGate s (by exact .next (Keeps.finishFp s _ _ _)))
  | divsSu fa fb fc => exact (show KeepsRes s (execDivsSu fa fb fc s) by unfold execDivsSu; exact .fpGate s (by exact .next (Keeps.finishFp s _ _ _)))
  | divsSuc fa fb fc => exact (show KeepsRes s (execDivsSuc fa fb fc s) by unfold execDivsSuc; exact .fpGate s (by exact .next (Keeps.finishFp s _ _ _)))
  | divsSum fa fb fc => exact (show KeepsRes s (execDivsSum fa fb fc s) by unfold execDivsSum; exact .fpGate s (by exact .next (Keeps.finishFp s _ _ _)))
  | divsSud fa fb fc => exact (show KeepsRes s (execDivsSud fa fb fc s) by unfold execDivsSud; exact .fpGate s (by exact .next (Keeps.finishFp s _ _ _)))
  | divsSui fa fb fc => exact (show KeepsRes s (execDivsSui fa fb fc s) by unfold execDivsSui; exact .fpGate s (by exact .next (Keeps.finishFp s _ _ _)))
  | divsSuic fa fb fc => exact (show KeepsRes s (execDivsSuic fa fb fc s) by unfold execDivsSuic; exact .fpGate s (by exact .next (Keeps.finishFp s _ _ _)))
  | divsSuim fa fb fc => exact (show KeepsRes s (execDivsSuim fa fb fc s) by unfold execDivsSuim; exact .fpGate s (by exact .next (Keeps.finishFp s _ _ _)))
  | divsSuid fa fb fc => exact (show KeepsRes s (execDivsSuid fa fb fc s) by unfold execDivsSuid; exact .fpGate s (by exact .next (Keeps.finishFp s _ _ _)))
  | divt fa fb fc => exact (show KeepsRes s (execDivt fa fb fc s) by unfold execDivt; exact .fpGate s (by exact .next (Keeps.finishFp s _ _ _)))
  | divtC fa fb fc => exact (show KeepsRes s (execDivtC fa fb fc s) by unfold execDivtC; exact .fpGate s (by exact .next (Keeps.finishFp s _ _ _)))
  | divtM fa fb fc => exact (show KeepsRes s (execDivtM fa fb fc s) by unfold execDivtM; exact .fpGate s (by exact .next (Keeps.finishFp s _ _ _)))
  | divtD fa fb fc => exact (show KeepsRes s (execDivtD fa fb fc s) by unfold execDivtD; exact .fpGate s (by exact .next (Keeps.finishFp s _ _ _)))
  | divtU fa fb fc => exact (show KeepsRes s (execDivtU fa fb fc s) by unfold execDivtU; exact .fpGate s (by exact .next (Keeps.finishFp s _ _ _)))
  | divtUc fa fb fc => exact (show KeepsRes s (execDivtUc fa fb fc s) by unfold execDivtUc; exact .fpGate s (by exact .next (Keeps.finishFp s _ _ _)))
  | divtUm fa fb fc => exact (show KeepsRes s (execDivtUm fa fb fc s) by unfold execDivtUm; exact .fpGate s (by exact .next (Keeps.finishFp s _ _ _)))
  | divtUd fa fb fc => exact (show KeepsRes s (execDivtUd fa fb fc s) by unfold execDivtUd; exact .fpGate s (by exact .next (Keeps.finishFp s _ _ _)))
  | divtSu fa fb fc => exact (show KeepsRes s (execDivtSu fa fb fc s) by unfold execDivtSu; exact .fpGate s (by exact .next (Keeps.finishFp s _ _ _)))
  | divtSuc fa fb fc => exact (show KeepsRes s (execDivtSuc fa fb fc s) by unfold execDivtSuc; exact .fpGate s (by exact .next (Keeps.finishFp s _ _ _)))
  | divtSum fa fb fc => exact (show KeepsRes s (execDivtSum fa fb fc s) by unfold execDivtSum; exact .fpGate s (by exact .next (Keeps.finishFp s _ _ _)))
  | divtSud fa fb fc => exact (show KeepsRes s (execDivtSud fa fb fc s) by unfold execDivtSud; exact .fpGate s (by exact .next (Keeps.finishFp s _ _ _)))
  | divtSui fa fb fc => exact (show KeepsRes s (execDivtSui fa fb fc s) by unfold execDivtSui; exact .fpGate s (by exact .next (Keeps.finishFp s _ _ _)))
  | divtSuic fa fb fc => exact (show KeepsRes s (execDivtSuic fa fb fc s) by unfold execDivtSuic; exact .fpGate s (by exact .next (Keeps.finishFp s _ _ _)))
  | divtSuim fa fb fc => exact (show KeepsRes s (execDivtSuim fa fb fc s) by unfold execDivtSuim; exact .fpGate s (by exact .next (Keeps.finishFp s _ _ _)))
  | divtSuid fa fb fc => exact (show KeepsRes s (execDivtSuid fa fb fc s) by unfold execDivtSuid; exact .fpGate s (by exact .next (Keeps.finishFp s _ _ _)))
  | cmpteq fa fb fc => exact (show KeepsRes s (execCmpteq fa fb fc s) by unfold execCmpteq; exact .fpGate s (by exact .next (Keeps.finishFp s _ _ _)))
  | cmpteqSu fa fb fc => exact (show KeepsRes s (execCmpteqSu fa fb fc s) by unfold execCmpteqSu; exact .fpGate s (by exact .next (Keeps.finishFp s _ _ _)))
  | cmptlt fa fb fc => exact (show KeepsRes s (execCmptlt fa fb fc s) by unfold execCmptlt; exact .fpGate s (by exact .next (Keeps.finishFp s _ _ _)))
  | cmptltSu fa fb fc => exact (show KeepsRes s (execCmptltSu fa fb fc s) by unfold execCmptltSu; exact .fpGate s (by exact .next (Keeps.finishFp s _ _ _)))
  | cmptle fa fb fc => exact (show KeepsRes s (execCmptle fa fb fc s) by unfold execCmptle; exact .fpGate s (by exact .next (Keeps.finishFp s _ _ _)))
  | cmptleSu fa fb fc => exact (show KeepsRes s (execCmptleSu fa fb fc s) by unfold execCmptleSu; exact .fpGate s (by exact .next (Keeps.finishFp s _ _ _)))
  | cmptun fa fb fc => exact (show KeepsRes s (execCmptun fa fb fc s) by unfold execCmptun; exact .fpGate s (by exact .next (Keeps.finishFp s _ _ _)))
  | cmptunSu fa fb fc => exact (show KeepsRes s (execCmptunSu fa fb fc s) by unfold execCmptunSu; exact .fpGate s (by exact .next (Keeps.finishFp s _ _ _)))
  | cvtqs fa fb fc => exact (show KeepsRes s (execCvtqs fa fb fc s) by unfold execCvtqs; exact .fpGate s (by exact .next (Keeps.finishFp s _ _ _)))
  | cvtqsC fa fb fc => exact (show KeepsRes s (execCvtqsC fa fb fc s) by unfold execCvtqsC; exact .fpGate s (by exact .next (Keeps.finishFp s _ _ _)))
  | cvtqsM fa fb fc => exact (show KeepsRes s (execCvtqsM fa fb fc s) by unfold execCvtqsM; exact .fpGate s (by exact .next (Keeps.finishFp s _ _ _)))
  | cvtqsD fa fb fc => exact (show KeepsRes s (execCvtqsD fa fb fc s) by unfold execCvtqsD; exact .fpGate s (by exact .next (Keeps.finishFp s _ _ _)))
  | cvtqsSui fa fb fc => exact (show KeepsRes s (execCvtqsSui fa fb fc s) by unfold execCvtqsSui; exact .fpGate s (by exact .next (Keeps.finishFp s _ _ _)))
  | cvtqsSuic fa fb fc => exact (show KeepsRes s (execCvtqsSuic fa fb fc s) by unfold execCvtqsSuic; exact .fpGate s (by exact .next (Keeps.finishFp s _ _ _)))
  | cvtqsSuim fa fb fc => exact (show KeepsRes s (execCvtqsSuim fa fb fc s) by unfold execCvtqsSuim; exact .fpGate s (by exact .next (Keeps.finishFp s _ _ _)))
  | cvtqsSuid fa fb fc => exact (show KeepsRes s (execCvtqsSuid fa fb fc s) by unfold execCvtqsSuid; exact .fpGate s (by exact .next (Keeps.finishFp s _ _ _)))
  | cvtqt fa fb fc => exact (show KeepsRes s (execCvtqt fa fb fc s) by unfold execCvtqt; exact .fpGate s (by exact .next (Keeps.finishFp s _ _ _)))
  | cvtqtC fa fb fc => exact (show KeepsRes s (execCvtqtC fa fb fc s) by unfold execCvtqtC; exact .fpGate s (by exact .next (Keeps.finishFp s _ _ _)))
  | cvtqtM fa fb fc => exact (show KeepsRes s (execCvtqtM fa fb fc s) by unfold execCvtqtM; exact .fpGate s (by exact .next (Keeps.finishFp s _ _ _)))
  | cvtqtD fa fb fc => exact (show KeepsRes s (execCvtqtD fa fb fc s) by unfold execCvtqtD; exact .fpGate s (by exact .next (Keeps.finishFp s _ _ _)))
  | cvtqtSui fa fb fc => exact (show KeepsRes s (execCvtqtSui fa fb fc s) by unfold execCvtqtSui; exact .fpGate s (by exact .next (Keeps.finishFp s _ _ _)))
  | cvtqtSuic fa fb fc => exact (show KeepsRes s (execCvtqtSuic fa fb fc s) by unfold execCvtqtSuic; exact .fpGate s (by exact .next (Keeps.finishFp s _ _ _)))
  | cvtqtSuim fa fb fc => exact (show KeepsRes s (execCvtqtSuim fa fb fc s) by unfold execCvtqtSuim; exact .fpGate s (by exact .next (Keeps.finishFp s _ _ _)))
  | cvtqtSuid fa fb fc => exact (show KeepsRes s (execCvtqtSuid fa fb fc s) by unfold execCvtqtSuid; exact .fpGate s (by exact .next (Keeps.finishFp s _ _ _)))
  | cvtts fa fb fc => exact (show KeepsRes s (execCvtts fa fb fc s) by unfold execCvtts; exact .fpGate s (by exact .next (Keeps.finishFp s _ _ _)))
  | cvttsC fa fb fc => exact (show KeepsRes s (execCvttsC fa fb fc s) by unfold execCvttsC; exact .fpGate s (by exact .next (Keeps.finishFp s _ _ _)))
  | cvttsM fa fb fc => exact (show KeepsRes s (execCvttsM fa fb fc s) by unfold execCvttsM; exact .fpGate s (by exact .next (Keeps.finishFp s _ _ _)))
  | cvttsD fa fb fc => exact (show KeepsRes s (execCvttsD fa fb fc s) by unfold execCvttsD; exact .fpGate s (by exact .next (Keeps.finishFp s _ _ _)))
  | cvttsU fa fb fc => exact (show KeepsRes s (execCvttsU fa fb fc s) by unfold execCvttsU; exact .fpGate s (by exact .next (Keeps.finishFp s _ _ _)))
  | cvttsUc fa fb fc => exact (show KeepsRes s (execCvttsUc fa fb fc s) by unfold execCvttsUc; exact .fpGate s (by exact .next (Keeps.finishFp s _ _ _)))
  | cvttsUm fa fb fc => exact (show KeepsRes s (execCvttsUm fa fb fc s) by unfold execCvttsUm; exact .fpGate s (by exact .next (Keeps.finishFp s _ _ _)))
  | cvttsUd fa fb fc => exact (show KeepsRes s (execCvttsUd fa fb fc s) by unfold execCvttsUd; exact .fpGate s (by exact .next (Keeps.finishFp s _ _ _)))
  | cvttsSu fa fb fc => exact (show KeepsRes s (execCvttsSu fa fb fc s) by unfold execCvttsSu; exact .fpGate s (by exact .next (Keeps.finishFp s _ _ _)))
  | cvttsSuc fa fb fc => exact (show KeepsRes s (execCvttsSuc fa fb fc s) by unfold execCvttsSuc; exact .fpGate s (by exact .next (Keeps.finishFp s _ _ _)))
  | cvttsSum fa fb fc => exact (show KeepsRes s (execCvttsSum fa fb fc s) by unfold execCvttsSum; exact .fpGate s (by exact .next (Keeps.finishFp s _ _ _)))
  | cvttsSud fa fb fc => exact (show KeepsRes s (execCvttsSud fa fb fc s) by unfold execCvttsSud; exact .fpGate s (by exact .next (Keeps.finishFp s _ _ _)))
  | cvttsSui fa fb fc => exact (show KeepsRes s (execCvttsSui fa fb fc s) by unfold execCvttsSui; exact .fpGate s (by exact .next (Keeps.finishFp s _ _ _)))
  | cvttsSuic fa fb fc => exact (show KeepsRes s (execCvttsSuic fa fb fc s) by unfold execCvttsSuic; exact .fpGate s (by exact .next (Keeps.finishFp s _ _ _)))
  | cvttsSuim fa fb fc => exact (show KeepsRes s (execCvttsSuim fa fb fc s) by unfold execCvttsSuim; exact .fpGate s (by exact .next (Keeps.finishFp s _ _ _)))
  | cvttsSuid fa fb fc => exact (show KeepsRes s (execCvttsSuid fa fb fc s) by unfold execCvttsSuid; exact .fpGate s (by exact .next (Keeps.finishFp s _ _ _)))
  | cvtst fa fb fc => exact (show KeepsRes s (execCvtst fa fb fc s) by unfold execCvtst; exact .fpGate s (by exact .next (Keeps.finishFp s _ _ _)))
  | cvtstS fa fb fc => exact (show KeepsRes s (execCvtstS fa fb fc s) by unfold execCvtstS; exact .fpGate s (by exact .next (Keeps.finishFp s _ _ _)))
  | cvttq fa fb fc => exact (show KeepsRes s (execCvttq fa fb fc s) by unfold execCvttq; exact .fpGate s (by exact .next (Keeps.finishFp s _ _ _)))
  | cvttqC fa fb fc => exact (show KeepsRes s (execCvttqC fa fb fc s) by unfold execCvttqC; exact .fpGate s (by exact .next (Keeps.finishFp s _ _ _)))
  | cvttqV fa fb fc => exact (show KeepsRes s (execCvttqV fa fb fc s) by unfold execCvttqV; exact .fpGate s (by exact .next (Keeps.finishFp s _ _ _)))
  | cvttqVc fa fb fc => exact (show KeepsRes s (execCvttqVc fa fb fc s) by unfold execCvttqVc; exact .fpGate s (by exact .next (Keeps.finishFp s _ _ _)))
  | cvttqSv fa fb fc => exact (show KeepsRes s (execCvttqSv fa fb fc s) by unfold execCvttqSv; exact .fpGate s (by exact .next (Keeps.finishFp s _ _ _)))
  | cvttqSvc fa fb fc => exact (show KeepsRes s (execCvttqSvc fa fb fc s) by unfold execCvttqSvc; exact .fpGate s (by exact .next (Keeps.finishFp s _ _ _)))
  | cvttqSvi fa fb fc => exact (show KeepsRes s (execCvttqSvi fa fb fc s) by unfold execCvttqSvi; exact .fpGate s (by exact .next (Keeps.finishFp s _ _ _)))
  | cvttqSvic fa fb fc => exact (show KeepsRes s (execCvttqSvic fa fb fc s) by unfold execCvttqSvic; exact .fpGate s (by exact .next (Keeps.finishFp s _ _ _)))
  | cvttqD fa fb fc => exact (show KeepsRes s (execCvttqD fa fb fc s) by unfold execCvttqD; exact .fpGate s (by exact .next (Keeps.finishFp s _ _ _)))
  | cvttqVd fa fb fc => exact (show KeepsRes s (execCvttqVd fa fb fc s) by unfold execCvttqVd; exact .fpGate s (by exact .next (Keeps.finishFp s _ _ _)))
  | cvttqSvd fa fb fc => exact (show KeepsRes s (execCvttqSvd fa fb fc s) by unfold execCvttqSvd; exact .fpGate s (by exact .next (Keeps.finishFp s _ _ _)))
  | cvttqSvid fa fb fc => exact (show KeepsRes s (execCvttqSvid fa fb fc s) by unfold execCvttqSvid; exact .fpGate s (by exact .next (Keeps.finishFp s _ _ _)))
  | cvttqM fa fb fc => exact (show KeepsRes s (execCvttqM fa fb fc s) by unfold execCvttqM; exact .fpGate s (by exact .next (Keeps.finishFp s _ _ _)))
  | cvttqVm fa fb fc => exact (show KeepsRes s (execCvttqVm fa fb fc s) by unfold execCvttqVm; exact .fpGate s (by exact .next (Keeps.finishFp s _ _ _)))
  | cvttqSvm fa fb fc => exact (show KeepsRes s (execCvttqSvm fa fb fc s) by unfold execCvttqSvm; exact .fpGate s (by exact .next (Keeps.finishFp s _ _ _)))
  | cvttqSvim fa fb fc => exact (show KeepsRes s (execCvttqSvim fa fb fc s) by unfold execCvttqSvim; exact .fpGate s (by exact .next (Keeps.finishFp s _ _ _)))
  | addf fa fb fc => exact (show KeepsRes s (execAddf fa fb fc s) by unfold execAddf; exact .fpGate s (by exact .next (Keeps.finishFp s _ _ _)))
  | addfC fa fb fc => exact (show KeepsRes s (execAddfC fa fb fc s) by unfold execAddfC; exact .fpGate s (by exact .next (Keeps.finishFp s _ _ _)))
  | addfU fa fb fc => exact (show KeepsRes s (execAddfU fa fb fc s) by unfold execAddfU; exact .fpGate s (by exact .next (Keeps.finishFp s _ _ _)))
  | addfUc fa fb fc => exact (show KeepsRes s (execAddfUc fa fb fc s) by unfold execAddfUc; exact .fpGate s (by exact .next (Keeps.finishFp s _ _ _)))
  | addfS fa fb fc => exact (show KeepsRes s (execAddfS fa fb fc s) by unfold execAddfS; exact .fpGate s (by exact .next (Keeps.finishFp s _ _ _)))
  | addfSc fa fb fc => exact (show KeepsRes s (execAddfSc fa fb fc s) by unfold execAddfSc; exact .fpGate s (by exact .next (Keeps.finishFp s _ _ _)))
  | addfSu fa fb fc => exact (show KeepsRes s (execAddfSu fa fb fc s) by unfold execAddfSu; exact .fpGate s (by exact .next (Keeps.finishFp s _ _ _)))
  | addfSuc fa fb fc => exact (show KeepsRes s (execAddfSuc fa fb fc s) by unfold execAddfSuc; exact .fpGate s (by exact .next (Keeps.finishFp s _ _ _)))
  | addg fa fb fc => exact (show KeepsRes s (execAddg fa fb fc s) by unfold execAddg; exact .fpGate s (by exact .next (Keeps.finishFp s _ _ _)))
  | addgC fa fb fc => exact (show KeepsRes s (execAddgC fa fb fc s) by unfold execAddgC; exact .fpGate s (by exact .next (Keeps.finishFp s _ _ _)))
  | addgU fa fb fc => exact (show KeepsRes s (execAddgU fa fb fc s) by unfold execAddgU; exact .fpGate s (by exact .next (Keeps.finishFp s _ _ _)))
  | addgUc fa fb fc => exact (show KeepsRes s (execAddgUc fa fb fc s) by unfold execAddgUc; exact .fpGate s (by exact .next (Keeps.finishFp s _ _ _)))
  | addgS fa fb fc => exact (show KeepsRes s (execAddgS fa fb fc s) by unfold execAddgS; exact .fpGate s (by exact .next (Keeps.finishFp s _ _ _)))
  | addgSc fa fb fc => exact (show KeepsRes s (execAddgSc fa fb fc s) by unfold execAddgSc; exact .fpGate s (by exact .next (Keeps.finishFp s _ _ _)))
  | addgSu fa fb fc => exact (show KeepsRes s (execAddgSu fa fb fc s) by unfold execAddgSu; exact .fpGate s (by exact .next (Keeps.finishFp s _ _ _)))
  | addgSuc fa fb fc => exact (show KeepsRes s (execAddgSuc fa fb fc s) by unfold execAddgSuc; exact .fpGate s (by exact .next (Keeps.finishFp s _ _ _)))
  | subf fa fb fc => exact (show KeepsRes s (execSubf fa fb fc s) by unfold execSubf; exact .fpGate s (by exact .next (Keeps.finishFp s _ _ _)))
  | subfC fa fb fc => exact (show KeepsRes s (execSubfC fa fb fc s) by unfold execSubfC; exact .fpGate s (by exact .next (Keeps.finishFp s _ _ _)))
  | subfU fa fb fc => exact (show KeepsRes s (execSubfU fa fb fc s) by unfold execSubfU; exact .fpGate s (by exact .next (Keeps.finishFp s _ _ _)))
  | subfUc fa fb fc => exact (show KeepsRes s (execSubfUc fa fb fc s) by unfold execSubfUc; exact .fpGate s (by exact .next (Keeps.finishFp s _ _ _)))
  | subfS fa fb fc => exact (show KeepsRes s (execSubfS fa fb fc s) by unfold execSubfS; exact .fpGate s (by exact .next (Keeps.finishFp s _ _ _)))
  | subfSc fa fb fc => exact (show KeepsRes s (execSubfSc fa fb fc s) by unfold execSubfSc; exact .fpGate s (by exact .next (Keeps.finishFp s _ _ _)))
  | subfSu fa fb fc => exact (show KeepsRes s (execSubfSu fa fb fc s) by unfold execSubfSu; exact .fpGate s (by exact .next (Keeps.finishFp s _ _ _)))
  | subfSuc fa fb fc => exact (show KeepsRes s (execSubfSuc fa fb fc s) by unfold execSubfSuc; exact .fpGate s (by exact .next (Keeps.finishFp s _ _ _)))
  | subg fa fb fc => exact (show KeepsRes s (execSubg fa fb fc s) by unfold execSubg; exact .fpGate s (by exact .next (Keeps.finishFp s _ _ _)))
  | subgC fa fb fc => exact (show KeepsRes s (execSubgC fa fb fc s) by unfold execSubgC; exact .fpGate s (by exact .next (Keeps.finishFp s _ _ _)))
  | subgU fa fb fc => exact (show KeepsRes s (execSubgU fa fb fc s) by unfold execSubgU; exact .fpGate s (by exact .next (Keeps.finishFp s _ _ _)))
  | subgUc fa fb fc => exact (show KeepsRes s (execSubgUc fa fb fc s) by unfold execSubgUc; exact .fpGate s (by exact .next (Keeps.finishFp s _ _ _)))
  | subgS fa fb fc => exact (show KeepsRes s (execSubgS fa fb fc s) by unfold execSubgS; exact .fpGate s (by exact .next (Keeps.finishFp s _ _ _)))
  | subgSc fa fb fc => exact (show KeepsRes s (execSubgSc fa fb fc s) by unfold execSubgSc; exact .fpGate s (by exact .next (Keeps.finishFp s _ _ _)))
  | subgSu fa fb fc => exact (show KeepsRes s (execSubgSu fa fb fc s) by unfold execSubgSu; exact .fpGate s (by exact .next (Keeps.finishFp s _ _ _)))
  | subgSuc fa fb fc => exact (show KeepsRes s (execSubgSuc fa fb fc s) by unfold execSubgSuc; exact .fpGate s (by exact .next (Keeps.finishFp s _ _ _)))
  | mulf fa fb fc => exact (show KeepsRes s (execMulf fa fb fc s) by unfold execMulf; exact .fpGate s (by exact .next (Keeps.finishFp s _ _ _)))
  | mulfC fa fb fc => exact (show KeepsRes s (execMulfC fa fb fc s) by unfold execMulfC; exact .fpGate s (by exact .next (Keeps.finishFp s _ _ _)))
  | mulfU fa fb fc => exact (show KeepsRes s (execMulfU fa fb fc s) by unfold execMulfU; exact .fpGate s (by exact .next (Keeps.finishFp s _ _ _)))
  | mulfUc fa fb fc => exact (show KeepsRes s (execMulfUc fa fb fc s) by unfold execMulfUc; exact .fpGate s (by exact .next (Keeps.finishFp s _ _ _)))
  | mulfS fa fb fc => exact (show KeepsRes s (execMulfS fa fb fc s) by unfold execMulfS; exact .fpGate s (by exact .next (Keeps.finishFp s _ _ _)))
  | mulfSc fa fb fc => exact (show KeepsRes s (execMulfSc fa fb fc s) by unfold execMulfSc; exact .fpGate s (by exact .next (Keeps.finishFp s _ _ _)))
  | mulfSu fa fb fc => exact (show KeepsRes s (execMulfSu fa fb fc s) by unfold execMulfSu; exact .fpGate s (by exact .next (Keeps.finishFp s _ _ _)))
  | mulfSuc fa fb fc => exact (show KeepsRes s (execMulfSuc fa fb fc s) by unfold execMulfSuc; exact .fpGate s (by exact .next (Keeps.finishFp s _ _ _)))
  | mulg fa fb fc => exact (show KeepsRes s (execMulg fa fb fc s) by unfold execMulg; exact .fpGate s (by exact .next (Keeps.finishFp s _ _ _)))
  | mulgC fa fb fc => exact (show KeepsRes s (execMulgC fa fb fc s) by unfold execMulgC; exact .fpGate s (by exact .next (Keeps.finishFp s _ _ _)))
  | mulgU fa fb fc => exact (show KeepsRes s (execMulgU fa fb fc s) by unfold execMulgU; exact .fpGate s (by exact .next (Keeps.finishFp s _ _ _)))
  | mulgUc fa fb fc => exact (show KeepsRes s (execMulgUc fa fb fc s) by unfold execMulgUc; exact .fpGate s (by exact .next (Keeps.finishFp s _ _ _)))
  | mulgS fa fb fc => exact (show KeepsRes s (execMulgS fa fb fc s) by unfold execMulgS; exact .fpGate s (by exact .next (Keeps.finishFp s _ _ _)))
  | mulgSc fa fb fc => exact (show KeepsRes s (execMulgSc fa fb fc s) by unfold execMulgSc; exact .fpGate s (by exact .next (Keeps.finishFp s _ _ _)))
  | mulgSu fa fb fc => exact (show KeepsRes s (execMulgSu fa fb fc s) by unfold execMulgSu; exact .fpGate s (by exact .next (Keeps.finishFp s _ _ _)))
  | mulgSuc fa fb fc => exact (show KeepsRes s (execMulgSuc fa fb fc s) by unfold execMulgSuc; exact .fpGate s (by exact .next (Keeps.finishFp s _ _ _)))
  | divf fa fb fc => exact (show KeepsRes s (execDivf fa fb fc s) by unfold execDivf; exact .fpGate s (by exact .next (Keeps.finishFp s _ _ _)))
  | divfC fa fb fc => exact (show KeepsRes s (execDivfC fa fb fc s) by unfold execDivfC; exact .fpGate s (by exact .next (Keeps.finishFp s _ _ _)))
  | divfU fa fb fc => exact (show KeepsRes s (execDivfU fa fb fc s) by unfold execDivfU; exact .fpGate s (by exact .next (Keeps.finishFp s _ _ _)))
  | divfUc fa fb fc => exact (show KeepsRes s (execDivfUc fa fb fc s) by unfold execDivfUc; exact .fpGate s (by exact .next (Keeps.finishFp s _ _ _)))
  | divfS fa fb fc => exact (show KeepsRes s (execDivfS fa fb fc s) by unfold execDivfS; exact .fpGate s (by exact .next (Keeps.finishFp s _ _ _)))
  | divfSc fa fb fc => exact (show KeepsRes s (execDivfSc fa fb fc s) by unfold execDivfSc; exact .fpGate s (by exact .next (Keeps.finishFp s _ _ _)))
  | divfSu fa fb fc => exact (show KeepsRes s (execDivfSu fa fb fc s) by unfold execDivfSu; exact .fpGate s (by exact .next (Keeps.finishFp s _ _ _)))
  | divfSuc fa fb fc => exact (show KeepsRes s (execDivfSuc fa fb fc s) by unfold execDivfSuc; exact .fpGate s (by exact .next (Keeps.finishFp s _ _ _)))
  | divg fa fb fc => exact (show KeepsRes s (execDivg fa fb fc s) by unfold execDivg; exact .fpGate s (by exact .next (Keeps.finishFp s _ _ _)))
  | divgC fa fb fc => exact (show KeepsRes s (execDivgC fa fb fc s) by unfold execDivgC; exact .fpGate s (by exact .next (Keeps.finishFp s _ _ _)))
  | divgU fa fb fc => exact (show KeepsRes s (execDivgU fa fb fc s) by unfold execDivgU; exact .fpGate s (by exact .next (Keeps.finishFp s _ _ _)))
  | divgUc fa fb fc => exact (show KeepsRes s (execDivgUc fa fb fc s) by unfold execDivgUc; exact .fpGate s (by exact .next (Keeps.finishFp s _ _ _)))
  | divgS fa fb fc => exact (show KeepsRes s (execDivgS fa fb fc s) by unfold execDivgS; exact .fpGate s (by exact .next (Keeps.finishFp s _ _ _)))
  | divgSc fa fb fc => exact (show KeepsRes s (execDivgSc fa fb fc s) by unfold execDivgSc; exact .fpGate s (by exact .next (Keeps.finishFp s _ _ _)))
  | divgSu fa fb fc => exact (show KeepsRes s (execDivgSu fa fb fc s) by unfold execDivgSu; exact .fpGate s (by exact .next (Keeps.finishFp s _ _ _)))
  | divgSuc fa fb fc => exact (show KeepsRes s (execDivgSuc fa fb fc s) by unfold execDivgSuc; exact .fpGate s (by exact .next (Keeps.finishFp s _ _ _)))
  | cmpgeq fa fb fc => exact (show KeepsRes s (execCmpgeq fa fb fc s) by unfold execCmpgeq; exact .fpGate s (by exact .next (Keeps.finishFp s _ _ _)))
  | cmpgeqS fa fb fc => exact (show KeepsRes s (execCmpgeqS fa fb fc s) by unfold execCmpgeqS; exact .fpGate s (by exact .next (Keeps.finishFp s _ _ _)))
  | cmpglt fa fb fc => exact (show KeepsRes s (execCmpglt fa fb fc s) by unfold execCmpglt; exact .fpGate s (by exact .next (Keeps.finishFp s _ _ _)))
  | cmpgltS fa fb fc => exact (show KeepsRes s (execCmpgltS fa fb fc s) by unfold execCmpgltS; exact .fpGate s (by exact .next (Keeps.finishFp s _ _ _)))
  | cmpgle fa fb fc => exact (show KeepsRes s (execCmpgle fa fb fc s) by unfold execCmpgle; exact .fpGate s (by exact .next (Keeps.finishFp s _ _ _)))
  | cmpgleS fa fb fc => exact (show KeepsRes s (execCmpgleS fa fb fc s) by unfold execCmpgleS; exact .fpGate s (by exact .next (Keeps.finishFp s _ _ _)))
  | cvtgf fa fb fc => exact (show KeepsRes s (execCvtgf fa fb fc s) by unfold execCvtgf; exact .fpGate s (by exact .next (Keeps.finishFp s _ _ _)))
  | cvtgfC fa fb fc => exact (show KeepsRes s (execCvtgfC fa fb fc s) by unfold execCvtgfC; exact .fpGate s (by exact .next (Keeps.finishFp s _ _ _)))
  | cvtgfU fa fb fc => exact (show KeepsRes s (execCvtgfU fa fb fc s) by unfold execCvtgfU; exact .fpGate s (by exact .next (Keeps.finishFp s _ _ _)))
  | cvtgfUc fa fb fc => exact (show KeepsRes s (execCvtgfUc fa fb fc s) by unfold execCvtgfUc; exact .fpGate s (by exact .next (Keeps.finishFp s _ _ _)))
  | cvtgfS fa fb fc => exact (show KeepsRes s (execCvtgfS fa fb fc s) by unfold execCvtgfS; exact .fpGate s (by exact .next (Keeps.finishFp s _ _ _)))
  | cvtgfSc fa fb fc => exact (show KeepsRes s (execCvtgfSc fa fb fc s) by unfold execCvtgfSc; exact .fpGate s (by exact .next (Keeps.finishFp s _ _ _)))
  | cvtgfSu fa fb fc => exact (show KeepsRes s (execCvtgfSu fa fb fc s) by unfold execCvtgfSu; exact .fpGate s (by exact .next (Keeps.finishFp s _ _ _)))
  | cvtgfSuc fa fb fc => exact (show KeepsRes s (execCvtgfSuc fa fb fc s) by unfold execCvtgfSuc; exact .fpGate s (by exact .next (Keeps.finishFp s _ _ _)))
  | cvtgd fa fb fc => exact (show KeepsRes s (execCvtgd fa fb fc s) by unfold execCvtgd; exact .fpGate s (by exact .next (Keeps.finishFp s _ _ _)))
  | cvtgdC fa fb fc => exact (show KeepsRes s (execCvtgdC fa fb fc s) by unfold execCvtgdC; exact .fpGate s (by exact .next (Keeps.finishFp s _ _ _)))
  | cvtgdU fa fb fc => exact (show KeepsRes s (execCvtgdU fa fb fc s) by unfold execCvtgdU; exact .fpGate s (by exact .next (Keeps.finishFp s _ _ _)))
  | cvtgdUc fa fb fc => exact (show KeepsRes s (execCvtgdUc fa fb fc s) by unfold execCvtgdUc; exact .fpGate s (by exact .next (Keeps.finishFp s _ _ _)))
  | cvtgdS fa fb fc => exact (show KeepsRes s (execCvtgdS fa fb fc s) by unfold execCvtgdS; exact .fpGate s (by exact .next (Keeps.finishFp s _ _ _)))
  | cvtgdSc fa fb fc => exact (show KeepsRes s (execCvtgdSc fa fb fc s) by unfold execCvtgdSc; exact .fpGate s (by exact .next (Keeps.finishFp s _ _ _)))
  | cvtgdSu fa fb fc => exact (show KeepsRes s (execCvtgdSu fa fb fc s) by unfold execCvtgdSu; exact .fpGate s (by exact .next (Keeps.finishFp s _ _ _)))
  | cvtgdSuc fa fb fc => exact (show KeepsRes s (execCvtgdSuc fa fb fc s) by unfold execCvtgdSuc; exact .fpGate s (by exact .next (Keeps.finishFp s _ _ _)))
  | cvtqf fa fb fc => exact (show KeepsRes s (execCvtqf fa fb fc s) by unfold execCvtqf; exact .fpGate s (by exact .next (Keeps.finishFp s _ _ _)))
  | cvtqfC fa fb fc => exact (show KeepsRes s (execCvtqfC fa fb fc s) by unfold execCvtqfC; exact .fpGate s (by exact .next (Keeps.finishFp s _ _ _)))
  | cvtqg fa fb fc => exact (show KeepsRes s (execCvtqg fa fb fc s) by unfold execCvtqg; exact .fpGate s (by exact .next (Keeps.finishFp s _ _ _)))
  | cvtqgC fa fb fc => exact (show KeepsRes s (execCvtqgC fa fb fc s) by unfold execCvtqgC; exact .fpGate s (by exact .next (Keeps.finishFp s _ _ _)))
  | cvtdg fa fb fc => exact (show KeepsRes s (execCvtdg fa fb fc s) by unfold execCvtdg; exact .fpGate s (by exact .next (Keeps.finishFp s _ _ _)))
  | cvtdgC fa fb fc => exact (show KeepsRes s (execCvtdgC fa fb fc s) by unfold execCvtdgC; exact .fpGate s (by exact .next (Keeps.finishFp s _ _ _)))
  | cvtdgU fa fb fc => exact (show KeepsRes s (execCvtdgU fa fb fc s) by unfold execCvtdgU; exact .fpGate s (by exact .next (Keeps.finishFp s _ _ _)))
  | cvtdgUc fa fb fc => exact (show KeepsRes s (execCvtdgUc fa fb fc s) by unfold execCvtdgUc; exact .fpGate s (by exact .next (Keeps.finishFp s _ _ _)))
  | cvtdgS fa fb fc => exact (show KeepsRes s (execCvtdgS fa fb fc s) by unfold execCvtdgS; exact .fpGate s (by exact .next (Keeps.finishFp s _ _ _)))
  | cvtdgSc fa fb fc => exact (show KeepsRes s (execCvtdgSc fa fb fc s) by unfold execCvtdgSc; exact .fpGate s (by exact .next (Keeps.finishFp s _ _ _)))
  | cvtdgSu fa fb fc => exact (show KeepsRes s (execCvtdgSu fa fb fc s) by unfold execCvtdgSu; exact .fpGate s (by exact .next (Keeps.finishFp s _ _ _)))
  | cvtdgSuc fa fb fc => exact (show KeepsRes s (execCvtdgSuc fa fb fc s) by unfold execCvtdgSuc; exact .fpGate s (by exact .next (Keeps.finishFp s _ _ _)))
  | cvtgq fa fb fc => exact (show KeepsRes s (execCvtgq fa fb fc s) by unfold execCvtgq; exact .fpGate s (by exact .next (Keeps.finishFp s _ _ _)))
  | cvtgqC fa fb fc => exact (show KeepsRes s (execCvtgqC fa fb fc s) by unfold execCvtgqC; exact .fpGate s (by exact .next (Keeps.finishFp s _ _ _)))
  | cvtgqV fa fb fc => exact (show KeepsRes s (execCvtgqV fa fb fc s) by unfold execCvtgqV; exact .fpGate s (by exact .next (Keeps.finishFp s _ _ _)))
  | cvtgqVc fa fb fc => exact (show KeepsRes s (execCvtgqVc fa fb fc s) by unfold execCvtgqVc; exact .fpGate s (by exact .next (Keeps.finishFp s _ _ _)))
  | cvtgqS fa fb fc => exact (show KeepsRes s (execCvtgqS fa fb fc s) by unfold execCvtgqS; exact .fpGate s (by exact .next (Keeps.finishFp s _ _ _)))
  | cvtgqSc fa fb fc => exact (show KeepsRes s (execCvtgqSc fa fb fc s) by unfold execCvtgqSc; exact .fpGate s (by exact .next (Keeps.finishFp s _ _ _)))
  | cvtgqSv fa fb fc => exact (show KeepsRes s (execCvtgqSv fa fb fc s) by unfold execCvtgqSv; exact .fpGate s (by exact .next (Keeps.finishFp s _ _ _)))
  | cvtgqSvc fa fb fc => exact (show KeepsRes s (execCvtgqSvc fa fb fc s) by unfold execCvtgqSvc; exact .fpGate s (by exact .next (Keeps.finishFp s _ _ _)))

/-! ## Words that name no instruction, and the counters -/

theorem Keeps.runUnused (r : Reject) : Keeps s (s.runUnused r) := by
  have hf : ∀ fc, Keeps s (s.writeFp fc s.freeNow).drawn.advance := fun fc =>
    ((Keeps.writeFp s _ _).trans (Keeps.drawn _)).trans (Keeps.advance _)
  unfold State.runUnused
  split
  · exact ((Keeps.writeInt s _ _).trans (Keeps.drawn _)).trans (Keeps.advance _)
  · split
    · exact hf _
    · exact Keeps.precise s _
  · split
    · exact hf _
    · exact Keeps.precise s _
  · exact Keeps.advance s

theorem Keeps.countOne (n retired : Nat) (k : Fin 3) : Keeps s (s.countOne n retired k) := by
  unfold State.countOne
  simp only
  split
  · exact .refl s
  · exact .of_eq rfl rfl rfl rfl rfl

theorem Keeps.elapse (before : State) (n r : Nat) : Keeps s (State.elapse before s n r) := by
  have h1 : Keeps s (if s.mbox.ccEna then { s with mbox := { s.mbox with ccLo := s.mbox.ccLo + BitVec.ofNat 32 n } } else s) :=
    .ite (.of_eq rfl rfl rfl rfl rfl) (.refl s)
  have h2 := ((h1.trans (Keeps.countOne _ n r 0)).trans (Keeps.countOne _ n r 1)).trans (Keeps.countOne _ n r 2)
  have h3 := Keeps.ite (c := (s.pmActive && !before.countingKilled s.ibox.pmctr) = true) h2 h1
  exact h3.trans (.of_eq rfl rfl rfl rfl rfl)

theorem Keeps.count (before : State) : Keeps s (State.count before s) := by
  refine (Keeps.elapse s before (Config.cycles s.freeCount) (if s.ended = .fault then 0 else 1)).trans ?_
  exact .of_eq rfl rfl rfl rfl rfl

/-! ## The fetch -/

/-- The state a source of a block leaves. -/
def Source.state : Source → Option State
  | .block _ _ s | .waits s => some s
  | .nothing => none

theorem Quiet.readBlock {pa : PAddr} {t : State} (h : (s.readBlock pa).state = some t) : Quiet s t := by
  unfold State.readBlock at h
  split at h
  · split at h
    · injection h with h; exact h ▸ .refl s
    · injection h with h; exact h ▸ Quiet.cachedRead ..
  · split at h
    · injection h with h; exact h ▸ .refl s
    · injection h with h; exact h ▸ Quiet.deviceRead ..
  · cases h

theorem Quiet.refillTake {b : Block} {p : Vector Longword 8 × State} (h : s.refillTake b = some p) : Quiet s p.2 := by
  unfold State.refillTake at h
  obtain ⟨l, -, rfl⟩ := Option.map_eq_some_iff.1 h
  exact .of_eq rfl rfl

theorem Quiet.fillSource {pa : PAddr} {t : State} (h : (s.fillSource pa).state = some t) : Quiet s t := by
  unfold State.fillSource at h
  split at h
  · rename_i h1
    injection h with h; subst h
    exact Quiet.refillTake s h1
  · split at h
    · rename_i h1
      injection h with h; subst h
      exact (Quiet.readyMiss s pa).trans (Quiet.refillTake _ h1)
    · exact (Quiet.readyMiss s pa).trans (Quiet.readBlock _ h)

theorem Quiet.icFill (l : IcLine) : Quiet s (s.icFill l) := .of_eq rfl rfl

theorem Quiet.drainRefill : Quiet s s.drainRefill := by
  unfold State.drainRefill
  split
  · exact .refl s
  · exact .of_eq rfl rfl

theorem Keeps.mchkHere : Keeps s s.mchkHere := Keeps.trap ..

theorem Keeps.istreamTrap (e : Entry) (sign : Bool) : Keeps s (s.istreamTrap e sign) :=
  Keeps.via (Keeps.precise _ e) rfl rfl rfl rfl rfl

theorem Keeps.touchItb (hit : Option (Fin 48)) : Keeps s (s.touchItb hit) := by
  cases hit <;> exact .of_eq rfl rfl rfl rfl rfl

/-- The state a fetch gives. -/
def Fetched.state : Fetched → Option State
  | .insn _ s | .trap s | .waits s => some s
  | .fault _ | .refused _ => none

/-- The state a fetch gives keeps the invariants of `s`. -/
structure KeepsFetched (s : State) (f : Fetched) : Prop where
  of : ∀ t, f.state = some t → Keeps s t

theorem KeepsFetched.some {s t : State} {f : Fetched} (hf : f.state = .some t) (h : Keeps s t) : KeepsFetched s f :=
  ⟨fun u e => by rw [hf] at e; injection e with e; exact e ▸ h⟩

theorem KeepsFetched.none {s : State} {f : Fetched} (hf : f.state = .none) : KeepsFetched s f :=
  ⟨fun u e => by rw [hf] at e; cases e⟩

theorem KeepsFetched.trans {s t : State} {f : Fetched} (h : Keeps s t) (h' : KeepsFetched t f) : KeepsFetched s f :=
  ⟨fun u e => h.trans (h'.of u e)⟩

theorem KeepsFetched.fetchAt (pa : PAddr) (asm : Bool) : KeepsFetched s (s.fetchAt pa asm) := by
  unfold State.fetchAt
  split
  · exact .some rfl (.refl s)
  · exact .some rfl (.of_eq rfl rfl rfl rfl rfl)
  · have hq := fun t => Quiet.fillSource s (pa := pa) (t := t)
    split <;> rename_i h <;> rw [h] at hq
    · dsimp only
      split
      · exact .some rfl (.of_quiet ((hq _ rfl).trans (Quiet.ifTaken _ _ (Quiet.icFill ..))))
      · exact .some rfl (.of_quiet ((hq _ rfl).trans (Quiet.icFill ..)))
    · exact .some rfl (.of_quiet (hq _ rfl))
    · exact .none rfl

theorem KeepsFetched.fetch : KeepsFetched s s.fetch := by
  have h : Keeps s (if s.istreamLost && !s.palmode then s.drawn else s) := .ite (Keeps.drawn s) (.refl s)
  unfold State.fetch
  dsimp only
  split
  · exact .some rfl (h.trans (Keeps.istreamTrap ..))
  · exact .some rfl (h.trans (Keeps.istreamTrap ..))
  · exact .none rfl
  · exact .trans (h.trans (Keeps.touchItb _ _)) (KeepsFetched.fetchAt _ _ _)

/-! ## The environment -/

theorem Keeps.agentWrite (bytes : List Byte) : ∀ (s : State) (pa : PAddr), Keeps s (s.agentWrite pa bytes) := by
  induction bytes with
  | nil => intro s _; exact .refl s
  | cons b rest ih =>
    intro s pa
    unfold State.agentWrite
    refine Keeps.trans ?_ (ih _ _)
    split
    · rename_i h
      refine ⟨fun hm => ?_, fun hp hr => ⟨hp, hr⟩⟩
      exact ⟨Memory.wf_write hm.1 _ _, Memory.below_write hm.2 (lt_of_bit39 (regionOf_memory h)) _⟩
    · exact .refl s

theorem Keeps.partialReset : Keeps s s.partialReset := by
  have h0 : Keeps s (s.recordIcError 4#3) := .of_eq rfl rfl rfl rfl rfl
  have h1 := h0.trans (.of_quiet (Quiet.foldl (f := fun t x => State.deliverAny t x true) (fun t x => Quiet.deliverAny t x true)
    s.awaited _))
  unfold State.partialReset
  generalize List.foldl _ _ _ = u at h1 ⊢
  exact Keeps.trans (h1.trans (.of_eq rfl rfl rfl rfl rfl)) (Keeps.mchkHere _)

theorem Keeps.pass (n : Nat) : Keeps s (s.pass n) := by
  have h : Keeps s (State.drawn { State.elapse s s n 0 with stalled := s.stalled + n }) :=
    (Keeps.elapse s s n 0).trans (.of_eq rfl rfl rfl rfl rfl)
  exact .ite (h.trans (Keeps.partialReset _)) h

theorem afterReset_mem (ratio : BitVec 4) (delay : BitVec 3) (passed : Bool) (lines : List IcLine) :
    (s.afterReset ratio delay passed lines).mem = s.mem := by
  rw [State.afterReset]

theorem afterReset_pc (ratio : BitVec 4) (delay : BitVec 3) (passed : Bool) (lines : List IcLine) :
    (s.afterReset ratio delay passed lines).pc = 0#64 := by
  rw [State.afterReset]

theorem afterReset_ibox (ratio : BitVec 4) (delay : BitVec 3) (passed : Bool) (lines : List IcLine) :
    (s.afterReset ratio delay passed lines).ibox = s.ibox.afterReset (s.freeCount + 1 + 100) passed := by
  rw [State.afterReset]

theorem afterReset_mcsr (ratio : BitVec 4) (delay : BitVec 3) (passed : Bool) (lines : List IcLine) :
    (s.afterReset ratio delay passed lines).mbox.mcsr = 0#6 := by
  rw [State.afterReset]; rfl

/-- Chip reset leaves memory as it is, PC 0, and only named bits of ICSR and MCSR. -/
theorem Keeps.afterReset (ratio : BitVec 4) (delay : BitVec 3) (passed : Bool) (lines : List IcLine) :
    Keeps s (s.afterReset ratio delay passed lines) := by
  refine .of_mem (afterReset_mem ..) fun _ _ => ?_
  unfold State.pcOk State.reservedOk
  rw [afterReset_pc, afterReset_ibox, afterReset_mcsr]
  refine ⟨⟨rfl, clear1_and _⟩, ?_, by decide⟩
  cases passed
  · show (0x2000000000#64 : Word) &&& ~~~0xFF7FF00300#64 = 0#64
    decide
  · show (0x6000000000#64 : Word) &&& ~~~0xFF7FF00300#64 = 0#64
    decide

theorem Keeps.hardError (b : EiBits) (m i : Bool) (pa : PAddr) (y : BitVec 16) : Keeps s (s.hardError b m i pa y) :=
  .of_quiet (Quiet.hardError ..)

theorem KeepsRes.queueCommand (w : Waiting) : KeepsRes s (s.queueCommand w) :=
  .ite s (.refused ..) (.next (.of_eq rfl rfl rfl rfl rfl))

theorem KeepsRes.acceptCommand (c : SysCommand) (pa : PAddr) : KeepsRes s (s.acceptCommand c pa) := by
  have h : Keeps s { s.drawn with nopParity := false } := .of_eq rfl rfl rfl rfl rfl
  exact .ite s (.refused ..) (.ite s (.ite s (.next h) (.trans h (KeepsRes.queueCommand ..))) (KeepsRes.queueCommand ..))

theorem KeepsRes.badCycle (cmd : BitVec 4) (pa : PAddr) : KeepsRes s (s.badCycle cmd pa) :=
  .trans (Keeps.hardError s eiAddressParity true false pa 0#16)
    (.ite _ (.next (.of_eq rfl rfl rfl rfl rfl)) (KeepsRes.queueCommand ..))

theorem KeepsRes.systemCycle (cmd : BitVec 4) (pa : PAddr) (par : Bool) : KeepsRes s (s.systemCycle cmd pa par) := by
  refine .ite s (KeepsRes.badCycle ..) (.ite s (.next (.of_eq rfl rfl rfl rfl rfl)) ?_)
  split
  · exact .refused ..
  · exact KeepsRes.acceptCommand ..

theorem Keeps.askPrefetch (pa : PAddr) : Keeps s (s.askPrefetch pa) := .ite (.of_eq rfl rfl rfl rfl rfl) (.refl s)

theorem Keeps.writeTick (l : Bool) : Keeps s (s.writeTick l) := .ite (.refl s) (.of_quiet (Quiet.drainOne s))

/-- Every environment event keeps the invariants. -/
theorem keepsRes_event (e : EnvEvent) : KeepsRes s (s.event e) := by
  cases e with
  | quiet => exact .next (.refl s)
  | pins => exact .next (.of_eq rfl rfl rfl rfl rfl)
  | idleBc => exact .next (.of_eq rfl rfl rfl rfl rfl)
  | command cmd pa par => exact KeepsRes.systemCycle s cmd pa par
  | memWrite pa bytes => exact .next (Keeps.agentWrite bytes s pa)
  | answer => exact .next (.of_eq rfl rfl rfl rfl rfl)
  | prefetch pa => exact .next (Keeps.askPrefetch s pa)
  | fill r a => exact .next (.of_quiet (Quiet.takeMiss s r a))
  | writeTimer l => exact .next (Keeps.writeTick s l)
  | wait n => exact .next (Keeps.pass s n)
  | fillError => exact .next (.of_eq rfl rfl rfl rfl rfl)
  | cfail => exact .next (Keeps.partialReset s)
  | icacheParity => exact .next (.of_eq rfl rfl rfl rfl rfl)
  | dcacheUpset => exact .next (.of_eq rfl rfl rfl rfl rfl)
  | scacheUpset => exact .next (.of_eq rfl rfl rfl rfl rfl)
  | bcacheUpset => exact .next (.of_quiet ((Quiet.bcStoreTag ..).trans (Quiet.bcStoreData ..)))
  | chipReset ratio delay passed srom =>
    show KeepsRes s (s.chipReset ratio delay passed srom)
    unfold State.chipReset
    split
    · exact .refused ..
    · split
      · exact .next (Keeps.afterReset ..)
      · split
        · exact .next (Keeps.afterReset ..)
        · exact .refused ..

/-! ## The work between two steps -/

theorem Keeps.takeMchk : Keeps s s.takeMchk := by
  have h := Keeps.of_quiet (Quiet.awaitLoads s)
  exact .ite (.ite (h.trans (Keeps.via (Keeps.mchkHere _) rfl rfl rfl rfl rfl)) h) (.refl s)

theorem Keeps.settle : Keeps s s.settle := by
  have h := (Quiet.serveCommands s).trans (Quiet.settleLoads _)
  have h' : ∀ u : State, Quiet u ((u.drainWb u.wbMust u.wbDue).finishMb.settlePrefetches) := fun u =>
    ((Quiet.drainWb ..).trans (Quiet.finishMb _)).trans (Quiet.settlePrefetches _)
  exact (Keeps.of_quiet (h.trans (h' _))).trans (Keeps.takeMchk _)

/-! ## An instruction, an event, a step -/

theorem Keeps.idled : Keeps s s.idled := Keeps.pass ..

theorem Keeps.awaitLoads : Keeps s s.awaitLoads := .of_quiet (Quiet.awaitLoads s)

theorem Keeps.drain : Keeps s s.drain := .ite (Keeps.awaitLoads s) ((Keeps.awaitLoads s).trans (Keeps.idled _))

theorem Keeps.finish {s t : State} (h : Keeps s t) : Keeps s (s.finish t) :=
  .ite (Keeps.drain s) ((h.trans (Keeps.count t s)).trans (.of_quiet (Quiet.drainRefill _)))

theorem Keeps.interrupted : Keeps s s.interrupted := by
  have h := Keeps.awaitLoads s
  exact .ite h (.ite (h.trans (Keeps.trap ..)) (h.trans (Keeps.idled _)))

end Sys2Proof.Machine
end

