-- ==== Sys2Proof/Laws/Settle.lean ====
section
/-! SUPPORT. The work between two steps when nothing waits, and when loads alone wait. -/

namespace Sys2Proof.Machine

variable {s : State}

/-- Nothing on its way: no load waits, in the miss address file or for a fill, and no STx_C. -/
theorem State.drained_iff : s.drained = true ↔ s.maf = [] ∧ s.awaited = [] := by
  simp only [State.drained, Bool.and_eq_true, List.isEmpty_iff]

/-- Nothing to do between two steps. -/
theorem State.settle_idle (h : s.idle) : s.settle = s := by
  obtain ⟨hd, hi, hc, hb, hk, hw⟩ := h
  obtain ⟨hm, -⟩ := State.drained_iff.1 hd
  have h1 : s.serveCommands = s := by unfold State.serveCommands; rw [hc]; exact ite_self _
  have h2 : s.settleLoads = s := by unfold State.settleLoads; rw [hm, hb]; rfl
  have h3 : s.finishMb = s := by unfold State.finishMb; rw [hb]; rfl
  have h4 : s.settlePrefetches = s := by unfold State.settlePrefetches; rw [hi]
  have h5 : s.takeMchk = s := by unfold State.takeMchk; rw [hk]; rfl
  unfold State.settle
  simp only [h1, h2, hw, State.drainWb, h3, h4, h5]

/-- Where nothing waits, at most one entry stands in the write buffer. -/
theorem State.idle_wb (h : s.idle) : s.wb.length ≤ 1 := by
  have hw := h.2.2.2.2.2
  unfold State.wbDue at hw
  split at hw <;> omega

/-- Where nothing waits a word finds no load to wait for, and a free entry. -/
theorem State.readyFor_idle (h : s.idle) (w : Longword) : s.readyFor w = s := by
  obtain ⟨hm, ha⟩ := State.drained_iff.1 h.1
  have hl : ∀ r, s.missLoads r = [] := by
    have : s.loadsWaiting = [] := by
      have := (List.append_eq_nil_iff.1 ha).1
      simpa using this
    unfold State.loadsWaiting at this
    obtain ⟨-, h2⟩ := List.append_eq_nil_iff.1 this
    obtain ⟨h3, h4⟩ := List.append_eq_nil_iff.1 h2
    intro r
    cases r <;> assumption
  have hw : s.awaitLoads = s := by
    unfold State.awaitLoads
    rw [hm]
    simp only [State.awaitLoadFills, hl, ne_eq, not_true_eq_false, if_false]
  have hb := State.idle_wb h
  unfold State.readyFor
  simp only [hw, ite_self]
  rw [if_neg (by simp; omega)]

/-- Where nothing waits no word has to wait. -/
theorem State.blocked_idle (h : s.idle) (w : Longword) : s.blocked w = false := by
  obtain ⟨hm, ha⟩ := State.drained_iff.1 h.1
  have hb := State.idle_wb h
  have hc : s.wb.any WbEntry.isCond = false := by
    have hn := List.filterMap_eq_nil_iff.1 (List.append_eq_nil_iff.1 ha).2
    rw [List.any_eq_false]
    intro e he
    have := hn e he
    unfold WbEntry.condTarget at this
    unfold WbEntry.isCond
    split <;> simp_all
  have h6 : decide (6 ≤ s.wb.length) = false := by simp; omega
  unfold State.blocked
  simp [hm, ha, hc, h6, h.1, h.2.2.2.1]

end Sys2Proof.Machine
end

