-- ==== Sys2Proof/Tests/Slice0.lean ====
section
/-! SUPPORT. Tests. The expected results are those of the spec: the words and vectors of 95_test_vectors.md, the worked
examples of the rules, and hand calculation from the rules cited. The last part shows, for every statement that has
hypotheses, that a concrete state and operands meet them. -/

set_option Elab.async false

namespace Sys2Proof.Tests

open Sys2Proof Sys2Proof.Machine

/-! ## Small states and what a step answers -/

/-- Kernel code at 1000 hex outside PALmode, floating point enabled, PAL_BASE 8000, and the identity mapping of the first
four megabytes in entry 0 of both translation buffers, as 95_test_vectors.md presumes. -/
def kern : State := { State.reset with
  pc := 0x1000#64, palmode := false
  ibox := { State.reset.ibox with icsr := 0x2004000000#64, palBase := 2#50 }
  itb := ⟨State.reset.itb.entries.set 0 ⟨true, 0#30, 0#7, true, 3#2, 15#4, 0#27⟩, 1⟩
  dtb := ⟨State.reset.dtb.entries.set 0 ⟨true, 0#30, 0#7, true, 3#2, false, false, 15#4, 15#4, 0#27⟩, 1⟩ }

/-- PALmode, otherwise as `kern`. -/
def pal : State := { kern with palmode := true }

/-- `kern` with both superpages enabled (MCSR<SP>). -/
def superpage : State := { kern with mbox := { kern.mbox with mcsr := 6#6 } }

/-- `kern` with no valid DTB entry. -/
def unmapped : State := { kern with dtb := State.reset.dtb }

/-- `kern` with floating point disabled. -/
def noFp : State := { kern with ibox := { kern.ibox with icsr := 0x2000000000#64 } }

/-- `kern` with one DTB entry of other contents. -/
def mapped (e : DtbEntry) : State := { kern with dtb := ⟨State.reset.dtb.entries.set 0 e, 1⟩ }

/-- The two quadwords at 2000 hex of 95_test_vectors.md, section 2.2, and R2 = 2000. -/
def data : State :=
  let low := Memory.writeBytes [] 0x2000 0x8877665544332211#64 8
  State.writeInt { kern with mem := low.writeBytes 0x2008 0xFFEEDDCCBBAA99F0#64 8 } 2#5 0x2000#64

/-- The quadword at an address as the processor sees it behind the Dcache. -/
def seen (t : State) (a : PAddr) : Word := hexDatum true a (t.sees (granule a))

/-- A word, run, and then the work of the buffers. -/
noncomputable def settled (s : State) (w : Longword) : Res State := mapRes State.settle (s.runWord w)

/-- The step or meaning answers a next state of which `p` holds. -/
def after (r : Res State) (p : State → Bool) : Bool :=
  match r with
  | .next t => p t
  | _ => false

theorem exists_of_after {r : Res State} {p : State → Bool} (h : after r p = true) : ∃ t, r = .next t ∧ p t = true := by
  cases r with
  | next t => exact ⟨t, rfl, h⟩
  | fault => cases h
  | refused => cases h

/-- `s` entered PALcode at an offset from PAL_BASE 8000 with this EXC_ADDR. -/
def entered (t : State) (offset exc : Word) : Bool :=
  t.pc == 0x8000#64 + offset && t.palmode && t.ibox.excAddr == exc

/-- Rows of word, R1, R2 and the expected R3, each one instruction of `s`, which goes on at the next address. -/
noncomputable def intRows (s : State) (rows : List (Longword × Word × Word × Word)) : Bool :=
  rows.all fun r =>
    after (State.runWord ((s.writeInt 1#5 r.2.1).writeInt 2#5 r.2.2.1) r.1) fun t =>
      t.readInt 3#5 == r.2.2.2 && t.pc == 0x1004#64

/-- The same for instructions that enter ARITH with EXC_SUM<IOV> and the mask bit of R3 (R597). -/
noncomputable def overflowRows (rows : List (Longword × Word × Word × Word)) : Bool :=
  rows.all fun r =>
    after (State.runWord ((kern.writeInt 1#5 r.2.1).writeInt 2#5 r.2.2.1) r.1) fun t =>
      t.readInt 3#5 == r.2.2.2 && entered t 0x500#64 0x1004#64 && t.ibox.excSum == 0x40#7 && t.ibox.excMask == 8#64

/-- Rows of word, F1, F2, the expected F3 and the expected status bits of the FPCR (F3 is 1234 hex before). -/
noncomputable def fpRows (rows : List (Longword × Word × Word × Word × BitVec 11)) : Bool :=
  rows.all fun r =>
    after (State.runWord (((kern.writeFp 1#5 r.2.1).writeFp 2#5 r.2.2.1).writeFp 3#5 0x1234#64) r.1) fun t =>
      t.readFp 3#5 == r.2.2.2.1 && t.fpcr == r.2.2.2.2 && t.pc == 0x1004#64

/-- Rows of word, F1, F2, the FPCR status bits and EXC_SUM<16:10> of an instruction that enters ARITH with destination
F3. -/
noncomputable def fpTrapRows (rows : List (Longword × Word × Word × BitVec 11 × BitVec 7)) : Bool :=
  rows.all fun r =>
    after (State.runWord ((kern.writeFp 1#5 r.2.1).writeFp 2#5 r.2.2.1) r.1) fun t =>
      t.fpcr == r.2.2.2.1 && t.ibox.excSum == r.2.2.2.2 && entered t 0x500#64 0x1004#64 &&
        t.ibox.excMask == 0x800000000#64

/-- Rows of word, R1 or F1, and the expected PC. -/
noncomputable def branchRows (rows : List (Longword × Word × Word)) : Bool :=
  rows.all fun r =>
    after (State.runWord ((kern.writeInt 1#5 r.2.1).writeFp 1#5 r.2.1) r.1) fun t => t.pc == r.2.2

/-! ## Ill-formed terms are refused -/

theorem test_callPal_function_of_its_own_row_ill_formed :
    Instr.wellFormed (.callPal 0x00#26) = false ∧ Instr.wellFormed (.callPal 0x02#26) = false ∧
      Instr.wellFormed (.callPal 0x86#26) = false ∧ Instr.wellFormed (.callPal 0x83#26) = true := by decide

theorem test_hwMfpr_two_registers_ill_formed :
    Instr.wellFormed (.hwMfpr 1#5 2#5 0x10B#16) = false ∧ Instr.wellFormed (.hwMfpr 1#5 1#5 0x10B#16) = true := by decide

theorem test_hwMtpr_two_registers_ill_formed :
    Instr.wellFormed (.hwMtpr 1#5 2#5 0x10B#16) = false ∧ Instr.wellFormed (.hwMtpr 1#5 1#5 0x10B#16) = true := by decide

theorem test_hwSt_must_be_zero_ill_formed :
    Instr.wellFormed (.hwSt 1#5 2#5 true false true true false false 0#10) = false ∧
      Instr.wellFormed (.hwSt 1#5 2#5 true false false true true false 0#10) = false ∧
      Instr.wellFormed (.hwSt 1#5 2#5 true false false true false false 0#10) = true := by decide

theorem test_hwRei_type_and_must_be_zero_ill_formed :
    Instr.wellFormed (.hwRei 31#5 31#5 0#2 0#14) = false ∧ Instr.wellFormed (.hwRei 31#5 31#5 2#2 1#14) = false ∧
      Instr.wellFormed (.hwRei 31#5 31#5 2#2 0#14) = true := by decide

/-! ## Decoding: words written out in the spec (95_test_vectors.md) -/

/-- 95_test_vectors.md 2.1 and 2.2. -/
theorem test_decode_memory_format :
    decode 0xA422FFF8#32 = .ok (.ldq 1#5 2#5 0xFFF8#16) ∧
    decode 0x247F1234#32 = .ok (.ldah 3#5 31#5 0x1234#16) ∧
    decode 0x2C220005#32 = .ok (.ldqU 1#5 2#5 5#16) ∧
    decode 0xBC220000#32 = .ok (.stqC 1#5 2#5 0#16) ∧
    decode 0x88220000#32 = .ok (.lds 1#5 2#5 0#16) ∧
    decode 0x9FE20000#32 = .ok (.stt 31#5 2#5 0#16) :=
  ⟨rfl, rfl, rfl, rfl, rfl, rfl⟩

theorem test_decode_branch_format :
    decode 0xF45FFFFB#32 = .ok (.bne 2#5 0x1FFFFB#21) ∧
    decode 0xC3E00000#32 = .ok (.br 31#5 0#21) ∧
    decode 0xD34FFFFF#32 = .ok (.bsr 26#5 0xFFFFF#21) ∧
    decode 0xD8200002#32 = .ok (.fbge 1#5 2#21) :=
  ⟨rfl, rfl, rfl, rfl⟩

theorem test_decode_jump_format :
    decode 0x6B5B4000#32 = .ok (.jsr 26#5 27#5 0#14) ∧
    decode 0x6BFA8001#32 = .ok (.ret 31#5 26#5 1#14) ∧
    decode 0x6B5AC000#32 = .ok (.jsrCoroutine 26#5 26#5 0#14) :=
  ⟨rfl, rfl, rfl⟩

/-- The unused bits <15:13> of a register form are ignored (R486). -/
theorem test_decode_operate_format :
    decode 0x40220403#32 = .ok (.addq 1#5 (.reg 2#5) 3#5) ∧
    decode 0x403FF403#32 = .ok (.addq 1#5 (.lit 0xFF#8) 3#5) ∧
    decode 0x4022E003#32 = .ok (.addl 1#5 (.reg 2#5) 3#5) ∧
    decode 0x48220F43#32 = .ok (.extqh 1#5 (.reg 2#5) 3#5) ∧
    decode 0x4C220C03#32 = .ok (.mulqV 1#5 (.reg 2#5) 3#5) ∧
    decode 0x44220283#32 = .ok (.cmovlbs 1#5 (.reg 2#5) 3#5) :=
  ⟨rfl, rfl, rfl, rfl, rfl, rfl⟩

theorem test_decode_floating_format :
    decode 0x5822F403#32 = .ok (.addtSui 1#5 2#5 3#5) ∧
    decode 0x5FFF041F#32 = .ok (.cpys 31#5 31#5 31#5) ∧
    decode 0x57E205E3#32 = .ok (.cvtgqC 31#5 2#5 3#5) ∧
    decode 0x5C210481#32 = .ok (.mtFpcr 1#5 1#5 1#5) ∧
    decode 0x5BE225E3#32 = .ok (.cvttqVc 31#5 2#5 3#5) :=
  ⟨rfl, rfl, rfl, rfl, rfl⟩

theorem test_decode_miscellaneous_format :
    decode 0x603FC000#32 = .ok (.rpcc 1#5 31#5) ∧
    decode 0x603FE000#32 = .ok (.rc 1#5 31#5) ∧
    decode 0x603FF000#32 = .ok (.rs 1#5 31#5) ∧
    decode 0x63E28000#32 = .ok (.fetch 31#5 2#5) ∧
    decode 0x63FF4400#32 = .ok (.wmb 31#5 31#5) :=
  ⟨rfl, rfl, rfl, rfl, rfl⟩

theorem test_decode_palcode_formats :
    decode 0x00000083#32 = .ok (.callPal 0x83#26) ∧
    decode 0x00000002#32 = .ok (.callPalDraina) ∧
    decode 0x7BFF8000#32 = .ok (.hwRei 31#5 31#5 2#2 0#14) ∧
    decode 0x6421010B#32 = .ok (.hwMfpr 1#5 1#5 0x10B#16) ∧
    decode 0x7421010B#32 = .ok (.hwMtpr 1#5 1#5 0x10B#16) ∧
    decode 0x6C229000#32 = .ok (.hwLd 1#5 2#5 true false false true false false 0#10) ∧
    decode 0x7C229000#32 = .ok (.hwSt 1#5 2#5 true false false true false false 0#10) :=
  ⟨rfl, rfl, rfl, rfl, rfl, rfl, rfl⟩

theorem test_decode_reserved_opcodes :
    decode 0x04000000#32 = .ok (.opc01 0#26) ∧
    decode 0x70000000#32 = .ok (.opc1c 0#26) :=
  ⟨rfl, rfl⟩

/-- A function code that names no instruction is rejected by name (R503). -/
theorem test_decode_unused_function_codes :
    decode 0x40220023#32 = .error (.unusedInt 3#5) ∧ decode 0x5C220003#32 = .error (.unusedFp 3#5) ∧
    decode 0x58220203#32 = .error (.unusedIeee 1#2 3#5) ∧ decode 0x63FF0001#32 = .error .unusedMisc :=
  ⟨rfl, rfl, rfl, rfl⟩

/-- Bit by bit: opcode 10 (010000), ra 1 (00001), rb 2 (00010), SBZ 000, bit 12 zero, function 20 (0100000), rc 3 (00011),
ADDQ R1,R2,R3 (R486, R493). -/
theorem test_decode_addq_bits :
    decode (0b010000#6 ++ (0b00001#5 ++ (0b00010#5 ++ (0b000#3 ++ (0b0#1 ++ (0b0100000#7 ++ 0b00011#5)))))) =
      .ok (.addq 1#5 (.reg 2#5) 3#5) := rfl

/-- The bytes of a word lie little-endian (R480). -/
theorem test_word_bytes : wordBytes 0xA422FFF8#32 = [0xF8#8, 0xFF#8, 0x22#8, 0xA4#8] := by decide

/-! ## One step of each family (95_test_vectors.md, sections 2.3 to 2.8) -/

theorem test_integer_arithmetic : intRows kern [
    (0x40220003#32, 0x7FFFFFFF#64, 1#64, 0xFFFFFFFF80000000#64),
    (0x40220003#32, 0x1234567880000000#64, 0x80000000#64, 0#64),
    (0x40220803#32, 0xFFFFFFFF#64, 1#64, 0#64),
    (0x40220403#32, 0xFFFFFFFFFFFFFFFF#64, 1#64, 0#64),
    (0x403FF403#32, 5#64, 0#64, 0x104#64),
    (0x40220C03#32, 0xFFFFFFFFFFFFFFFF#64, 1#64, 0#64),
    (0x40220043#32, 0x40000000#64, 1#64, 1#64),
    (0x40220443#32, 0x4000000000000001#64, 3#64, 7#64),
    (0x40220243#32, 3#64, 0x100#64, 0x118#64),
    (0x40220643#32, 0x2000000000000001#64, 0#64, 8#64),
    (0x40220123#32, 0#64, 1#64, 0xFFFFFFFFFFFFFFFF#64),
    (0x40220523#32, 0#64, 1#64, 0xFFFFFFFFFFFFFFFF#64),
    (0x40220163#32, 3#64, 2#64, 0xA#64),
    (0x40220563#32, 1#64, 5#64, 0xFFFFFFFFFFFFFFFF#64),
    (0x40220363#32, 0x10000000#64, 0#64, 0xFFFFFFFF80000000#64),
    (0x40220763#32, 3#64, 2#64, 0x16#64),
    (0x402205A3#32, 5#64, 5#64, 1#64),
    (0x402209A3#32, 0xFFFFFFFFFFFFFFFF#64, 0#64, 1#64),
    (0x40220DA3#32, 0x8000000000000000#64, 0x7FFFFFFFFFFFFFFF#64, 1#64),
    (0x402203A3#32, 0xFFFFFFFFFFFFFFFF#64, 0#64, 0#64),
    (0x402017A3#32, 0#64, 0#64, 1#64),
    (0x4C220003#32, 0x10000#64, 0x10000#64, 0#64),
    (0x4C220003#32, 0xFFFFFFFF#64, 0xFFFFFFFF#64, 1#64),
    (0x4C220803#32, 0xFFFFFFFF#64, 0xFFFFFFFF#64, 1#64),
    (0x4C220403#32, 0x100000000#64, 0x100000000#64, 0#64),
    (0x4C215403#32, 7#64, 0#64, 0x46#64),
    (0x4C220C03#32, 0xFFFFFFFFFFFFFFFF#64, 0xFFFFFFFFFFFFFFFF#64, 1#64),
    (0x4C220603#32, 0xFFFFFFFFFFFFFFFF#64, 0xFFFFFFFFFFFFFFFF#64, 0xFFFFFFFFFFFFFFFE#64),
    (0x4C220603#32, 0x100000000#64, 0x100000000#64, 1#64)] = true := by decide +kernel

theorem test_integer_arithmetic_overflow : overflowRows [
    (0x40220803#32, 0x7FFFFFFF#64, 1#64, 0xFFFFFFFF80000000#64),
    (0x40220C03#32, 0x7FFFFFFFFFFFFFFF#64, 1#64, 0x8000000000000000#64),
    (0x40220923#32, 0x80000000#64, 1#64, 0x7FFFFFFF#64),
    (0x40220D23#32, 0x8000000000000000#64, 1#64, 0x7FFFFFFFFFFFFFFF#64),
    (0x40220D23#32, 0#64, 0x8000000000000000#64, 0x8000000000000000#64),
    (0x4C220803#32, 0x10000#64, 0x8000#64, 0xFFFFFFFF80000000#64),
    (0x4C220C03#32, 0x100000000#64, 0x80000000#64, 0x8000000000000000#64)] = true := by decide +kernel

theorem test_logical_and_shift : intRows kern [
    (0x44220003#32, 0xFF00FF00FF00FF00#64, 0xFF00FF00FF00FF0#64, 0xF000F000F000F00#64),
    (0x44220103#32, 0xFF00FF00FF00FF00#64, 0xFF00FF00FF00FF0#64, 0xF000F000F000F000#64),
    (0x44220403#32, 0xFF00FF00FF00FF00#64, 0xFF00FF00FF00FF0#64, 0xFFF0FFF0FFF0FFF0#64),
    (0x44220503#32, 0xFF00FF00FF00FF00#64, 0xFF00FF00FF00FF0#64, 0xFF0FFF0FFF0FFF0F#64),
    (0x44220803#32, 0xFF00FF00FF00FF00#64, 0xFF00FF00FF00FF0#64, 0xF0F0F0F0F0F0F0F0#64),
    (0x44220903#32, 0xFF00FF00FF00FF00#64, 0xFF00FF00FF00FF0#64, 0xF0F0F0F0F0F0F0F#64),
    (0x443FF003#32, 0xFF00FF00FF00FF00#64, 0#64, 0#64),
    (0x48220723#32, 0x8000000000000001#64, 1#64, 2#64),
    (0x48220723#32, 0x8000000000000001#64, 0x3F#64, 0x8000000000000000#64),
    (0x48220683#32, 0x8000000000000001#64, 1#64, 0x4000000000000000#64),
    (0x48220683#32, 0x8000000000000001#64, 0x43#64, 0x1000000000000000#64),
    (0x48220783#32, 0x8000000000000001#64, 1#64, 0xC000000000000000#64),
    (0x48220783#32, 0x8000000000000001#64, 0x3F#64, 0xFFFFFFFFFFFFFFFF#64)] = true := by decide +kernel

theorem test_conditional_moves : intRows (kern.writeInt 3#5 0xAAAAAAAAAAAAAAAA#64) [
    (0x44220483#32, 0#64, 0x5555555555555555#64, 0x5555555555555555#64),
    (0x44220483#32, 0x8000000000000000#64, 0x5555555555555555#64, 0xAAAAAAAAAAAAAAAA#64),
    (0x442204C3#32, 0x100000000#64, 0x5555555555555555#64, 0x5555555555555555#64),
    (0x44220883#32, 0x8000000000000000#64, 0x5555555555555555#64, 0x5555555555555555#64),
    (0x44220883#32, 0#64, 0x5555555555555555#64, 0xAAAAAAAAAAAAAAAA#64),
    (0x442208C3#32, 0#64, 0x5555555555555555#64, 0x5555555555555555#64),
    (0x44220C83#32, 0#64, 0x5555555555555555#64, 0x5555555555555555#64),
    (0x44220C83#32, 1#64, 0x5555555555555555#64, 0xAAAAAAAAAAAAAAAA#64),
    (0x44220CC3#32, 1#64, 0x5555555555555555#64, 0x5555555555555555#64),
    (0x44220CC3#32, 0x8000000000000000#64, 0x5555555555555555#64, 0xAAAAAAAAAAAAAAAA#64),
    (0x44220283#32, 3#64, 0x5555555555555555#64, 0x5555555555555555#64),
    (0x442202C3#32, 3#64, 0x5555555555555555#64, 0xAAAAAAAAAAAAAAAA#64)] = true := by decide +kernel

theorem test_extract : intRows kern [
    (0x482200C3#32, 0x8877665544332211#64, 5#64, 0x66#64),
    (0x482202C3#32, 0x8877665544332211#64, 5#64, 0x7766#64),
    (0x482204C3#32, 0x8877665544332211#64, 5#64, 0x887766#64),
    (0x482206C3#32, 0x8877665544332211#64, 5#64, 0x887766#64),
    (0x48220B43#32, 0x8877665544332211#64, 7#64, 0x1100#64),
    (0x48220D43#32, 0x8877665544332211#64, 7#64, 0x33221100#64),
    (0x48220F43#32, 0x8877665544332211#64, 7#64, 0x7766554433221100#64)] = true := by decide +kernel

theorem test_insert : intRows kern [
    (0x48220163#32, 0x8877665544332211#64, 5#64, 0x110000000000#64),
    (0x48220363#32, 0x8877665544332211#64, 5#64, 0x22110000000000#64),
    (0x48220563#32, 0x8877665544332211#64, 5#64, 0x3322110000000000#64),
    (0x48220763#32, 0x8877665544332211#64, 5#64, 0x3322110000000000#64),
    (0x48220AE3#32, 0x8877665544332211#64, 7#64, 0x22#64),
    (0x48220CE3#32, 0x8877665544332211#64, 7#64, 0x443322#64),
    (0x48220EE3#32, 0x8877665544332211#64, 7#64, 0x88776655443322#64)] = true := by decide +kernel

theorem test_mask : intRows kern [
    (0x48220043#32, 0x8877665544332211#64, 5#64, 0x8877005544332211#64),
    (0x48220243#32, 0x8877665544332211#64, 5#64, 0x8800005544332211#64),
    (0x48220443#32, 0x8877665544332211#64, 5#64, 0x5544332211#64),
    (0x48220643#32, 0x8877665544332211#64, 5#64, 0x5544332211#64),
    (0x48220A43#32, 0x8877665544332211#64, 7#64, 0x8877665544332200#64),
    (0x48220C43#32, 0x8877665544332211#64, 7#64, 0x8877665544000000#64),
    (0x48220E43#32, 0x8877665544332211#64, 7#64, 0x8800000000000000#64)] = true := by decide +kernel

/-- With MCSR<E_BIG_ENDIAN> set the byte offset is complemented (R214). -/
theorem test_byte_instructions_big_endian :
    intRows { kern with mbox := { kern.mbox with mcsr := 0x10#6 } } [
    (0x482200C3#32, 0x8877665544332211#64, 5#64, 0x33#64),
    (0x482202C3#32, 0x8877665544332211#64, 5#64, 0x4433#64),
    (0x482204C3#32, 0x8877665544332211#64, 5#64, 0x66554433#64),
    (0x482206C3#32, 0x8877665544332211#64, 5#64, 0x887766554433#64),
    (0x48220B43#32, 0x8877665544332211#64, 5#64, 0#64),
    (0x48220D43#32, 0x8877665544332211#64, 5#64, 0#64),
    (0x48220F43#32, 0x8877665544332211#64, 5#64, 0x2211000000000000#64),
    (0x48220163#32, 0x8877665544332211#64, 5#64, 0x110000#64),
    (0x48220363#32, 0x8877665544332211#64, 5#64, 0x22110000#64),
    (0x48220563#32, 0x8877665544332211#64, 5#64, 0x443322110000#64),
    (0x48220763#32, 0x8877665544332211#64, 5#64, 0x6655443322110000#64),
    (0x48220AE3#32, 0x8877665544332211#64, 5#64, 0#64),
    (0x48220CE3#32, 0x8877665544332211#64, 5#64, 0#64),
    (0x48220EE3#32, 0x8877665544332211#64, 5#64, 0x8877#64),
    (0x48220043#32, 0x8877665544332211#64, 5#64, 0x8877665544002211#64),
    (0x48220243#32, 0x8877665544332211#64, 5#64, 0x8877665500002211#64),
    (0x48220443#32, 0x8877665544332211#64, 5#64, 0x8877000000002211#64),
    (0x48220643#32, 0x8877665544332211#64, 5#64, 0x2211#64),
    (0x48220A43#32, 0x8877665544332211#64, 5#64, 0x8877665544332211#64),
    (0x48220C43#32, 0x8877665544332211#64, 5#64, 0x8877665544332211#64),
    (0x48220E43#32, 0x8877665544332211#64, 5#64, 0x8877665544330000#64)] = true := by decide +kernel

theorem test_compare_bytes_and_zap : intRows kern [
    (0x402201E3#32, 0x8877665544332211#64, 0x4444444444444444#64, 0xF8#64),
    (0x43E201E3#32, 0#64, 0x6100620000630064#64, 0x5A#64),
    (0x4821F603#32, 0x8877665544332211#64, 0#64, 0x8877665500000000#64),
    (0x4821F623#32, 0x8877665544332211#64, 0#64, 0x44332211#64),
    (0x48220603#32, 0x8877665544332211#64, 0xFFFFFFFFFFFFFF81#64, 0x77665544332200#64),
    (0x48203623#32, 0x8877665544332211#64, 0#64, 0x11#64)] = true := by decide +kernel

theorem test_floating_point : fpRows [
    (0x58221403#32, 0x3FF8000000000000#64, 0x4002000000000000#64, 0x400E000000000000#64, 0#11),
    (0x58221403#32, 0x3FF0000000000000#64, 0x3CA0000000000000#64, 0x3FF0000000000000#64, 16#11),
    (0x58220403#32, 0x3FF0000000000000#64, 0x3CA8000000000000#64, 0x3FF0000000000000#64, 16#11),
    (0x58220C03#32, 0xBFF0000000000000#64, 0xBC90000000000000#64, 0xBFF0000000000001#64, 16#11),
    (0x58221003#32, 0x3FF0000000000000#64, 0x3E70000000000000#64, 0x3FF0000000000000#64, 16#11),
    (0x58221423#32, 0x3FF0000000000000#64, 0x3FF0000000000000#64, 0#64, 0#11),
    (0x58220C23#32, 0x3FF0000000000000#64, 0x3FF0000000000000#64, 0x8000000000000000#64, 0#11),
    (0x58221443#32, 0x4000000000000000#64, 0x4008000000000000#64, 0x4018000000000000#64, 0#11),
    (0x58221463#32, 0x3FF0000000000000#64, 0x4008000000000000#64, 0x3FD5555555555555#64, 16#11),
    (0x58221463#32, 0x3FF0000000000000#64, 0x4024000000000000#64, 0x3FB999999999999A#64, 16#11),
    (0x58220463#32, 0x3FF0000000000000#64, 0x4024000000000000#64, 0x3FB9999999999999#64, 16#11),
    (0x58221063#32, 0x3FF0000000000000#64, 0x4008000000000000#64, 0x3FD5555560000000#64, 16#11),
    (0x582214A3#32, 0#64, 0x8000000000000000#64, 0x4000000000000000#64, 0#11),
    (0x582214C3#32, 0xBFF0000000000000#64, 0x3FF0000000000000#64, 0x4000000000000000#64, 0#11),
    (0x582214E3#32, 0x4000000000000000#64, 0x3FF0000000000000#64, 0#64, 0#11),
    (0x58221483#32, 0x3FF0000000000000#64, 0x4000000000000000#64, 0#64, 0#11),
    (0x5BE217C3#32, 0#64, 3#64, 0x4008000000000000#64, 0#11),
    (0x5BE217C3#32, 0#64, 0x20000000000001#64, 0x4340000000000000#64, 16#11),
    (0x5BE21783#32, 0#64, 0x1000001#64, 0x4170000000000000#64, 16#11),
    (0x5BE205E3#32, 0#64, 0xC004000000000000#64, 0xFFFFFFFFFFFFFFFE#64, 16#11),
    (0x5BE215E3#32, 0#64, 0x4004000000000000#64, 2#64, 16#11),
    (0x5BE215E3#32, 0#64, 0x400C000000000000#64, 4#64, 16#11),
    (0x5BE20DE3#32, 0#64, 0xC004000000000000#64, 0xFFFFFFFFFFFFFFFD#64, 16#11),
    (0x5BE205E3#32, 0#64, 0x43F0000000000000#64, 0#64, 48#11),
    (0x5BE21583#32, 0#64, 0x3FF0000000000001#64, 0x3FF0000000000000#64, 16#11),
    (0x5BE25583#32, 0#64, 0x3FF8000000000000#64, 0x3FF8000000000000#64, 0#11),
    (0x5C220403#32, 0x8000000000000000#64, 0x3FF0000000000000#64, 0xBFF0000000000000#64, 0#11),
    (0x5C220423#32, 0x8000000000000000#64, 0x3FF0000000000000#64, 0x3FF0000000000000#64, 0#11),
    (0x5C220443#32, 0x4000000000000000#64, 0x3FF8000000000000#64, 0x4008000000000000#64, 0#11),
    (0x5FE20203#32, 0#64, 0xC000000000000000#64, 0xFFFFFFFFC0000000#64, 0#11),
    (0x5FE20203#32, 0#64, 0x40000000#64, 2#64, 0#11),
    (0x5FE20603#32, 0#64, 0xFFFFFFFFC0000000#64, 0xC000000000000000#64, 0#11),
    (0x5C220543#32, 0x8000000000000000#64, 0x3FF0000000000000#64, 0x3FF0000000000000#64, 0#11),
    (0x5C220583#32, 0x8000000000000000#64, 0x3FF0000000000000#64, 0x1234#64, 0#11),
    (0x54221403#32, 0x4010000000000000#64, 0x4020000000000000#64, 0x4028000000000000#64, 0#11),
    (0x54221003#32, 0x4010000000000000#64, 0x4010000000000000#64, 0x4020000000000000#64, 0#11),
    (0x54221463#32, 0x4010000000000000#64, 0x4028000000000000#64, 0x3FF5555555555555#64, 0#11),
    (0x57E205E3#32, 0#64, 0x4028000000000000#64, 3#64, 0#11),
    (0x57E217C3#32, 0#64, 3#64, 0x4028000000000000#64, 0#11),
    (0x57E215A3#32, 0#64, 0x4010000000000000#64, 0x4080000000000000#64, 0#11),
    (0x57E213C3#32, 0#64, 0x4080000000000000#64, 0x4010000000000000#64, 0#11)] = true := by decide +kernel

/-- Overflow, division by zero, an infinite, a denormal and a VAX reserved operand, and the integer overflow of CVTTQ/VC and
CVTQL/V. -/
theorem test_floating_point_traps : fpTrapRows [
    (0x58221443#32, 0x7FE0000000000000#64, 0x7FE0000000000000#64, 0x14#11, 0x08#7),
    (0x58221463#32, 0x3FF0000000000000#64, 0#64, 2#11, 4#7),
    (0x58221403#32, 0x7FF0000000000000#64, 0x3FF0000000000000#64, 1#11, 2#7),
    (0x58221403#32, 1#64, 0x3FF0000000000000#64, 1#11, 2#7),
    (0x54221463#32, 0x4010000000000000#64, 0#64, 2#11, 4#7),
    (0x54221403#32, 0x8000000000000000#64, 0x4010000000000000#64, 1#11, 2#7),
    (0x5BE225E3#32, 0#64, 0x43E0000000000000#64, 0x30#11, 0x40#7),
    (0x5FE22603#32, 0#64, 0x0000000100000002#64, 0x30#11, 0x40#7)] = true := by decide +kernel

/-- MT_FPCR stores DYN, DIVT/D then rounds toward plus infinity, and MF_FPCR returns it with INE and the summary bit. -/
theorem test_fpcr_dynamic_rounding :
    after (State.runWord (kern.writeFp 1#5 0x0C00000000000000#64) 0x5C210481#32) (fun t => t.fpcr == 0xC0#11) = true ∧
    after (State.runWord (State.writeFp (State.writeFp { kern with fpcr := 0xC0#11 } 1#5 0x3FF0000000000000#64) 2#5
      0x4008000000000000#64) 0x58221C63#32) (fun t => t.readFp 3#5 == 0x3FD5555555555556#64) = true ∧
    after (State.runWord { kern with fpcr := 0xD0#11 } 0x5C2104A1#32)
      (fun t => t.readFp 1#5 == 0x8D00000000000000#64) = true := by decide +kernel

theorem test_branches : branchRows [
    (0xE4200002#32, 0#64, 0x100C#64),
    (0xE4200002#32, 0x100000000#64, 0x1004#64),
    (0xE8200002#32, 0x8000000000000000#64, 0x100C#64),
    (0xF8200002#32, 0#64, 0x100C#64),
    (0xFC200002#32, 0#64, 0x1004#64),
    (0xEFE00002#32, 0#64, 0x100C#64),
    (0xF0200002#32, 0xFFFFFFFFFFFFFFFE#64, 0x1004#64),
    (0xE0200002#32, 0xFFFFFFFFFFFFFFFE#64, 0x100C#64),
    (0xC4200002#32, 0x8000000000000000#64, 0x100C#64),
    (0xC8200002#32, 0x8000000000000000#64, 0x1004#64),
    (0xD8200002#32, 0x8000000000000000#64, 0x100C#64),
    (0xD4200002#32, 1#64, 0x100C#64)] = true := by decide +kernel

theorem test_branch_link :
    after (State.runWord { kern with pc := 0x2000#64 } 0xC0BFFC00#32)
      (fun t => t.readInt 5#5 == 0x2004#64 && t.pc == 0x1004#64) = true ∧
    after (State.runWord { pal with pc := 0x8100#64 } 0xD3400002#32)
      (fun t => t.readInt 26#5 == 0x8105#64 && t.pc == 0x810C#64 && t.palmode) = true := by decide +kernel

/-- The target is read before the link is written, and its low two bits are dropped. -/
theorem test_jumps :
    after (State.runWord (kern.writeInt 27#5 0x4003#64) 0x6BFB0000#32) (fun t => t.pc == 0x4000#64) = true ∧
    after (State.runWord (kern.writeInt 27#5 0x4000#64) 0x6B7B4000#32)
      (fun t => t.pc == 0x4000#64 && t.readInt 27#5 == 0x1004#64) = true ∧
    after (State.runWord (kern.writeInt 26#5 0x1234#64) 0x6BFA8000#32) (fun t => t.pc == 0x1234#64) = true ∧
    after (State.runWord (State.writeInt { kern with pc := 0x2000#64 } 26#5 0x1004#64) 0x6B5AC000#32)
      (fun t => t.pc == 0x1004#64 && t.readInt 26#5 == 0x2004#64) = true := by decide +kernel

theorem test_load_address :
    after (State.runWord data 0x203FFFFF#32) (fun t => t.readInt 1#5 == 0xFFFFFFFFFFFFFFFF#64) = true ∧
    after (State.runWord data 0x20227FFF#32) (fun t => t.readInt 1#5 == 0x9FFF#64) = true ∧
    after (State.runWord data 0x243F8000#32) (fun t => t.readInt 1#5 == 0xFFFFFFFF80000000#64) = true ∧
    after (State.runWord data 0x24220001#32) (fun t => t.readInt 1#5 == 0x12000#64) = true := by decide +kernel

theorem test_integer_loads :
    after (State.runWord data 0xA0220004#32) (fun t => t.readInt 1#5 == 0xFFFFFFFF88776655#64) = true ∧
    after (State.runWord data 0xA4220008#32) (fun t => t.readInt 1#5 == 0xFFEEDDCCBBAA99F0#64) = true ∧
    after (State.runWord data 0x2C220005#32) (fun t => t.readInt 1#5 == 0x8877665544332211#64) = true ∧
    after (State.runWord data 0x2FFF0000#32) (fun t => t.pc == 0x1004#64 && t.busOut == []) = true := by decide +kernel

theorem test_unaligned_load_traps :
    after (State.runWord data 0xA0220002#32) (fun t =>
      entered t 0x300#64 0x1000#64 && t.mbox.va == 0x2002#64 && t.mbox.mmStat == 0x14040#17 && t.readInt 1#5 == 0#64) =
      true := by decide +kernel

theorem test_load_locked :
    after (State.runWord data 0xAC220000#32) (fun t =>
      t.readInt 1#5 == 0x8877665544332211#64 && t.lockFlag && t.lockAddr == 0x2000#40) = true := by decide +kernel

theorem test_integer_stores :
    after (State.runWord (data.writeInt 1#5 0xAAAAAAAA01020304#64) 0xB0220004#32)
      (fun t => seen t 0x2000#40 == 0x0102030444332211#64) = true ∧
    after (State.runWord (data.writeInt 1#5 0x0123456789ABCDEF#64) 0xB4220008#32)
      (fun t => t.byteAt 0x2008#40 == 0xEF#8 && seen t 0x2008#40 == 0x0123456789ABCDEF#64) = true ∧
    after (State.runWord (data.writeInt 1#5 0x0123456789ABCDEF#64) 0x3C22000D#32)
      (fun t => seen t 0x2008#40 == 0x0123456789ABCDEF#64) = true := by decide +kernel

theorem test_store_conditional :
    after (State.runWord (State.writeInt { data with lockFlag := true } 1#5 5#64) 0xBC220000#32)
      (fun t => seen t 0x2000#40 == 5#64 && t.readInt 1#5 == 1#64) = true ∧
    after (State.runWord (data.writeInt 1#5 5#64) 0xBC220000#32)
      (fun t => seen t 0x2000#40 == seen data 0x2000#40 && t.readInt 1#5 == 0#64) = true ∧
    after (State.runWord (State.writeInt { data with lockFlag := true } 1#5 0xFFFFFFFF00000007#64) 0xB8220004#32)
      (fun t => seen t 0x2000#40 == 0x0000000744332211#64 && t.readInt 1#5 == 1#64) = true := by decide +kernel

theorem test_floating_memory :
    after (State.runWord { data with mem := Memory.writeBytes [] 0x2000 0xC0490FDB#64 4 } 0x88220000#32)
      (fun t => t.readFp 1#5 == 0xC00921FB60000000#64) = true ∧
    after (State.runWord (data.writeFp 1#5 0xC00921FB60000000#64) 0x98220000#32)
      (fun t => seen t 0x2000#40 == 0x88776655C0490FDB#64) = true ∧
    after (State.runWord data 0x8C220008#32) (fun t => t.readFp 1#5 == 0xFFEEDDCCBBAA99F0#64) = true ∧
    after (State.runWord data 0x9FE20000#32) (fun t => seen t 0x2000#40 == 0#64) = true := by decide +kernel

/-- FEN comes before any address; an integer load needs no floating point. -/
theorem test_fen :
    after (State.runWord { data with ibox := noFp.ibox } 0x8C220000#32)
      (fun t => entered t 0x580#64 0x1000#64 && !t.mbox.mmLock) = true ∧
    after (State.runWord { data with ibox := noFp.ibox } 0xA4220000#32)
      (fun t => t.readInt 1#5 == 0x8877665544332211#64) = true ∧
    after (State.runWord noFp 0xC4200002#32) (fun t => entered t 0x580#64 0x1000#64) = true := by decide +kernel

theorem test_dtb_miss :
    after (State.runWord (State.writeInt { unmapped with mbox := { unmapped.mbox with mvptbr := 8#34 } } 2#5
      0x12345678#64) 0xA4220000#32) (fun t =>
        entered t 0x200#64 0x1000#64 && t.mbox.va == 0x12345678#64 && t.mbox.mmStat == 0x14850#17 && t.mbox.mmLock &&
          vaFormat false t.mbox.mvptbr t.mbox.va == 0x0000000200048D10#64) = true := by decide +kernel

theorem test_sign_check :
    after (State.runWord (kern.writeInt 2#5 0x0000080000000000#64) 0xA4220000#32) (fun t =>
      entered t 0x380#64 0x1000#64 && t.mbox.mmStat == 0x14862#17) = true := by decide +kernel

theorem test_access_checks :
    after (State.runWord ((mapped ⟨true, 1#30, 0#7, true, 0#2, false, false, 14#4, 15#4, 1#27⟩).writeInt 2#5 0x2000#64)
      0xA4220000#32) (fun t => entered t 0x380#64 0x1000#64 && t.mbox.mmStat == 0x14842#17) = true ∧
    after (State.runWord ((mapped ⟨true, 1#30, 0#7, true, 0#2, true, false, 15#4, 15#4, 1#27⟩).writeInt 2#5 0x2000#64)
      0xA4220000#32) (fun t => entered t 0x380#64 0x1000#64 && t.mbox.mmStat == 0x14844#17) = true ∧
    State.translate (mapped ⟨true, 1#30, 0#7, true, 0#2, false, false, 15#4, 15#4, 5#27⟩)
      (Ref.plain 0x2000#64 true false 1#5 0x29#6) = .ok 0xA000#40 (some 0) ∧
    State.translate superpage (Ref.plain 0xFFFFFC0000002000#64 true false 1#5 0x29#6) = .ok 0x2000#40 none := by
  decide +kernel

theorem test_counter_and_interrupt_flag :
    after (State.runWord { kern with mbox := { kern.mbox with ccHi := 0x1234#32, ccLo := 0x5678#32 } } 0x603FC000#32)
      (fun t => t.readInt 1#5 == 0x0000123400005678#64) = true ∧
    after (State.runWord kern 0x603FF000#32) (fun t => t.readInt 1#5 == 0#64 && t.intrFlag) = true ∧
    after (State.runWord { kern with intrFlag := true } 0x603FE000#32)
      (fun t => t.readInt 1#5 == 1#64 && !t.intrFlag) = true := by decide +kernel

/-- FETCH of an unmapped address has no effect; FETCH_M of a mapped one drives its command with the block address; MB drives MB
when EI_CMD_GRP3 is set; WMB marks the next write-buffer entry. -/
theorem test_fetch_and_barriers :
    after (State.runWord (unmapped.writeInt 2#5 0x2000#64) 0x63E28000#32) (fun t => t.busOut == [] && t.pc == 0x1004#64) =
      true ∧
    after (settled (kern.writeInt 2#5 0x2047#64) 0x63E2A000#32) (fun t => t.busOut == [.fetchM 0x2040#40]) = true ∧
    after (settled { kern with cbox := { kern.cbox with bcControl := 0x8078#29 } } 0x63FF4000#32)
      (fun t => t.busOut == [.memoryBarrier]) = true ∧
    after (State.runWord kern 0x63FF4400#32) (fun t => t == { kern with pc := 0x1004#64, wbFence := true }) = true := by decide +kernel

theorem test_call_pal :
    after (State.runWord kern 0x00000083#32) (fun t => t.pc == 0xB0C0#64 && t.palmode && t.ibox.excAddr == 0x1004#64) =
      true ∧
    after (State.runWord kern 0x0000003F#32) (fun t => t.pc == 0xAFC0#64 && t.palmode) = true ∧
    after (State.runWord { kern with ibox := { kern.ibox with icm := 3#2 } } 0x0000003F#32)
      (fun t => entered t 0x480#64 0x1000#64) = true ∧
    after (State.runWord pal 0x00000183#32) (fun t => entered t 0x480#64 0x1001#64) = true := by decide +kernel

theorem test_hwRei :
    after (State.runWord { pal with ibox := { pal.ibox with excAddr := 0x8201#64 } } 0x7BFF8000#32)
      (fun t => t.pc == 0x8200#64 && t.palmode) = true ∧
    after (State.runWord { pal with ibox := { pal.ibox with excAddr := 0x1004#64 } } 0x7BFFC000#32)
      (fun t => t.pc == 0x1004#64 && !t.palmode) = true ∧
    after (State.runWord kern 0x7BFF8000#32) (fun t => entered t 0x480#64 0x1000#64) = true := by decide +kernel

theorem test_hwMfpr_hwMtpr :
    after (State.runWord { pal with ibox := { pal.ibox with excAddr := 0x1004#64 } } 0x6421010B#32)
      (fun t => t.readInt 1#5 == 0x1004#64) = true ∧
    after (State.runWord (pal.writeInt 1#5 0x2001#64) 0x7421010B#32) (fun t => t.ibox.excAddr == 0x2001#64) = true ∧
    after (State.runWord { pal with mbox := { pal.mbox with va := 0x406008#64, mmLock := true } } 0x64210206#32)
      (fun t => t.readInt 1#5 == 0x406008#64 && !t.mbox.mmLock) = true := by decide +kernel

/-- Physical references are not translated: the DTB of these states maps nothing. -/
theorem test_hwLd_hwSt :
    after (State.runWord { data with palmode := true, dtb := unmapped.dtb } 0x6C229000#32)
      (fun t => t.readInt 1#5 == 0x8877665544332211#64) = true ∧
    after (State.runWord (State.writeInt { data with palmode := true, dtb := unmapped.dtb } 1#5 7#64) 0x7C229008#32)
      (fun t => seen t 0x2008#40 == 7#64) = true := by decide +kernel

/-- One Scache block, index 0 of set 1. -/
def line0 (tag : BitVec 24) (parity : Bool) (x y : ScSub) : ScLine := ⟨1, 0, tag, parity, x, y⟩

/-- In Scache force-hit mode with set 1 enabled: a store that is sent writes data, tag 1 and SC_TAG_STAT, whatever stood there; a
load that is served gives the data of the entry and SC_ADDR shows its tag and status (R242, R247). -/
theorem test_force_hit :
    ((State.sendEntry { pal with
        cbox := { pal.cbox with scCtl := 0x50C1#16 }
        scache := [line0 5#24 false ⟨false, true, true, 3#2, 0#256, 0#8⟩ ⟨false, false, false, 0#2, 0#256, 0#8⟩] }
      ⟨0x400#35, .store, 4#8, 7#256 <<< 64, false, false⟩).2.scache ==
        [line0 1#24 true ⟨true, false, false, 0#2, 7#256 <<< 64, 0#8⟩ ⟨false, false, false, 0#2, 0#256, 0#8⟩]) = true ∧
    after (settled { pal with
        cbox := { pal.cbox with scCtl := 0x50C1#16 }
        scache := [line0 5#24 true ⟨true, false, false, 0#2, 9#256, 0#8⟩ ⟨false, false, true, 2#2, 0#256, 0#8⟩] } 0x6C3F9000#32)
      (fun t => t.readInt 1#5 == 9#64 && t.cbox.scAddr == 0x2C430#64) = true := by decide +kernel

/-- A store and an MB, with set 0 of the Scache alone enabled: the block comes by READ MISS MOD, and is dirty in the Scache with
one octaword modified (R350, R352, R426). -/
theorem test_store_reaches_the_scache :
    after (settled { kern with
        cbox := { kern.cbox with scCtl := 0x3000#16 }
        wb := [⟨0x100#35, .store, 1#8, 7#256, false, false⟩] } 0x63FF4000#32)
      (fun t => t.busOut == [.readMissMod false 0 false 0x2000#40] && t.wb == [] && !t.mbWaits &&
        (t.scFind 0x100#35).map (fun l => (l.sub0.data, l.sub0.dirty, l.sub0.modified)) == some (7#256, true, 1#2)) = true := by
  decide +kernel

/-- An STx_C whose block the Scache has dirty fails all the same if the fill of an older store meets system_lock_flag_h low (R362,
R363). -/
theorem test_older_fill_fails_store_conditional :
    after (settled { kern with
        cbox := { kern.cbox with scCtl := 0x3000#16 }
        scache := [⟨0, 0, 0#24, false, ⟨true, false, true, 0#2, 3#256, 0#8⟩, ⟨false, false, false, 0#2, 0#256, 0#8⟩⟩]
        ints := kern.ints.set 1 1#64
        lockFlag := true
        pins := { kern.pins with systemLockFlag := false }
        wb := [⟨0#35, .cond (.plain 1), 1#8, 7#256, false, false⟩, ⟨0x100#35, .store, 1#8, 7#256, false, false⟩] } 0x63FF4000#32)
      (fun t => t.readInt 1#5 == 0#64 && seen t 0#40 == 3#64 && seen t 0x2000#40 == 7#64 && t.wb == []) = true := by
  decide +kernel

/-- Noncached LDL of quadword 0, LDQ of quadword 1, LDL of quadword 1: the last merges with no older entry, so that it is performed
after the LDQ (R1038 (3)). -/
theorem test_noncached_loads_keep_order :
    (let l (a : PAddr) (quad : Bool) : MafLoad := ⟨a, quad, .int (.plain 1) false⟩
     let s := ((kern.mafPush (l 0x8000000000#40 false) false).mafPush (l 0x8000000008#40 true) false).mafPush
       (l 0x8000000008#40 false) false
     s.maf.map fun e => e.loads.map fun m => (m.pa, m.quad)) =
      [[(0x8000000000#40, false)], [(0x8000000008#40, true)], [(0x8000000008#40, false)]] := by decide +kernel

/-- A WRITE BLOCK for a store to a shared block, and the failure of an STx_C by cfail_h with cack_h (R350, R363). -/
theorem test_shared_store :
    after (settled { kern with
        cbox := { kern.cbox with scCtl := 0xE000#16 }
        scache := [line0 0#24 false ⟨true, true, false, 0#2, 3#256, 0#8⟩ ⟨false, false, false, 0#2, 0#256, 0#8⟩]
        ints := kern.ints.set 1 1#64
        lockFlag := true
        answers := [⟨true, false, true, false, [], [], false⟩]
        wb := [⟨0#35, .cond (.plain 1), 1#8, 7#256, false, false⟩] } 0x63FF4000#32)
      (fun t => t.busOut == [.writeBlock 0#40 [(15#4, 7#128), (15#4, 0#128)]] && t.readInt 1#5 == 0#64 && seen t 0#40 == 3#64) =
      true := by decide +kernel

/-- A noncached load drives READ MISS for its quadword and takes the system's octawords, that of the address first (R325, R427,
R433). -/
theorem test_noncached_load :
    after (settled (State.writeInt { superpage with
        mbox := { superpage.mbox with mafMode := 1#6 }
        answers := [⟨false, false, false, false, [⟨5#128 <<< 64, 0#16, true⟩, ⟨6#128, 0#16, true⟩], [], false⟩] }
        2#5 0xFFFFFC8000000018#64) 0xA4220000#32)
      (fun t => t.busOut == [.readMiss false none false 0x8000000010#40 8#4] && t.readInt 1#5 == 5#64 && t.maf == [] && t.answers == []) =
      true := by decide +kernel

/-- Reserved opcodes trap in PALmode too. -/
theorem test_reserved_opcodes :
    after (State.runWord kern 0x04000000#32) (fun t => entered t 0x480#64 0x1000#64) = true ∧
    after (State.runWord pal 0x70000000#32) (fun t => entered t 0x480#64 0x1001#64) = true := by decide +kernel

/-! ## The step -/

/-- The first step after reset runs BIS R31,#4,R3. -/
theorem test_step_runs_the_placed_word :
    after (step (State.reset.withFetchWord 32 0x47E09403)) (fun t => t.readInt 3#5 == 4#64 && t.pc == 4#64) = true := by
  decide +kernel

theorem test_decodeTableWord : decodeTableWord 32 0x203FFFFF = some (.lda 1#5 31#5 0xFFFF#16) := rfl

/-- irq_h<0> above IPLR interrupts, at or below IPLR or in PALmode it does not (95_test_vectors.md, section 2.9). -/
theorem test_interrupt :
    after (step { kern with pc := 0x1010#64, pins := { kern.pins with irq := 1#4 } }) (fun t =>
      entered t 0x100#64 0x1010#64 && t.intid == 20) = true ∧
    State.interruptPending { kern with
      pins := { kern.pins with irq := 1#4 }, ibox := { kern.ibox with iplr := 20#5 } } = false ∧
    after (step (State.withFetchWord { pal with pins := { pal.pins with irq := 8#4 } } 32 0x47E09403))
      (fun t => t.pc == 0x1004#64) = true := by
  decide +kernel

/-- A software request at level 5 above IPLR 4 (R122, R731). -/
theorem test_software_interrupt :
    after (step { kern with ibox := { kern.ibox with sirr := 0x10#15, iplr := 4#5 } }) (fun t =>
      entered t 0x100#64 0x1000#64 && t.intid == 5) = true := by decide +kernel

theorem test_itb_miss :
    after (step { kern with pc := 0x402000#64, ibox := { kern.ibox with ivptbr := 8#34 } }) (fun t =>
      entered t 0x180#64 0x402000#64 && t.ibox.itbTag == 0x201#30 && t.ibox.ifaultVaForm == 0x0000000200001008#64) =
      true ∧
    after (step { kern with pc := 0x0000080000000000#64, ibox := { kern.ibox with ifaultVaForm := 7#64 } }) (fun t =>
      entered t 0x080#64 0x0000080000000000#64 && t.ibox.ifaultVaForm == 7#64) = true := by decide +kernel

theorem test_fill_error :
    after (step { kern with inputs := [.fillError] }) (fun t => entered t 0x400#64 0x1000#64 && t.inputs == []) = true := by
  decide +kernel

/-- INVALIDATE of the locked block clears the lock flag (R361). -/
theorem test_invalidate_clears_lock :
    after (step { kern with inputs := [.command 2#4 0x2010#40 false], lockFlag := true, lockAddr := 0x2000#40 })
      (fun t => !t.lockFlag) = true := by decide +kernel

/-- A cycle with bad address parity is a hard error and NOACK (R475, R912). -/
theorem test_command_parity :
    after (step { kern with
      inputs := [.command 2#4 0x2010#40 true]
      lockFlag := true, lockAddr := 0x2000#40
      cbox := { kern.cbox with bcControl := 0x70#29 } })
      (fun t => entered t 0x400#64 0x1000#64 && t.lockFlag && t.cbox.eiStat == 0x24#8 && t.cbox.eiAddr == 0x201#36 &&
        t.busOut == [.response .noack none []]) = true := by decide +kernel

/-- cfail_h without cack_h: TMR, the pulse on test_status_h<1>, MCHK (R918, R975, R976). -/
theorem test_cfail :
    after (step { kern with inputs := [.cfail] }) (fun t =>
      entered t 0x400#64 0x1000#64 && t.ibox.icperrStat == 4#3 && t.testStatusPins.getLsbD 1) = true ∧
    kern.testStatusPins.getLsbD 1 = false := by decide +kernel

/-- Tables 4-11 and 4-15. -/
theorem test_answers :
    answerOf false ⟨true, false, false, false⟩ .invalidate = .ackScache ∧
    answerOf true ⟨true, false, true, false⟩ .setShared = .ackBcache ∧
    answerOf false ⟨true, false, false, false⟩ .readDirty = .noack ∧
    answerOf true ⟨true, false, true, false⟩ .readDirtyInv = .ackBcache ∧
    answerOf true ⟨true, true, true, false⟩ .readDirty = .ackScache ∧
    answerOf true ⟨false, false, true, true⟩ .flush = .ackBcache ∧
    answerOf true ⟨true, false, true, false⟩ .read = .noack := by decide

/-- Table 5-36: the syndromes of the data bits, in order. -/
theorem test_bit_syndromes :
    (List.range 64).map bitSyndrome =
      [0xCE#8, 0xCB#8, 0xD3#8, 0xD5#8, 0xD6#8, 0xD9#8, 0xDA#8, 0xDC#8, 0x23#8, 0x25#8, 0x26#8, 0x29#8, 0x2A#8, 0x2C#8,
       0x31#8, 0x34#8, 0x0E#8, 0x0B#8, 0x13#8, 0x15#8, 0x16#8, 0x19#8, 0x1A#8, 0x1C#8, 0xE3#8, 0xE5#8, 0xE6#8, 0xE9#8,
       0xEA#8, 0xEC#8, 0xF1#8, 0xF4#8, 0x4F#8, 0x4A#8, 0x52#8, 0x54#8, 0x57#8, 0x58#8, 0x5B#8, 0x5D#8, 0xA2#8, 0xA4#8,
       0xA7#8, 0xA8#8, 0xAB#8, 0xAD#8, 0xB0#8, 0xB5#8, 0x8F#8, 0x8A#8, 0x92#8, 0x94#8, 0x97#8, 0x98#8, 0x9B#8, 0x9D#8,
       0x62#8, 0x64#8, 0x67#8, 0x68#8, 0x6B#8, 0x6D#8, 0x70#8, 0x75#8] := by decide +kernel

/-- The all-zeros and all-ones checks of R257; a data bit and a check bit corrected. -/
theorem test_ecc :
    eccSyndrome 0#64 0#8 = 0x0C#8 ∧ eccCorrect 0#64 0#8 = none ∧ eccSyndrome (~~~0#64) 0xFF#8 = 0xF3#8 ∧
    eccCorrect (~~~0#64) 0xFF#8 = none ∧ eccCorrect 0x10#64 0x0C#8 = some 0#64 ∧ eccCorrect 0#64 0x4C#8 = some 0#64 := by
  decide +kernel

/-- A single-bit error in an octaword of a fill from memory is corrected, recorded and requests the interrupt (R914), unless
CORR_FILL_DAT is set (R248); in parity mode it is a hard error that names the byte (R256, R259). -/
theorem test_fill_data :
    (let s : State := { kern with cbox := { kern.cbox with bcControl := 0x60#29 } }
     let t := s.checkBeat true false 0x2000#40 ⟨0x100#128, 0x0C0C#16, false⟩
     t.cbox.eiStat == 0x0C#8 && t.cbox.fillSyn == 0x0023#16 && t.cbox.eiAddr == 0x200#36 && t.ibox.crdReq && !t.mchkPending) =
      true ∧
    correctBeat true ⟨0x100#128, 0x0C0C#16, false⟩ = 0#128 ∧
    (let s : State := { kern with cbox := { kern.cbox with bcControl := 0x70#29 } }
     s.checkBeat true false 0x2000#40 ⟨0x100#128, 0x0C0C#16, false⟩ == s) = true ∧
    (let s : State := { kern with cbox := { kern.cbox with bcControl := 0x30#29 } }
     let t := s.checkBeat true false 0x2000#40 ⟨0x100#128, 0#16, false⟩
     t.cbox.eiStat == 0x14#8 && t.cbox.fillSyn == 2#16 && t.mchkPending) = true := by decide +kernel

/-! ## The serial ROM vectors of R967 -/

/-- Four NOPs: bytes 00000040C0FF0FC0…, byte 0 first. -/
def sromNops : BitVec 200 := 0x303fffff003003ffccccccc0fffffc00c00fffc040000000#200

/-- MB; HW_MTPR R31,IC_FLUSH_CTL; NOP; NOP. -/
def sromFlush : BitVec 200 := 0x303fffff003003ffcce6a0f8bffffc40080a0bc040000000#200

theorem test_srom_vectors :
    (List.range 4).map (sromInsn sromNops) = List.replicate 4 0x47FF041F#32 ∧ sromVectorOk sromNops = true ∧
    (List.range 4).map (sromInsn sromFlush) = [0x63FF4000#32, 0x77FF0119#32, 0x47FF041F#32, 0x47FF041F#32] ∧
    sromVectorOk sromFlush = true := by decide +kernel

/-! ## Witnesses: states and operands that meet the hypotheses of the statements

One theorem per statement that has hypotheses, with a boundary value for each clause. The statements without a witness here
(AddSubtract, CompareMultiply, LogicalShift, ByteCompareZap, ByteManipulation, LoadAddress, FloatMemoryForms, ResetState,
ResetInvariant, DecodeWords) have no hypothesis on the state or the operands. -/

/-- A reference reaches `a` by this translation. -/
def reachesVia (s : State) (r : Ref) (a pa : PAddr) (hit : Option (Fin 64)) : Bool :=
  s.translate r == .ok pa hit && s.accessAddress r.quad pa == a && regionOf a == .memory && s.orderKept r.write

theorem reaches_of_via {s : State} {r : Ref} {a : PAddr} (pa : PAddr) (hit : Option (Fin 64))
    (h : reachesVia s r a pa hit = true) : s.reaches r a := by
  unfold reachesVia at h
  simp only [Bool.and_eq_true, beq_iff_eq] at h
  obtain ⟨⟨⟨h1, h2⟩, h3⟩, h4⟩ := h
  exact ⟨pa, hit, h1, h2, h3, h4⟩

theorem plainly_of_via {s : State} {r : Ref} {a : PAddr} (pa : PAddr) (hit : Option (Fin 64))
    (h : (reachesVia s r a pa hit && s.dcLook false r.quad r.write a == s.dcLook true r.quad r.write a &&
      (s.dcLook false r.quad r.write a).errors == 0#4 && !s.dcFhit) = true) : s.reachesPlainly r a := by
  simp only [Bool.and_eq_true, beq_iff_eq, Bool.not_eq_true'] at h
  exact ⟨reaches_of_via pa hit h.1.1.1, h.1.1.2, h.1.2, h.2⟩

/-- A reference reaches the noncached region at `a` by this translation. -/
theorem reachesDevice_of_via {s : State} {r : Ref} {a : PAddr} (pa : PAddr) (hit : Option (Fin 64))
    (h : (s.translate r == .ok pa hit && s.accessAddress r.quad pa == a && regionOf a == .noncached &&
      s.orderKept r.write) = true) : s.reachesDevice r a := by
  simp only [Bool.and_eq_true, beq_iff_eq] at h
  exact ⟨pa, hit, h.1.1.1, h.1.1.2, h.1.2, h.2⟩

/-- `superpage` with the Dcache enabled and in force-hit mode. -/
def forced : State := { superpage with mbox := { superpage.mbox with dcMode := 11#4 } }

/-- A noncached load of R1 that idle_bc_h holds back. -/
def waiting : State := { kern with
  pins := { kern.pins with idleBc := true }
  maf := [⟨0x400000000#35, [⟨0x8000000000#40, true, .int (.plain 1) false⟩], false, false⟩] }

/-- The state whose R2 holds a value. -/
def withR2 (s : State) (v : Word) : State := s.writeInt 2#5 v

/-- The least and the greatest sums that fit (ADDQ/V, ADDL/V), and the nearest results that do not (SUBQ/V, ADDQ/V, MULL/V). -/
theorem witness_OverflowForms :
    -(2 ^ 63) ≤ (0x8000000000000000#64 : Word).toInt + (0#64 : Word).toInt ∧
      (0x7FFFFFFFFFFFFFFE#64 : Word).toInt + (1#64 : Word).toInt < 2 ^ 63 ∧
      ((0x7FFFFFFE#64 : Word).setWidth 32).toInt + ((1#64 : Word).setWidth 32).toInt < 2 ^ 31 ∧
      (0x8000000000000000#64 : Word).toInt - (1#64 : Word).toInt < -(2 ^ 63) ∧
      2 ^ 63 ≤ (0x7FFFFFFFFFFFFFFF#64 : Word).toInt + (1#64 : Word).toInt ∧
      2 ^ 31 ≤ ((0x10000#64 : Word).setWidth 32).toInt * ((0x8000#64 : Word).setWidth 32).toInt := by decide

/-- Each condition, true and false, next to zero. -/
theorem witness_ConditionalMoves :
    (0#64 : Word).toInt = 0 ∧ (1#64 : Word).toInt ≠ 0 ∧ (0xFFFFFFFFFFFFFFFF#64 : Word).toInt < 0 ∧ 0 ≤ (0#64 : Word).toInt ∧
      (0#64 : Word).toInt ≤ 0 ∧ 0 < (1#64 : Word).toInt ∧ (1#64 : Word).toNat % 2 = 1 ∧ (2#64 : Word).toNat % 2 = 0 ∧
      ¬ (0#64 : Word).toInt < 0 ∧ ¬ (0#64 : Word).toInt ≠ 0 ∧ ¬ 0 < (0#64 : Word).toInt := by decide

/-- An aligned PC, floating point enabled, a zero operand; the other sides of the conditions are in test_branches. -/
theorem witness_ConditionalBranches_UnconditionalJumps :
    kern.pc &&& 3#64 = 0#64 ∧ kern.fpe = true ∧ (kern.readInt 31#5).toInt = 0 ∧ ((kern.readFp 31#5).extractLsb' 0 63 = 0#63) := by decide +kernel

/-- The lowest and the highest longword and quadword of the memory-like region; LDQ_U at an unaligned address. -/
theorem witness_IntegerLoads :
    (withR2 superpage 0xFFFFFC0000000000#64).reachesPlainly ⟨(withR2 superpage 0xFFFFFC0000000000#64).readInt 2#5 + (0#16).signExtend 64, false, false, true, false, false, false, false, 1#5, 0x28#6⟩ 0x0000000000#40 ∧
    (withR2 superpage 0xFFFFFC7FFFFFFFFC#64).reachesPlainly ⟨(withR2 superpage 0xFFFFFC7FFFFFFFFC#64).readInt 2#5 + (0#16).signExtend 64, false, false, true, false, false, false, false, 1#5, 0x28#6⟩ 0x7FFFFFFFFC#40 ∧
    (withR2 superpage 0xFFFFFC7FFFFFFFF8#64).reachesPlainly ⟨(withR2 superpage 0xFFFFFC7FFFFFFFF8#64).readInt 2#5 + (0#16).signExtend 64, true, false, true, false, false, false, false, 1#5, 0x29#6⟩ 0x7FFFFFFFF8#40 ∧
    (withR2 superpage 0xFFFFFC7FFFFFFFFF#64).reachesPlainly ⟨(withR2 superpage 0xFFFFFC7FFFFFFFFF#64).readInt 2#5 + (0#16).signExtend 64, true, false, false, false, false, false, false, 1#5, 0x0B#6⟩ 0x7FFFFFFFF8#40 := 
  ⟨plainly_of_via 0x0000000000#40 none (by decide +kernel),
    plainly_of_via 0x7FFFFFFFFC#40 none (by decide +kernel),
    plainly_of_via 0x7FFFFFFFF8#40 none (by decide +kernel),
    plainly_of_via 0x7FFFFFFFFF#40 none (by decide +kernel)⟩

theorem witness_FloatLoads :
    (superpage.fpe = true) ∧
    (withR2 superpage 0xFFFFFC7FFFFFFFFC#64).reachesPlainly ⟨(withR2 superpage 0xFFFFFC7FFFFFFFFC#64).readInt 2#5 + (0#16).signExtend 64, false, false, true, false, false, false, false, 1#5, 0x20#6⟩ 0x7FFFFFFFFC#40 ∧
    (withR2 superpage 0xFFFFFC7FFFFFFFF8#64).reachesPlainly ⟨(withR2 superpage 0xFFFFFC7FFFFFFFF8#64).readInt 2#5 + (0#16).signExtend 64, true, false, true, false, false, false, false, 1#5, 0x21#6⟩ 0x7FFFFFFFF8#40 ∧
    (withR2 superpage 0xFFFFFC0000000000#64).reachesPlainly ⟨(withR2 superpage 0xFFFFFC0000000000#64).readInt 2#5 + (0#16).signExtend 64, false, false, true, false, false, false, false, 1#5, 0x22#6⟩ 0x0000000000#40 ∧
    (withR2 superpage 0xFFFFFC0000000000#64).reachesPlainly ⟨(withR2 superpage 0xFFFFFC0000000000#64).readInt 2#5 + (0#16).signExtend 64, true, false, true, false, false, false, false, 1#5, 0x23#6⟩ 0x0000000000#40 := 
  ⟨by decide +kernel,
    plainly_of_via 0x7FFFFFFFFC#40 none (by decide +kernel),
    plainly_of_via 0x7FFFFFFFF8#40 none (by decide +kernel),
    plainly_of_via 0x0000000000#40 none (by decide +kernel),
    plainly_of_via 0x0000000000#40 none (by decide +kernel)⟩

/-- The highest addresses, and the lowest. -/
theorem witness_IntegerStores :
    (withR2 superpage 0xFFFFFC7FFFFFFFFC#64).reachesPlainly ⟨(withR2 superpage 0xFFFFFC7FFFFFFFFC#64).readInt 2#5 + (0#16).signExtend 64, false, true, true, false, false, false, false, 1#5, 0x2C#6⟩ 0x7FFFFFFFFC#40 ∧
    (withR2 superpage 0xFFFFFC7FFFFFFFF8#64).reachesPlainly ⟨(withR2 superpage 0xFFFFFC7FFFFFFFF8#64).readInt 2#5 + (0#16).signExtend 64, true, true, true, false, false, false, false, 1#5, 0x2D#6⟩ 0x7FFFFFFFF8#40 ∧
    (withR2 superpage 0xFFFFFC7FFFFFFFFF#64).reachesPlainly ⟨(withR2 superpage 0xFFFFFC7FFFFFFFFF#64).readInt 2#5 + (0#16).signExtend 64, true, true, false, false, false, false, false, 1#5, 0x0F#6⟩ 0x7FFFFFFFF8#40 ∧
    (withR2 superpage 0xFFFFFC0000000000#64).reachesPlainly ⟨(withR2 superpage 0xFFFFFC0000000000#64).readInt 2#5 + (0#16).signExtend 64, true, true, true, false, false, false, false, 1#5, 0x2D#6⟩ 0x0000000000#40 := 
  ⟨plainly_of_via 0x7FFFFFFFFC#40 none (by decide +kernel),
    plainly_of_via 0x7FFFFFFFF8#40 none (by decide +kernel),
    plainly_of_via 0x7FFFFFFFFF#40 none (by decide +kernel),
    plainly_of_via 0x0000000000#40 none (by decide +kernel)⟩

theorem witness_FloatStores :
    (superpage.fpe = true) ∧
    (withR2 superpage 0xFFFFFC7FFFFFFFFC#64).reachesPlainly ⟨(withR2 superpage 0xFFFFFC7FFFFFFFFC#64).readInt 2#5 + (0#16).signExtend 64, false, true, true, false, false, false, false, 1#5, 0x24#6⟩ 0x7FFFFFFFFC#40 ∧
    (withR2 superpage 0xFFFFFC7FFFFFFFF8#64).reachesPlainly ⟨(withR2 superpage 0xFFFFFC7FFFFFFFF8#64).readInt 2#5 + (0#16).signExtend 64, true, true, true, false, false, false, false, 1#5, 0x25#6⟩ 0x7FFFFFFFF8#40 ∧
    (withR2 superpage 0xFFFFFC0000000000#64).reachesPlainly ⟨(withR2 superpage 0xFFFFFC0000000000#64).readInt 2#5 + (0#16).signExtend 64, false, true, true, false, false, false, false, 1#5, 0x26#6⟩ 0x0000000000#40 ∧
    (withR2 superpage 0xFFFFFC0000000000#64).reachesPlainly ⟨(withR2 superpage 0xFFFFFC0000000000#64).readInt 2#5 + (0#16).signExtend 64, true, true, true, false, false, false, false, 1#5, 0x27#6⟩ 0x0000000000#40 := 
  ⟨by decide +kernel,
    plainly_of_via 0x7FFFFFFFFC#40 none (by decide +kernel),
    plainly_of_via 0x7FFFFFFFF8#40 none (by decide +kernel),
    plainly_of_via 0x0000000000#40 none (by decide +kernel),
    plainly_of_via 0x0000000000#40 none (by decide +kernel)⟩

/-- With the Dcache disabled. -/
theorem witness_LoadLocked :
    (superpage.mbox.dcMode.extractLsb' 0 2 ≠ 3#2) ∧
    (withR2 superpage 0xFFFFFC7FFFFFFFFC#64).reaches ⟨(withR2 superpage 0xFFFFFC7FFFFFFFFC#64).readInt 2#5 + (0#16).signExtend 64, false, false, true, false, false, false, false, 1#5, 0x2A#6⟩ 0x7FFFFFFFFC#40 ∧
    (withR2 superpage 0xFFFFFC7FFFFFFFF8#64).reaches ⟨(withR2 superpage 0xFFFFFC7FFFFFFFF8#64).readInt 2#5 + (0#16).signExtend 64, true, false, true, false, false, false, false, 1#5, 0x2B#6⟩ 0x7FFFFFFFF8#40 := 
  ⟨by decide +kernel,
    reaches_of_via 0x7FFFFFFFFC#40 none (by decide +kernel),
    reaches_of_via 0x7FFFFFFFF8#40 none (by decide +kernel)⟩

/-- Outside the force-hit modes, with the lock flag clear. -/
theorem witness_StoreConditional :
    (superpage.lockFlag = false ∧ superpage.scFhit = false ∧ superpage.bcFhit = false) ∧
    (withR2 superpage 0xFFFFFC7FFFFFFFFC#64).reaches ⟨(withR2 superpage 0xFFFFFC7FFFFFFFFC#64).readInt 2#5 + (0#16).signExtend 64, false, true, true, false, false, false, false, 1#5, 0x2E#6⟩ 0x7FFFFFFFFC#40 ∧
    (withR2 superpage 0xFFFFFC7FFFFFFFF8#64).reaches ⟨(withR2 superpage 0xFFFFFC7FFFFFFFF8#64).readInt 2#5 + (0#16).signExtend 64, true, true, true, false, false, false, false, 1#5, 0x2F#6⟩ 0x7FFFFFFFF8#40 := 
  ⟨by decide +kernel,
    reaches_of_via 0x7FFFFFFFFC#40 none (by decide +kernel),
    reaches_of_via 0x7FFFFFFFF8#40 none (by decide +kernel)⟩

theorem witness_StoreConditional_locked_or_forced :
    State.reaches { superpage with lockFlag := true } (Ref.plain 0xFFFFFC0000000000#64 true true 1#5 0x2F#6) 0#40 ∧
    State.reaches { superpage with cbox := { superpage.cbox with scCtl := 0x3001#16 } }
      (Ref.plain 0xFFFFFC0000000000#64 true true 1#5 0x2F#6) 0#40 ∧
    State.scFhit { superpage with cbox := { superpage.cbox with scCtl := 0x3001#16 } } = true ∧
    State.bcFhit { superpage with cbox := { superpage.cbox with bcControl := 0x80F1#29 } } = true := 
  ⟨reaches_of_via 0#40 none (by decide +kernel), reaches_of_via 0#40 none (by decide +kernel), by decide, by decide⟩

/-- The sign check, an unaligned store, a miss, and a miss with VA and MM_STAT locked. -/
theorem witness_DstreamExceptions :
    kern.translate (Ref.plain 0x0000080000000000#64 true false 1#5 0x29#6) = .except .dfault 0x22#6 ∧
    kern.translate (Ref.plain 0x2002#64 false true 1#5 0x2C#6) = .except .unalign 1#6 ∧
    unmapped.translate (Ref.unaligned 0x2001#64 false 1#5 0x0B#6) = .except .dtbMissSingle 0x10#6 ∧
    kern.fpe = true ∧ kern.mbox.mmLock = false ∧
    State.translate { unmapped with mbox := { unmapped.mbox with mmLock := true } }
      (Ref.plain 0x2000#64 true true 1#5 0x27#6) = .except .dtbMissSingle 0x11#6 := by decide +kernel

/-- The first and last addresses inside and outside the sign check, both superpages, both kinds of checking mode, both byte orders. No entry; one entry with the largest granularity hint at the last quadword it covers, aligned and not; one entry by ASN that refuses everything. -/
theorem witness_TranslateDstream :
    (0xFFFFFC0000000000#64 : Word).toInt = -(2 ^ 42) ∧ (0xFFFFFBFFFFFFFFFF#64 : Word).toInt < -(2 ^ 42) ∧
    (0x3FFFFFFFFFF#64 : Word).toInt < 2 ^ 42 ∧ 2 ^ 42 ≤ (0x40000000000#64 : Word).toInt ∧
    superpage.mbox.mcsr.getLsbD 2 = true ∧ (0xFFFFFC0000000000#64 : Word).extractLsb' 41 2 = 2#2 ∧
    superpage.mbox.mcsr.getLsbD 1 = true ∧ (0xFFFFFFFFBFFFFFFF#64 : Word).extractLsb' 30 13 = 0x1FFE#13 ∧
    (0xFFFFFFFFBFFFFFFF#64 : Word).extractLsb' 41 2 ≠ 2#2 ∧ (0xFFFFFFFF80000001#64 : Word).toNat % 4 ≠ 0 ∧
    superpage.checkMode (Ref.plain 0#64 true false 1#5 0x29#6) = 0#2 ∧
    State.checkMode { superpage with mbox := { superpage.mbox with dtbCm := 3#2 } } (Ref.plain 0#64 true false 1#5 0x29#6)
      ≠ 0#2 ∧
    superpage.mbigEndian = false ∧
    State.mbigEndian { superpage with mbox := { superpage.mbox with mcsr := 7#6 } } = true ∧
    (∀ j : Fin 64, unmapped.dtb.entries[j].valid = false) ∧
    (let e := kern.dtb.entries[(0 : Fin 64)]
     e.valid = true ∧ e.tag.toNat / 8 ^ e.gh.toNat = (0x3FFFF8#64 : Word).toNat / 8192 % 2 ^ 30 / 8 ^ e.gh.toNat ∧
       e.asm = true ∧ e.re.getLsbD 0 = true ∧ e.we.getLsbD 0 = true ∧ e.faultRd = false ∧ e.faultWr = false) ∧
    (∀ j : Fin 64, j ≠ 0 → kern.dtb.entries[j].valid = false) ∧
    kern.mbox.mcsr.getLsbD 2 = false ∧ kern.mbox.mcsr.getLsbD 1 = false ∧ (0x3FFFF8#64 : Word).toNat % 8 = 0 ∧
    (0x3FFFFC#64 : Word).toNat % 8 ≠ 0 ∧
    (mapped ⟨true, 1#30, 0#7, false, 0#2, true, true, 14#4, 14#4, 1#27⟩).dtb.entries[(0 : Fin 64)].asn =
      (mapped ⟨true, 1#30, 0#7, false, 0#2, true, true, 14#4, 14#4, 1#27⟩).mbox.dtbAsn := by decide +kernel

/-- Not in force-hit mode: the first quadword of the noncached region, LDQ_U of its last byte, the last longword, a store-conditional of the last quadword, and physical accesses at both ends. -/
theorem witness_NoncachedAccesses :
    superpage.fpe = true ∧ pal.palmode = true ∧ superpage.mbox.dcMode.extractLsb' 0 2 ≠ 3#2 ∧
    State.reachesDevice (withR2 superpage 0xFFFFFC8000000000#64) ⟨(withR2 superpage 0xFFFFFC8000000000#64).readInt 2#5 + (0#16).signExtend 64, true, false, true, false, false, false, false, 1#5, 0x29#6⟩ 0x8000000000#40 ∧
    State.reachesDevice (withR2 superpage 0xFFFFFC8000000007#64) ⟨(withR2 superpage 0xFFFFFC8000000007#64).readInt 2#5 + (0#16).signExtend 64, true, false, false, false, false, false, false, 1#5, 0x0B#6⟩ 0x8000000000#40 ∧
    State.reachesDevice (withR2 superpage 0xFFFFFCFFFFEFFFFC#64) ⟨(withR2 superpage 0xFFFFFCFFFFEFFFFC#64).readInt 2#5 + (0#16).signExtend 64, false, true, true, false, false, false, false, 1#5, 0x2C#6⟩ 0xFFFFEFFFFC#40 ∧
    State.reachesDevice (withR2 superpage 0xFFFFFCFFFFEFFFF8#64) ⟨(withR2 superpage 0xFFFFFCFFFFEFFFF8#64).readInt 2#5 + (0#16).signExtend 64, true, true, true, false, false, false, false, 1#5, 0x2F#6⟩ 0xFFFFEFFFF8#40 ∧
    State.reachesDevice (withR2 pal 0x8000000000#64) ⟨(withR2 pal 0x8000000000#64).readInt 2#5 + (0#10).signExtend 64, true, false, false, true, false, false, false, 1#5, 0x1B#6⟩ 0x8000000000#40 ∧
    State.reachesDevice (withR2 pal 0xFFFFEFFFFC#64) ⟨(withR2 pal 0xFFFFEFFFFC#64).readInt 2#5 + (0#10).signExtend 64, false, true, false, true, false, false, false, 1#5, 0x1F#6⟩ 0xFFFFEFFFFC#40 := 
  ⟨by decide +kernel, rfl, by decide +kernel,
    reachesDevice_of_via 0x8000000000#40 none (by decide +kernel),
    reachesDevice_of_via 0x8000000007#40 none (by decide +kernel),
    reachesDevice_of_via 0xFFFFEFFFFC#40 none (by decide +kernel),
    reachesDevice_of_via 0xFFFFEFFFF8#40 none (by decide +kernel),
    reachesDevice_of_via 0x8000000000#40 none (by decide +kernel),
    reachesDevice_of_via 0xFFFFEFFFFC#40 none (by decide +kernel)⟩

/-- In force-hit mode, both regions, with right parity in both banks. -/
theorem witness_NoncachedAccesses_forced :
    forced.fpe = true ∧ forced.mbox.dcMode.extractLsb' 0 2 = 3#2 ∧
    State.reachesDevice forced (Ref.plain 0xFFFFFC8000000000#64 true false 1#5 0x29#6) 0x8000000000#40 ∧
    State.reaches forced (Ref.plain 0xFFFFFC7FFFFFFFFC#64 false true 1#5 0x2C#6) 0x7FFFFFFFFC#40 ∧
    (∀ bank1, (forced.dcLook bank1 true false 0x8000000000#40).errors = 0#4) ∧
    ∀ bank1, (forced.dcLook bank1 false true 0x7FFFFFFFFC#40).errors = 0#4 := 
  ⟨by decide +kernel, by decide +kernel, reachesDevice_of_via 0x8000000000#40 none (by decide +kernel),
    reaches_of_via 0x7FFFFFFFFC#40 none (by decide +kernel), by decide +kernel, by decide +kernel⟩

/-- Entries at both ends of the noncached bit; nothing outstanding; the lock flag clear and set. -/
theorem witness_EntriesSent :
    (∃ e : WbEntry, e.block = 0x400000000#35 ∧ e.kind = .store ∧ e.block.getLsbD 34 = true ∧ State.wb { kern with wb := [e] } = [] ++ [e]) ∧
    (∃ e : WbEntry, e.block = 0x3FFFFFFFF#35 ∧ e.block.getLsbD 34 = false ∧ e.kind = .cond (.plain 1) ∧ e.mask ≠ 0#8) ∧
    kern.mbox.mafMode.getLsbD 5 = false ∧ (0x20#6 : BitVec 6).getLsbD 5 = true ∧
    kern.pins.idleBc = false ∧ kern.miss0 = none ∧ kern.miss1 = none ∧ kern.answers = [] ∧ kern.before = [] ∧ kern.scFhit = false ∧
    kern.lockFlag = false ∧ State.lockFlag { kern with lockFlag := true } = true := 
  ⟨⟨⟨0x400000000#35, .store, 1#8, 7#256, false, false⟩, rfl, rfl, rfl, rfl⟩,
    ⟨⟨0x3FFFFFFFF#35, .cond (.plain 1), 1#8, 7#256, false, false⟩, rfl, rfl, rfl, by decide⟩, rfl, rfl, rfl, rfl, rfl, rfl, rfl, rfl, rfl, rfl⟩

/-- A private dirty and a shared clean block, and one the Scache lacks; an empty Scache; both command groups. -/
theorem witness_EntriesSent_LoadsServed_blocks :
    (let s : State := { kern with
       scache := [line0 0xFFFFFF#24 false ⟨true, false, true, 0#2, 3#256, 0#8⟩ ⟨true, true, false, 0#2, 4#256, 0#8⟩] }
     (∃ l, s.scFind 0x3FFFFFC00#35 = some l ∧ (l.sub 0x3FFFFFC00#35).shared = false ∧ (l.sub 0x3FFFFFC00#35).dirty = true ∧
       (l.sub 0x3FFFFFC00#35).bad = 0#8) ∧
     (∃ l, s.scFind 0x3FFFFFC01#35 = some l ∧ (l.sub 0x3FFFFFC01#35).shared = true ∧ (l.sub 0x3FFFFFC01#35).dirty = false ∧
       (l.sub 0x3FFFFFC01#35).bad = 0#8) ∧ s.scTagErrors 0x3FFFFFC00#35 = 0#3 ∧ s.victims.length < 2 ∧
     (∀ g ∈ s.blockGranules 0x3FFFFFC00#35, s.scBadData g = 0#8) ∧
     s.scFind 0x3FFFFF400#35 = none ∧ s.scTagErrors 0x3FFFFF400#35 = 0#3) ∧
    kern.bcEnabled = false ∧ kern.victims = [] ∧ kern.cbox.scCtl.extractLsb' 13 3 ≠ 0#3 ∧ kern.scForcedBad = 0#8 ∧
    (∀ way, kern.scRoomDirty way 0x100#35 = false) ∧ kern.scFind 0x100#35 = none ∧
    kern.eiCmdGrp2 = false ∧ State.eiCmdGrp2 { kern with cbox := { kern.cbox with bcControl := 0x8074#29 } } = true := 
  ⟨⟨⟨_, rfl, rfl, rfl, rfl⟩, ⟨_, rfl, rfl, rfl, rfl⟩, by decide +kernel, by decide,
      List.forall_mem_cons.2 ⟨rfl, List.forall_mem_cons.2 ⟨rfl, fun _ h => nomatch h⟩⟩, by decide +kernel, by decide +kernel⟩, rfl, rfl, by decide,
    by decide, fun _ => rfl, rfl, rfl, rfl⟩

/-- The noncached and the memory-like region, an entry that waits in the write buffer for the same block, fills outstanding in both miss registers. -/
theorem witness_LoadsServed :
    (let l : MafLoad := ⟨0x8000000008#40, true, .int (.plain 1) false⟩
     let e : MafEntry := ⟨granule l.pa, [l], false, false⟩
     let m : MafLoad := ⟨0x7FFFFFFFF8#40, true, .int (.plain 1) false⟩
     let s : State := { kern with miss1 := some ⟨l.pa, .load e, 0⟩, miss0 := some ⟨m.pa, .prefetch, 2⟩ }
     e.loads = l :: [] ∧ l.pa.getLsbD 39 = true ∧ m.pa.getLsbD 39 = false ∧ regionOf l.pa = .noncached ∧ regionOf m.pa = .memory ∧
     kern.wbHolds e.block = false ∧ s.missOf true = some ⟨l.pa, .load e, 0⟩ ∧ s.missOf false = some ⟨m.pa, .prefetch, 2⟩ ∧
     s.scWayOn 2 = true) ∧
    (let s : State := { kern with wb := [⟨0x400000000#35, .fetch, 0#8, 0#256, false, false⟩] }
     s.wbHolds 0x400000000#35 = true ∧ (s.drainFor 0x400000000#35).wbHolds 0x400000000#35 = false) ∧
    kern.drainOne = kern ∧ (∀ a ∈ kern.answers, a.later = false) ∧
    kern.mbox.mafMode.getLsbD 5 = false ∧ kern.pins.idleBc = false ∧ kern.before = [] ∧ kern.scFhit = false := 
  ⟨⟨rfl, by decide, by decide, rfl, rfl, rfl, rfl, rfl, by decide⟩, ⟨rfl, by decide +kernel⟩, rfl, by decide, rfl, rfl, rfl, rfl⟩

theorem witness_DisabledInstructions :
    noFp.ibox.icsr.getLsbD 26 = false ∧
    (0x6C000000#32 : Longword).extractLsb' 26 6 ∈ [0x19#6, 0x1B#6, 0x1D#6, 0x1E#6, 0x1F#6] ∧
    ¬ (kern.palmode = true ∨ kern.ibox.icsr.getLsbD 27 = true ∧ kern.ibox.icm = 0#2) := by decide +kernel

theorem witness_IeeeCompletes :
    kern.fpe = true ∧ (0x0A0#11, Instr.addt) ∈ fltiTable ∧
    (ieeeCode 0x0A0#11 kern.fpControl 0x3FF0000000000000#64 0x3FF0000000000000#64).sum = 0#6 := 
  ⟨by decide +kernel, by unfold fltiTable; simp [fltiAddt], by decide +kernel⟩

theorem witness_VaxCompletes :
    kern.fpe = true ∧ (0x0A0#11, Instr.addg) ∈ fltvTable ∧
    (vaxCode 0x0A0#11 ⟨0#2, false, false, false⟩ 0x4010000000000000#64 0x4010000000000000#64).sum = 0#6 := 
  ⟨by decide +kernel, by unfold fltvTable; simp [fltvAddg], by decide +kernel⟩

/-- DIVT by zero, an inexact ADDT/SUI (with /S), DIVG by zero. -/
theorem witness_FloatTraps :
    kern.fpe = true ∧ (ieeeCode 0x0A3#11 kern.fpControl 0x3FF0000000000000#64 0#64).sum ≠ 0#6 ∧
    (ieeeCode 0x7A0#11 kern.fpControl 0x3FF0000000000000#64 0x3C90000000000000#64).sum ≠ 0#6 ∧
    (vaxCode 0x0A3#11 ⟨0#2, false, false, false⟩ 0x4010000000000000#64 0#64).sum ≠ 0#6 := by decide +kernel

/-- Infinity, the least denormal, a normal number, minus zero; a reserved operand and the least VAX number; a code of each conversion, and a dirty zero in D format. -/
theorem witness_FloatInputExceptions :
    fnOp 0x0A0#11 < 8 ∧ fnOp 0x0A3#11 = 3 ∧ fnOp 0x0A0#11 ≠ 4 ∧
    (0x7FF0000000000000#64 : Word).extractLsb' 52 11 = 0x7FF#11 ∧
    ((1#64 : Word).extractLsb' 52 11 = 0#11 ∧ (1#64 : Word).extractLsb' 0 52 ≠ 0#52) ∧
    ¬ (((0x3FF0000000000000#64 : Word).extractLsb' 52 11 = 0x7FF#11) ∨ (0x3FF0000000000000#64 : Word).extractLsb' 52 11 = 0#11) ∧
    (0x8000000000000000#64 : Word).extractLsb' 0 63 = 0#63 ∧
    ((0x8000000000000000#64 : Word).extractLsb' 52 11 = 0#11 ∧ (0x8000000000000000#64 : Word) ≠ 0#64) ∧
    ¬ ((0x0010000000000000#64 : Word).extractLsb' 52 11 = 0#11) ∧
    (fnOp 0x0AC#11 = 12 ∧ fnSrc 0x0AC#11 = 2) ∧ fnOp 0x0AF#11 = 15 ∧ fnOp 0x0AD#11 = 13 ∧ (fnOp 0x09E#11 = 14 ∧ fnSrc 0x09E#11 = 1) ∧
    ((0x0040000000000000#64 : Word).extractLsb' 55 8 = 0#8 ∧ (0x0040000000000000#64 : Word) ≠ 0#64) := by decide

/-- The greatest T number, minus zero, the least VAX number; the vax clause holds of 0 too. -/
theorem witness_FloatCompares :
    (0x7FEFFFFFFFFFFFFF#64 : Word).extractLsb' 52 11 ≠ 0x7FF#11 ∧ (0x7FEFFFFFFFFFFFFF#64 : Word).extractLsb' 52 11 ≠ 0#11 ∧
    ((0x8000000000000000#64 : Word).extractLsb' 52 11 ≠ 0x7FF#11 ∧ (0x8000000000000000#64 : Word).extractLsb' 0 52 = 0#52) ∧
    (0x0010000000000000#64 : Word).extractLsb' 52 11 ≠ 0#11 := by decide

/-- Minus five to two bits: a tie, in each of the five modes. -/
theorem witness_RoundingIsCorrect :
    (⟨true, 5, 1, 0⟩ : Exact).num ≠ 0 ∧ (⟨true, 5, 1, 0⟩ : Exact).den ≠ 0 ∧
    ((⟨true, 5, 1, 0⟩ : Exact).round .nearest 2).sig = 2 ∧ ((⟨true, 5, 1, 0⟩ : Exact).round .vax 2).sig = 3 ∧
    ((⟨true, 5, 1, 0⟩ : Exact).round .chopped 2).sig = 2 ∧ ((⟨true, 5, 1, 0⟩ : Exact).round .minus 2).sig = 3 ∧
    ((⟨true, 5, 1, 0⟩ : Exact).round .plus 2).sig = 2 := by decide +kernel

/-- The least and the greatest exponent and significand of each format. -/
theorem witness_PackedValues :
    (897 : Int) ≤ 897 ∧ (1150 : Int) ≤ 1150 ∧ 2 ^ 23 ≤ 2 ^ 24 - 1 ∧ 2 ^ 24 - 1 < 2 ^ 24 ∧
    sForm (Format.s.pack true 897 (2 ^ 23)) = true ∧ sForm (Format.s.pack false 1150 (2 ^ 24 - 1)) = true ∧
    ieeeValid (Format.t.pack true 1 (2 ^ 52)) = true ∧ ieeeValid (Format.t.pack false 2046 (2 ^ 53 - 1)) = true ∧
    fForm (Format.f.pack true 897 (2 ^ 23)) = true ∧ fForm (Format.f.pack false 1151 (2 ^ 24 - 1)) = true ∧
    vaxValid (Format.g.pack true 1 (2 ^ 52)) = true ∧ vaxValid (Format.g.pack false 2047 (2 ^ 53 - 1)) = true ∧
    dValid (Format.d.pack true 1 (2 ^ 55)) = true ∧ dValid (Format.d.pack false 255 (2 ^ 56 - 1)) = true := by decide +kernel

/-- n at both ends of its range. -/
theorem witness_IntegerConversionsExact :
    (-(2 ^ 53) : Int) ≤ 2 ^ 53 ∧ (-(2 ^ 53) : Int) ≤ -(2 ^ 53) ∧
    (ieeeFromInt .t ⟨.chopped, true, true, true⟩ kern.fpControl (BitVec.ofInt 64 (2 ^ 53))).fpcr = 0#6 ∧
    (ieeeFromInt .t ⟨.chopped, true, true, true⟩ kern.fpControl (BitVec.ofInt 64 (-(2 ^ 53)))).fpcr = 0#6 := by decide +kernel

/-- Floating point enabled, the longwords at the ends of the range and next to them, minus zero and its neighbour. -/
theorem witness_FloatCopies_ConvertQuadToLong :
    kern.fpe = true ∧ (-(2 ^ 31) ≤ (0xFFFFFFFF80000000#64 : Word).toInt ∧ (0x7FFFFFFF#64 : Word).toInt < 2 ^ 31) ∧
    ¬ ((0x80000000#64 : Word).toInt < 2 ^ 31) ∧ ¬ (-(2 ^ 31) ≤ (0xFFFFFFFF7FFFFFFF#64 : Word).toInt) ∧
    (0x8000000000000000#64 : Word).extractLsb' 0 63 = 0#63 ∧ (0x8000000000000001#64 : Word).extractLsb' 0 63 ≠ 0#63 := by decide +kernel

/-- A code of each kind, the greatest T number and minus zero, the least and the greatest S number. -/
theorem witness_IeeeArithmeticResult :
    (0x0A0#11, Instr.addt) ∈ fltiTable ∧ (0x082#11, Instr.muls) ∈ fltiTable ∧ fnOp 0x0A0#11 = 0 ∧
    fnSrc 0x082#11 = 0 ∧ fnOp 0x0AC#11 = 12 ∧ fnSrc 0x0AC#11 = 2 ∧ (0x0AC#11 : BitVec 11).extractLsb' 8 2 ≠ 2#2 ∧
    fnOp 0x2AC#11 = 12 ∧ fnSrc 0x2AC#11 = 2 ∧ (0x2AC#11 : BitVec 11).extractLsb' 8 2 = 2#2 ∧ fnOp 0x0BC#11 = 12 ∧ fnSrc 0x0BC#11 = 3 ∧
    fnOp 0x0BE#11 = 14 ∧ ieeeValid 0x7FEFFFFFFFFFFFFF#64 = true ∧ ieeeValid 0x8000000000000000#64 = true ∧
    sForm 0x3810000000000000#64 = true ∧ sForm 0x47EFFFFFE0000000#64 = true ∧ fnOp 0x0AF#11 = 15 := 
  ⟨by unfold fltiTable; simp [fltiAddt], by unfold fltiTable; simp [fltiMuls], rfl, rfl, rfl, rfl, by decide, rfl, rfl, rfl, rfl, rfl, rfl,
    by decide +kernel, by decide +kernel, by decide +kernel, by decide +kernel, rfl⟩

/-- A code of each kind, the greatest G number, zero, the least D number. -/
theorem witness_VaxArithmeticResult :
    (0x0A0#11, Instr.addg) ∈ fltvTable ∧ fnOp 0x0AC#11 = 12 ∧ fnSrc 0x0AC#11 = 2 ∧ fnOp 0x0AD#11 = 13 ∧
    fnOp 0x09E#11 = 14 ∧ fnSrc 0x09E#11 = 1 ∧ fnOp 0x0BC#11 = 12 ∧ fnSrc 0x0BC#11 = 3 ∧ vaxValid 0x7FFFFFFFFFFFFFFF#64 = true ∧
    vaxValid 0#64 = true ∧ dValid 0x0080000000000000#64 = true ∧ fnOp 0x0AF#11 = 15 := 
  ⟨by unfold fltvTable; simp [fltvAddg], rfl, rfl, rfl, rfl, rfl, rfl, rfl, by decide +kernel, by decide +kernel, by decide +kernel, rfl⟩

/-- The functions at the ends of both ranges and next to them, in kernel and in user mode. -/
theorem witness_CallPalDispatch :
    (0x3F#26 : BitVec 26).toNat ≤ 0x3F ∧ kern.ibox.icm = 0#2 ∧ (0x80 ≤ (0x80#26 : BitVec 26).toNat ∧ (0xBF#26 : BitVec 26).toNat ≤ 0xBF) ∧
    ¬ ((0x40#26 : BitVec 26).toNat ≤ 0x3F) ∧ ¬ (0x80 ≤ (0x7F#26 : BitVec 26).toNat) ∧ ¬ ((0xC0#26 : BitVec 26).toNat ≤ 0xBF) ∧
    State.kernel { kern with ibox := { kern.ibox with icm := 3#2 } } = false := by decide +kernel

/-- PALmode, kernel mode with ICSR<HWE>, and an aligned return address. -/
theorem witness_ExceptionEntryAndReturn :
    pal.palmode = true ∧ (0x1000#64 : Word) &&& 3#64 = 0#64 ∧
    State.palAllowed { kern with ibox := { kern.ibox with icsr := 0x2008000000#64 } } = true := by decide +kernel

/-- A physical quadword at the top of the region; a virtual longword with ALT and WRTCK; a virtual PTE fetch that misses. -/
theorem witness_PalLoads :
    pal.palmode = true ∧
    (withR2 pal 0x7FFFFFFFF8#64).reachesPlainly
      ⟨(withR2 pal 0x7FFFFFFFF8#64).readInt 2#5 + (0#10).signExtend 64, true, false, false, true, false, false, false, 1#5, 0x1B#6⟩
      0x7FFFFFFFF8#40 ∧
    (withR2 pal 0x2007#64).reaches
      ⟨(withR2 pal 0x2007#64).readInt 2#5 + (0#10).signExtend 64, false, false, false, false, true, false, true, 1#5, 0x1B#6⟩
      0x2004#40 ∧
    pal.mbox.dcMode.extractLsb' 0 2 ≠ 3#2 ∧
    State.translate { pal with dtb := unmapped.dtb }
      ⟨0x2000#64, true, false, false, false, false, true, false, 1#5, 0x1B#6⟩ = .except .dtbMissDouble 0x10#6 := 
  ⟨rfl, plainly_of_via 0x7FFFFFFFF8#40 none (by decide +kernel), reaches_of_via 0x2007#40 (some 0) (by decide +kernel),
    by decide +kernel, by decide +kernel⟩

/-- With the lock flag clear and set, and a miss. -/
theorem witness_PalStores :
    pal.palmode = true ∧ pal.scFhit = false ∧ pal.bcFhit = false ∧
    (withR2 pal 0x7FFFFFFFF8#64).reachesPlainly
      ⟨(withR2 pal 0x7FFFFFFFF8#64).readInt 2#5 + (0#10).signExtend 64, true, true, false, true, false, false, false, 1#5, 0x1F#6⟩
      0x7FFFFFFFF8#40 ∧
    State.reaches { pal with lockFlag := true }
      ⟨0x2004#64, false, true, false, true, false, false, false, 1#5, 0x1F#6⟩ 0x2004#40 ∧
    State.translate { pal with dtb := unmapped.dtb }
      ⟨0x2000#64, true, true, false, false, false, false, false, 1#5, 0x1F#6⟩ = .except .dtbMissSingle 0x11#6 := 
  ⟨rfl, by decide +kernel, by decide +kernel, plainly_of_via 0x7FFFFFFFF8#40 none (by decide +kernel),
    reaches_of_via 0x2004#40 none (by decide +kernel), by decide +kernel⟩

/-- The first and the last register, the two must-be-zero bits of MCSR, a gap, the index past the last, and a write after which a read is allowed (see exists_of_after). -/
theorem witness_IprWrites :
    pal.palmode = true ∧ iprOf 0x100#16 = some .isr ∧ iprOf 0x217#16 = some .mafMode ∧ iprOf 0x20F#16 = some .mcsr ∧
    (pal.readInt 31#5).getLsbD 3 = false ∧ ((pal.writeInt 1#5 8#64).readInt 1#5).getLsbD 3 = true ∧
    ((pal.writeInt 1#5 0x20#64).readInt 1#5).getLsbD 5 = true ∧ iprOf 0x114#16 = none ∧ iprOf 0x218#16 = none ∧
    after (exec (.hwMtpr 1#5 1#5 0x118#16) pal) State.palAllowed = true ∧
    after (exec (.hwMtpr 1#5 1#5 0x157#16) pal) State.palAllowed = true := by decide +kernel

theorem witness_IprReads_IprWriteEffects_TranslationBuffers :
    pal.palmode = true ∧ State.palAllowed { kern with ibox := { kern.ibox with icsr := 0x2008000000#64 } } = true ∧
    (pal.writeInt 1#5 0x2000000000#64).readInt 1#5 = 0x2000000000#64 ∧ (pal.readInt 31#5).getLsbD 37 = false ∧
    (pal.readInt 31#5).getLsbD 3 = false ∧ (pal.readInt 31#5).getLsbD 5 = false ∧ pal.mbox.mcsr.getLsbD 1 = false ∧
    superpage.mbox.mcsr.getLsbD 1 = true := by decide +kernel

/-- SC_CTL and EI_STAT, the first and the last address of the region that hold no register, and both sides of the EI_STAT clause. -/
theorem witness_CboxLoads :
    pal.palmode = true ∧ pal.allocCyc = false ∧ pal.owed = .nothing ∧
    (((withR2 pal 0xFFFFF000A8#64).readInt 2#5 + (0#10).signExtend 64).setWidth 40 : PAddr) = 0xFFFFF000A8#40 ∧
    (((withR2 pal 0xFFFFF00168#64).readInt 2#5 + (0#10).signExtend 64).setWidth 40 : PAddr) = 0xFFFFF00168#40 ∧
    State.allocCyc { pal with cbox := { pal.cbox with bcControl := 0x8072#29 } } = true ∧
    0xFFFFF00000 ≤ (0xFFFFF00000#40 : PAddr).toNat ∧
    (∀ r ∈ CboxReg.all, (0xFFFFF00000#40 : PAddr).toNat / 8 ≠ r.address.toNat / 8) ∧
    (∀ r ∈ CboxReg.all, (0xFFFFFFFFFF#40 : PAddr).toNat / 8 ≠ r.address.toNat / 8) ∧
    ((8#8 ||| 1#8 : BitVec 8).getLsbD 3 = true ∧ (8#8 ||| 1#8 : BitVec 8) &&& 0x33#8 ≠ 0#8) := by decide +kernel

/-- A legal set enable of one set and of three, an illegal one, must-be-zero bits, a change without an MB, speeds that are legal with 64-byte blocks only, force-hit mode and BC_TAG_STAT outside it, a legal and an illegal value without a Bcache. -/
theorem witness_CboxStores :
    pal.palmode = true ∧ pal.owed = .nothing ∧ pal.cbox.bcControl.getLsbD 0 = false ∧ pal.pins.bcacheSize = 0#3 ∧
    (((withR2 pal 0xFFFFF000A8#64).readInt 2#5 + (0#10).signExtend 64).setWidth 40 : PAddr) = 0xFFFFF000A8#40 ∧
    (((withR2 pal 0xFFFFF00128#64).readInt 2#5 + (0#10).signExtend 64).setWidth 40 : PAddr) = 0xFFFFF00128#40 ∧
    (((withR2 pal 0xFFFFF001C8#64).readInt 2#5 + (0#10).signExtend 64).setWidth 40 : PAddr) = 0xFFFFF001C8#40 ∧
    (0x3000#64 : Word).extractLsb' 13 3 ∈ [1#3, 2#3, 4#3] ∧ (0xF002#64 : Word).extractLsb' 13 3 = 7#3 ∧ (0xF002#64 : Word).getLsbD 0 = false ∧
    ¬ ((0x7000#64 : Word).extractLsb' 13 3 ∈ [1#3, 2#3, 4#3] ∨ (0x7000#64 : Word).extractLsb' 13 3 = 7#3) ∧
    (0x13000#64 : Word).extractLsb' 16 3 ≠ 0#3 ∧ (0x3000#64 : Word).extractLsb' 0 16 ≠ pal.cbox.scCtl ∧ pal.afterMb = false ∧
    bcSpeedsOk true 0x8071#29 0x17441#29 = true ∧ bcSpeedsOk false 0x8071#29 0x17441#29 = false ∧ (0x80F1#64 : Word).getLsbD 7 = true ∧
    ((0x8170#64 : Word).extractLsb' 8 5 ≠ 0#5 ∧ (0x8170#64 : Word).getLsbD 7 = false) ∧ (0x2008070#64 : Word).getLsbD 25 = true ∧
    (0x17449#64 : Word).getLsbD 3 = true ∧ bcNoneOk 4#4 0x17440#29 = true ∧ bcNoneOk 4#4 0x17443#29 = false := by decide +kernel

theorem witness_MiscellaneousInstructions :
    kern.translate (Ref.unaligned 0x3FFFFF#64 false 31#5 0x18#6) = .ok 0x3FFFFF#40 (some 0) ∧
    unmapped.translate (Ref.unaligned 0x3FFFFF#64 false 31#5 0x18#6) = .except .dtbMissSingle 0x10#6 := by decide +kernel

/-- A halt at the highest IPL, a software request at the lowest, performance counter 2, and none; nothing on its way, and a load that idle_bc_h holds back. -/
theorem witness_InterruptDelivery :
    State.interruptPending { kern with pins := { kern.pins with mchHlt := true }, ibox := { kern.ibox with iplr := 31#5 } } = true ∧
    State.interruptPending { kern with ibox := { kern.ibox with sirr := 1#15 } } = true ∧
    State.interruptPending { kern with ibox := { kern.ibox with
      pcReq := 4#3, pmctr := 0x800#64, icsr := kern.ibox.icsr ||| 0x100#64, iplr := 28#5 } } = true ∧
    kern.interruptPending = false ∧ kern.inputs = [] ∧ kern.palmode = false ∧ kern.mchkPending = false ∧ kern.idle ∧
    (State.awaitLoads { kern with ended := .retired, nopParity := false }).mchkPending = false ∧
    (State.awaitLoads { kern with ended := .retired, nopParity := false }).drained = true ∧
    (State.awaitLoads { waiting with ended := .retired, nopParity := false }).drained = false := 
  ⟨by decide +kernel, by decide +kernel, by decide +kernel, by decide +kernel, rfl, rfl, rfl, ⟨rfl, rfl, rfl, rfl, rfl, rfl⟩, rfl, rfl, rfl⟩

/-- BIS R31,#4,R3 placed after reset; ADDQ R1,R2,R3 while a load of R1 waits for idle_bc_h. With no counter enabled: kern. -/
theorem witness_StepRunsDecoded :
    ∃ u, State.fetch { (State.reset.withFetchWord 32 0x47E09403) with ended := .retired, nopParity := false } = .insn 0x47E09403#32 u ∧
      decode 0x47E09403#32 = .ok (.bis 31#5 (.lit 4#8) 3#5) ∧ (State.reset.withFetchWord 32 0x47E09403).inputs = [] ∧
      (State.reset.withFetchWord 32 0x47E09403).mchkPending = false ∧ (State.reset.withFetchWord 32 0x47E09403).palmode = true ∧
      State.mchkPending (State.readyFor u 0x47E09403#32) = false ∧ State.blocked (State.readyFor u 0x47E09403#32) 0x47E09403#32 = false ∧
      State.mchkPending (State.readyFor { u with mchkPending := true } 0x47E09403#32) = true ∧
      State.blocked (waiting.readyFor 0x40220403#32) 0x40220403#32 = true ∧ waiting.drained = false ∧ kern.drained = true ∧
      kern.mbWaits = false ∧ kern.wb.length < 6 ∧ kern.idle ∧ kern.icache.drain = 0 ∧
      kern.mbox.ccEna = false ∧ kern.pmActive = false ∧ kern.pulse = 0 := 
  ⟨_, rfl, rfl, rfl, rfl, rfl, rfl, rfl, rfl, by decide +kernel, rfl, rfl, rfl, by decide, ⟨rfl, rfl, rfl, rfl, rfl, rfl⟩, rfl, rfl, rfl, rfl⟩

/-- A miss of everything and a hit of the Scache, a hit of the Icache, and the ends of the regions. -/
theorem witness_InstructionFetch :
    pal.palmode = true ∧ pal.icache.lines = [] ∧ pal.icache.refill = [] ∧ pal.miss0 = none ∧ pal.miss1 = none ∧
    regionOf (pal.pc.setWidth 40) = .memory ∧ pal.bcEnabled = false ∧ pal.scFhit = false ∧ pal.cbox.scCtl.extractLsb' 13 3 = 7#3 ∧
    pal.victims = [] ∧ pal.answers = [] ∧ pal.pins.idleBc = false ∧ waiting.pins.idleBc = true ∧ pal.mchkPending = false ∧ pal.scache = [] ∧
    pal.icsrBit 34 = false ∧ pal.icsrBit 35 = false ∧ pal.icsrBit 36 = false ∧
    (let s : State := { pal with
       scache := [line0 0#24 false ⟨true, false, true, 0#2, 3#256, 0#8⟩ ⟨true, false, false, 0#2, 4#256, 0#8⟩] }
     (s.scFind 0#35).isSome = true ∧ ∀ l ∈ s.scache, l.tagError = false ∧ l.sub0.bad = 0#8 ∧ l.sub1.bad = 0#8) ∧
    (let l : IcLine := ⟨128, 0#30, 5#7, false, true, true, false, Vector.replicate 8 0x47FF041F#32, false, false⟩
     icFind ((0x1000#64 : Word).extractLsb' 5 8).toNat [l] = some l ∧ l.valid0 = true ∧ l.phys = pal.palmode ∧
       l.tag = (0x1000#64 : Word).extractLsb' 13 30) ∧
    regionOf 0x8000000000#40 = .noncached ∧ regionOf 0xFFFFEFFFFF#40 = .noncached ∧ regionOf 0xFFFFF00000#40 = .cbox := by decide +kernel

/-- Both sides of the sign check, no entry, one entry with the largest granularity hint at the last longword it covers, both superpages. -/
theorem witness_FetchTranslation :
    pal.palmode = true ∧ kern.palmode = false ∧ kern.istreamLost = false ∧
    (0x40000000000#64 : Word).toInt ≥ 2 ^ 42 ∧ (0xFFFFFBFFFFFFFFFC#64 : Word).toInt < -(2 ^ 42) ∧
    (0x3FFFFFFFFFC#64 : Word).toInt < 2 ^ 42 ∧ -(2 ^ 42) ≤ (0xFFFFFC0000000000#64 : Word).toInt ∧
    kern.icsrBit 28 = false ∧ kern.icsrBit 29 = false ∧ kern.ibox.icm = 0#2 ∧
    (∀ k : Fin 48, kern.itb.entries[k].matches ((0x3FFFFFFFFFC#64 : Word).extractLsb' 13 30) kern.ibox.itbAsn = false) ∧
    (∀ k : Fin 48, kern.itb.entries[k].matches ((0x3FFFFC#64 : Word).extractLsb' 13 30) kern.ibox.itbAsn = (k == 0)) ∧
    kern.itb.entries[(0 : Fin 48)].re.getLsbD 0 = true ∧
    (let s : State := { kern with ibox := { kern.ibox with icsr := 0x2034000000#64 } }
     s.icsrBit 29 = true ∧ s.icsrBit 28 = true) ∧ (0xFFFFFC0000000000#64 : Word).extractLsb' 41 2 = 2#2 ∧
    (0xFFFFFFFFBFFFFFFC#64 : Word).extractLsb' 30 13 = 0x1FFE#13 ∧ (0xFFFFFFFFBFFFFFFC#64 : Word).extractLsb' 41 2 ≠ 2#2 := by decide +kernel

theorem witness_IllegalWords :
    decode 0x40220023#32 = .error (.unusedInt 3#5) ∧ decode 0x58220183#32 = .error (.unusedIeee 0#2 3#5) ∧
    decode 0x58220203#32 = .error (.unusedIeee 1#2 3#5) ∧ decode 0x54220083#32 = .error (.unusedFp 3#5) ∧
    decode 0x63FF0001#32 = .error .unusedMisc ∧ kern.fpe = true ∧ noFp.fpe = false := 
  ⟨rfl, rfl, rfl, rfl, rfl, by decide +kernel, by decide +kernel⟩

theorem witness_RegisterMapping :
    State.shadowOn { pal with ibox := { pal.ibox with icsr := 0x2040000000#64 } } = true ∧ pal.shadowOn = false ∧
    (8#5 : RegNum).toNat = 8 + (0 : Fin 7).val ∧ (14#5 : RegNum).toNat = 8 + (6 : Fin 7).val ∧
    (30#5 : RegNum).toNat = (30 : Fin 31).val := by decide +kernel

/-- A wrong tag parity in bank 0 and bad data parity in bank 1, hidden and visible hard errors, a pending machine check with nothing on its way and with a load that idle_bc_h holds back. -/
theorem witness_ErrorRecords :
    (let s : State := { superpage with
       mbox := { superpage.mbox with dcMode := 1#4 }
       dcache := ⟨[⟨0, 0#26, true, true, true, 0#8, 0#256⟩], [⟨0, 0#26, false, true, true, 3#8, 0#256⟩]⟩ }
     let r := Ref.plain 0xFFFFFC0000000000#64 true false 1#5 0x29#6
     s.reaches r 0#40 ∧ (s.dcLook false r.quad false 0#40).errors = 4#4 ∧ (s.dcLook true r.quad false 0#40).errors = 2#4) ∧
    kern.scFhit = false ∧ kern.cbox.scLock = false ∧ kern.hardErrorHidden 16#8 = true ∧
    State.hardErrorHidden { kern with cbox := { kern.cbox with bcControl := 0x70#29 } } 16#8 = false ∧
    State.mchkPending { kern with mchkPending := true } = true ∧ kern.awaitLoads.drained = true ∧ kern.drained = true ∧
    (State.awaitLoads { waiting with mchkPending := true }).drained = false ∧
    after (step { waiting with inputs := [.fillError] }) (fun t => t.mchkPending) = true := 
  ⟨⟨reaches_of_via 0#40 none (by decide +kernel), by decide +kernel, by decide +kernel⟩, by decide +kernel⟩

theorem witness_SystemCommands :
    regionOf 0#40 = .memory ∧ regionOf 0x7FFFFFFFFF#40 = .memory ∧
    (State.probe { kern with
       scache := [line0 0#24 false ⟨true, false, true, 0#2, 3#256, 0#8⟩ ⟨true, false, false, 0#2, 4#256, 0#8⟩] } 0x20#40).scDirty = true ∧
    after (State.event kern (.prefetch 0x2000#40)) (fun _ => true) = true ∧ regionOf 0xFFFFEFFFFF#40 ≠ .cbox ∧
    kern.nopParity = false ∧ kern.cmds.length < 2 ∧ 2 ≤ [Waiting.bad, .bad].length ∧ kern.bcEnabled = false ∧
    State.hardErrorHidden { kern with cbox := { kern.cbox with bcControl := 0x70#29 } } 32#8 = false := by decide +kernel

theorem witness_StepKeepsRegisters :
    State.reset.pcOk ∧ State.reset.reservedOk ∧
    after (step (State.reset.withFetchWord 32 0x47E09403)) (fun _ => true) = true := 
  ⟨⟨rfl, rfl⟩, ⟨by decide, by decide⟩, by decide +kernel⟩

theorem witness_StepKeepsMemory :
    data.memOk ∧ after (step (data.withFetchWord 32 0x47E09403)) (fun _ => true) = true := 
  ⟨⟨by decide +kernel, by decide +kernel⟩, by decide +kernel⟩

theorem witness_DecodeEncode :
    Instr.wellFormed (.hwSt 31#5 31#5 true true false true false true 0x3FF#10) = true ∧
    decodeBytes (wordBytes (encode (.hwSt 31#5 31#5 true true false true false true 0x3FF#10)) ++ [0xAA#8]) =
      some (.ok (.hwSt 31#5 31#5 true true false true false true 0x3FF#10), [0xAA#8]) := ⟨rfl, rfl⟩

end Sys2Proof.Tests
end

section
/-! The invariants of Safety.lean along the cases of one step: a fetched word that runs, a fetch that traps or waits, an
interrupt, an event of the environment, and the work after each. -/

namespace Sys2Proof.Machine

variable (s : State)

/-! ## One instruction -/

theorem KeepsRes.runWord (w : Longword) : KeepsRes s (s.runWord w) := by
  unfold State.runWord
  cases decode w with
  | ok i => exact keepsRes_exec s i
  | error r => exact .next (Keeps.runUnused s r)

theorem Keeps.begin : Keeps s s.begin := .of_eq rfl rfl rfl rfl rfl

/-- What an instruction leaves, counted, or the state before it where its exception has to wait (R705). -/
theorem KeepsRes.finished {r : Res State} (h : KeepsRes s r) : KeepsRes s (Machine.mapRes s.finish r) := by
  constructor
  intro t ht
  obtain ⟨u, hu, rfl⟩ := mapRes_eq_next ht
  exact (h.of u hu).finish

theorem KeepsRes.runReady (w : Longword) : KeepsRes s (s.runReady w) :=
  .ite s (.next (.refl s)) (.ite s (.next (Keeps.idled s)) (.finished s (.runWord s w)))

theorem KeepsRes.runFetched {f : Fetched} (h : KeepsFetched s f) : KeepsRes s (s.runFetched f) := by
  cases f with
  | insn w t => exact .trans ((h.of t rfl).trans (.of_quiet (Quiet.readyFor t w))) (.runReady _ w)
  | trap t => exact .next (.ite (h.of t rfl) (Keeps.drain s))
  | waits t => exact .next ((h.of t rfl).trans (Keeps.idled t))
  | fault e => exact .fault s e
  | refused r => exact .refused s r

/-! ## One step -/

/-- A machine check that waits, an interrupt, or the instruction at the PC (R702). -/
theorem KeepsRes.runOne : KeepsRes s s.runOne :=
  .ite s (.next ((Keeps.begin s).trans (Keeps.idled _)))
    (.ite s (.next ((Keeps.begin s).trans (Keeps.interrupted _)))
      (.trans (Keeps.begin s) (.runFetched _ (KeepsFetched.fetch _))))

/-- Taking an event off the inputs. -/
theorem Keeps.takeInput (rest : List EnvEvent) (nop : Bool) : Keeps s { s with inputs := rest, nopParity := nop } :=
  .of_eq rfl rfl rfl rfl rfl

/-- An event of the environment, or what the processor does where none is left or the next is quiet. -/
theorem KeepsRes.raw : KeepsRes s s.raw := by
  unfold State.raw
  split
  · exact .runOne s
  · next rest _ => exact .trans (Keeps.takeInput s rest s.nopParity) (.runOne _)
  · next e rest _ _ => exact .trans (Keeps.takeInput s rest (s.nopParity && e.isCommand)) (keepsRes_event _ e)

/-- Every step keeps the invariants, of any instruction, trap, interrupt or event. -/
theorem keepsRes_step : KeepsRes s (step s) := (KeepsRes.raw s).mapRes Keeps.settle

/-- Settles O57: the step lemma of both invariants, for the registers. -/
theorem stepKeepsRegisters : Obligations.StepKeepsRegisters := fun s t hpc hres hstep =>
  ((keepsRes_step s).of t hstep).2 hpc hres

end Sys2Proof.Machine
end

section
/-! The mapping of R31 to R34, case by case of a register number, and what a write leaves unchanged. -/

namespace Sys2Proof.Machine

variable (s : State)

/-! ## Which slot a register number names -/

theorem State.shadowOn_iff : s.shadowOn = true ↔ s.palmode = true ∧ s.ibox.icsr.getLsbD 30 = true := by
  simp [State.shadowOn, State.icsrBit]

/-- R8 to R14 are overlaid by the shadow registers 0 to 6 (R32). -/
theorem shadowSlot_of_low {n : RegNum} (k : Fin 7) (h : n.toNat = 8 + k.val) : shadowSlot n = some k.castSucc := by
  have hk := k.isLt
  rw [shadowSlot, dif_pos (by omega), Option.some_inj]
  exact Fin.ext (by simp [h])

/-- R25 is overlaid by the last shadow register (R32). -/
theorem shadowSlot_r25 : shadowSlot 25#5 = some 7 := rfl

theorem shadowSlot_eq_none {n : RegNum} (h : ¬ (8 ≤ n.toNat ∧ n.toNat ≤ 14 ∨ n.toNat = 25)) : shadowSlot n = none := by
  cases hn : shadowSlot n with
  | none => rfl
  | some k =>
    refine absurd ?_ h
    rcases shadowSlot_eq_some hn with ⟨h1, h2, -⟩ | ⟨h1, -⟩
    · exact .inl ⟨h1, h2⟩
    · exact .inr h1

theorem State.intSlot_of_shadow {n : RegNum} {k : Fin 8} (hs : s.shadowOn = true) (hn : shadowSlot n = some k) :
    s.intSlot n = .shadow k := by
  rw [State.intSlot, if_pos hs, hn]

theorem State.intSlot_of_plain {n : RegNum} {k : Fin 31} (hs : s.shadowOn = true → shadowSlot n = none)
    (hk : n.toNat = k.val) : s.intSlot n = .plain k := by
  have hnone : (if s.shadowOn then shadowSlot n else none) = none := by
    split
    · exact hs ‹_›
    · rfl
  rw [State.intSlot, hnone, dif_pos (hk ▸ k.isLt)]
  exact congrArg IntSlot.plain (Fin.ext hk)

/-! ## What a register number reads -/

theorem State.readInt_of_shadow {n : RegNum} {k : Fin 8} (hs : s.shadowOn = true) (hn : shadowSlot n = some k) :
    s.readInt n = s.shadow[k] := by
  rw [State.readInt, s.intSlot_of_shadow hs hn]

theorem State.readInt_of_plain {n : RegNum} {k : Fin 31} (hs : s.shadowOn = true → shadowSlot n = none)
    (hk : n.toNat = k.val) : s.readInt n = s.ints[k] := by
  rw [State.readInt, s.intSlot_of_plain hs hk]

theorem State.readFp_of_lt {n : RegNum} {k : Fin 31} (hk : n.toNat = k.val) : s.readFp n = s.fregs[k] := by
  rw [State.readFp, dif_pos (hk ▸ k.isLt)]
  simp [hk]

/-! ## The frame of a write -/

theorem State.writeInt_frame (n : RegNum) (v : Word) :
    { s.writeInt n v with ints := s.ints, shadow := s.shadow } = s := by
  rw [State.writeInt]
  cases s.intSlot n <;> rfl

theorem State.writeFp_frame (n : RegNum) (v : Word) : { s.writeFp n v with fregs := s.fregs } = s := by
  unfold State.writeFp
  split <;> rfl

/-- Settles O52: a number reads its slot, by the mapping of R33, and a write satisfies the frames of Safety.lean. -/
theorem registerMapping : Obligations.RegisterMapping := by
  intro n v s
  dsimp only
  rw [← s.shadowOn_iff]
  refine ⟨fun k hk hs => ?low, fun hn hs => ?r25, fun k hk hs => ?plain, fun k hk => s.readFp_of_lt hk,
    s.readInt_r31, s.readFp_f31, s.writeInt_r31 v, s.writeFp_f31 v, intWrite_writeInt s n v, fpWrite_writeFp s n v,
    s.writeInt_frame n v, s.writeFp_frame n v⟩
  case low => exact s.readInt_of_shadow hs (shadowSlot_of_low k hk)
  case r25 =>
    subst hn
    exact s.readInt_of_shadow hs shadowSlot_r25
  case plain => exact s.readInt_of_plain (fun on => shadowSlot_eq_none fun h => hs ⟨on, hk ▸ h⟩) hk

end Sys2Proof.Machine
end

section
/-! HW_MTPR of the registers that fill and invalidate the translation buffers (R102, R105 to R107, R203, R204, R211 to R213): what
each does to a buffer by itself, and what the instruction leaves around it. -/

namespace Sys2Proof.Machine

/-! ## The buffers -/

/-- The pointer moves on by one, modulo the number of entries. -/
theorem Itb.fill_eq (t : Itb) (e : ItbEntry) :
    t.fill e = ⟨t.entries.set t.next e, ⟨(t.next.val + 1) % 48, Nat.mod_lt _ (by decide)⟩⟩ := rfl

theorem Dtb.fill_eq (t : Dtb) (e : DtbEntry) :
    t.fill e = ⟨t.entries.set t.next e, ⟨(t.next.val + 1) % 64, Nat.mod_lt _ (by decide)⟩⟩ := rfl

theorem Itb.drop_entry (t : Itb) (p : ItbEntry → Bool) (k : Fin 48) :
    (t.drop p).entries[k] = { t.entries[k] with valid := t.entries[k].valid && !p t.entries[k] } := by
  simp only [Itb.drop, Fin.getElem_fin, Vector.getElem_map]
  cases p t.entries[k.val] <;> simp

theorem Dtb.drop_entry (t : Dtb) (p : DtbEntry → Bool) (k : Fin 64) :
    (t.drop p).entries[k] = { t.entries[k] with valid := t.entries[k].valid && !p t.entries[k] } := by
  simp only [Dtb.drop, Fin.getElem_fin, Vector.getElem_map]
  cases p t.entries[k.val] <;> simp

/-! ## The indexes (R46, R47) -/

theorem iprOf_itbPte : iprOf 0x102#16 = some .itbPte := by decide
theorem iprOf_itbIa : iprOf 0x105#16 = some .itbIa := by decide
theorem iprOf_itbIap : iprOf 0x106#16 = some .itbIap := by decide
theorem iprOf_itbIs : iprOf 0x107#16 = some .itbIs := by decide
theorem iprOf_dtbTag : iprOf 0x202#16 = some .dtbTag := by decide
theorem iprOf_dtbPte : iprOf 0x203#16 = some .dtbPte := by decide
theorem iprOf_dtbIap : iprOf 0x209#16 = some .dtbIap := by decide
theorem iprOf_dtbIa : iprOf 0x20A#16 = some .dtbIa := by decide
theorem iprOf_dtbIs : iprOf 0x20B#16 = some .dtbIs := by decide

/-! ## The instruction -/

theorem State.palAllowed_iff (s : State) :
    s.palAllowed = true ↔ s.palmode = true ∨ s.ibox.icsr.getLsbD 27 = true ∧ s.ibox.icm = 0#2 := by
  simp [State.palAllowed, State.icsrBit, State.kernel]

section
variable {s : State} {ra rb : RegNum} {index : BitVec 16} {r : Ipr}

/-- Past the privilege check of R680, HW_MTPR is the write of the register its index names, and goes on (R685). -/
theorem exec_hwMtpr_of_next {u : State} (hs : s.palAllowed = true) (hr : iprOf index = some r)
    (hw : s.iprWrite r (s.readInt ra) = .next u) : exec (.hwMtpr ra rb index) s = .next u.advance := by
  change s.palGate (fun s => s.mtpr ra index) = _
  rw [palGate_on hs, State.mtpr, hr]
  exact congrArg (mapRes State.advance) hw

/-- An invalidation changes besides the ITB only the PC and the mark of the HW_REI_STALL that is due (R683), and keeps the valid
bits of exactly the entries it does not pick. -/
theorem exec_hwMtpr_of_itbDrop {p keep : ItbEntry → Bool} {restart : Bool} (hs : s.palAllowed = true)
    (hr : iprOf index = some r) (hkeep : ∀ e, keep e = !p e)
    (hw : s.iprWrite r (s.readInt ra) =
      .next (s.itbChange { s.itb.drop p with next := if restart then 0 else s.itb.next })) :
    ∃ t, exec (.hwMtpr ra rb index) s = .next t ∧
      { t with pc := s.pc, itb := s.itb, itbPending := s.itbPending } = s ∧ t.itbPending = true ∧
      t.pc = s.pc + 4#64 ∧ (t.itb.next = if restart then 0 else s.itb.next) ∧
      ∀ k : Fin 48, t.itb.entries[k] =
        { s.itb.entries[k] with valid := s.itb.entries[k].valid && keep s.itb.entries[k] } := by
  refine ⟨_, exec_hwMtpr_of_next hs hr hw, rfl, rfl, rfl, rfl, fun k => ?_⟩
  rw [hkeep]
  exact s.itb.drop_entry p k

/-- An invalidation changes besides the DTB only the PC, and keeps the valid bits of exactly the entries it does not pick. -/
theorem exec_hwMtpr_of_dtbDrop {p keep : DtbEntry → Bool} {restart : Bool} (hs : s.palAllowed = true)
    (hr : iprOf index = some r) (hkeep : ∀ e, keep e = !p e)
    (hw : s.iprWrite r (s.readInt ra) =
      .next { s with dtb := { s.dtb.drop p with next := if restart then 0 else s.dtb.next } }) :
    ∃ t, exec (.hwMtpr ra rb index) s = .next t ∧ { t with pc := s.pc, dtb := s.dtb } = s ∧ t.pc = s.pc + 4#64 ∧
      (t.dtb.next = if restart then 0 else s.dtb.next) ∧
      ∀ k : Fin 64, t.dtb.entries[k] =
        { s.dtb.entries[k] with valid := s.dtb.entries[k].valid && keep s.dtb.entries[k] } := by
  refine ⟨_, exec_hwMtpr_of_next hs hr hw, rfl, rfl, rfl, fun k => ?_⟩
  rw [hkeep]
  exact s.dtb.drop_entry p k

end

/-- Settles O44: each register is the write of R102 to R107 and R203 to R213, and the lemmas above say what that leaves. -/
theorem translationBuffers : Obligations.TranslationBuffers := by
  intro ra rb s hpal
  have hs : s.palAllowed = true := s.palAllowed_iff.2 hpal
  refine ⟨?dtbPte, ?dtbTag, ?itbPte, ?itbInvalidate, ?dtbInvalidate⟩
  case dtbPte => exact exec_hwMtpr_of_next hs iprOf_dtbPte rfl
  case dtbTag =>
    rw [exec_hwMtpr_of_next hs iprOf_dtbTag rfl, Dtb.fill_eq]
    rfl
  case itbPte =>
    rw [exec_hwMtpr_of_next hs iprOf_itbPte rfl, Itb.fill_eq]
    rfl
  case itbInvalidate =>
    rw [List.forall_mem_cons, List.forall_mem_cons, List.forall_mem_singleton]
    refine ⟨?ia, ?iap, ?is⟩
    case ia => exact exec_hwMtpr_of_itbDrop hs iprOf_itbIa (fun _ => rfl) rfl
    case iap => exact exec_hwMtpr_of_itbDrop hs iprOf_itbIap (fun e => (Bool.not_not e.asm).symm) rfl
    case is => exact exec_hwMtpr_of_itbDrop hs iprOf_itbIs (fun _ => rfl) rfl
  case dtbInvalidate =>
    rw [List.forall_mem_cons, List.forall_mem_cons, List.forall_mem_singleton]
    refine ⟨?ia, ?iap, ?is⟩
    case ia => exact exec_hwMtpr_of_dtbDrop hs iprOf_dtbIa (fun _ => rfl) rfl
    case iap => exact exec_hwMtpr_of_dtbDrop hs iprOf_dtbIap (fun e => (Bool.not_not e.asm).symm) rfl
    case is => exact exec_hwMtpr_of_dtbDrop hs iprOf_dtbIs (fun _ => rfl) rfl

end Sys2Proof.Machine
end

section
/-! The Cbox registers as physical quadword HW_LD and HW_ST reach them (R240 to R256): the addresses, the two instructions, and
what a load of each register delivers and leaves. -/

namespace Sys2Proof.Machine

/-! ## Addresses (R240) -/

theorem cboxReg_address (r : CboxReg) : cboxReg r.address = some r := by cases r <;> decide

theorem CboxReg.address_inj {q r : CboxReg} : q.address = r.address ↔ q = r := by
  refine ⟨fun h => ?_, congrArg CboxReg.address⟩
  rw [← Option.some_inj, ← cboxReg_address q, h, cboxReg_address r]

theorem regionOf_address (r : CboxReg) : regionOf r.address = .cbox := by cases r <;> decide

theorem CboxReg.address_aligned (r : CboxReg) : r.address &&& ~~~7#40 = r.address := by cases r <;> decide

/-- The low three bits do not tell which quadword an address is in. -/
theorem quadword_and_not_seven (a : PAddr) : (a &&& ~~~7#40).toNat / 8 = a.toNat / 8 := by
  have h : a.toNat / 2 ^ 3 < 2 ^ 37 := by have := a.isLt; omega
  have hmask : (~~~7#40).toNat >>> 3 = 2 ^ 37 - 1 := by decide
  change _ / 2 ^ 3 = _ / 2 ^ 3
  rw [BitVec.toNat_and, ← Nat.shiftRight_eq_div_pow, Nat.shiftRight_and_distrib, hmask, Nat.shiftRight_eq_div_pow,
    Nat.and_two_pow_sub_one_of_lt_two_pow h]

/-- The register region is the last megabyte of the physical addresses (R320). -/
theorem regionOf_of_ge {a : PAddr} (h : 0xFFFFF00000 ≤ a.toNat) : regionOf a = .cbox := by
  have hlt := a.isLt
  have htop : a.getLsbD 39 = true := by
    change a.getMsbD 0 = true
    rw [← BitVec.msb, BitVec.msb_eq_decide, decide_eq_true_eq]
    omega
  have hext : a.extractLsb' 20 20 = 0xFFFFF#20 := by
    apply BitVec.eq_of_toNat_eq
    rw [BitVec.extractLsb'_toNat, Nat.shiftRight_eq_div_pow]
    change _ = 0xFFFFF
    omega
  rw [regionOf, if_pos htop, if_pos hext]

theorem regionOf_quadword {a : PAddr} (h : 0xFFFFF00000 ≤ a.toNat) : regionOf (a &&& ~~~7#40) = .cbox :=
  regionOf_of_ge (by have := quadword_and_not_seven a; omega)

/-- An address outside the quadwords of the nine registers names none. -/
theorem cboxReg_eq_none {a : PAddr} (h : ∀ r ∈ CboxReg.all, a.toNat / 8 ≠ r.address.toNat / 8) :
    cboxReg (a &&& ~~~7#40) = none := by
  refine List.find?_eq_none.2 fun r hr heq => h r hr ?_
  rw [beq_iff_eq.1 heq, quadword_and_not_seven, quadword_and_not_seven]

/-! ## Physical references (R300, R313) -/

section
variable {s : State} {r : Ref} {access : State → PAddr → Res State}

theorem State.dstream_phys (hp : r.phys = true) (ho : s.orderKept r.write = true) :
    s.dstream r access = mapRes State.accessDone (access s (r.va.setWidth 40)) := by
  simp only [State.dstream, State.translate, hp, ho, if_true]
  rfl

/-- What R241 (a), (b), (h) and (i) ask has not been done. -/
theorem State.dstream_phys_owed (hp : r.phys = true) (ho : s.orderKept r.write = false) :
    s.dstream r access = .refused .cboxOrder := by
  simp only [State.dstream, State.translate, hp, ho, if_true]
  rfl

theorem State.loadAt_cbox {locked : Bool} {t : LoadTarget} {pa : PAddr} (hq : r.quad = true)
    (hr : regionOf (pa &&& ~~~7#40) = .cbox) : s.loadAt r locked t pa = s.loadCbox true locked t (pa &&& ~~~7#40) := by
  simp only [State.loadAt, State.accessAddress, hq, hr, if_true]

theorem State.storeAt_cbox {pa : PAddr} {v : Word} (hq : r.quad = true) (hr : regionOf (pa &&& ~~~7#40) = .cbox) :
    s.storeAt r pa v = s.storeCbox true (pa &&& ~~~7#40) v := by
  simp only [State.storeAt, State.accessAddress, hq, hr, if_true]

end

/-! ## Physical quadword HW_LD and HW_ST in the region (R681, R682) -/

section
variable {s : State} {ra rb : RegNum} {disp : BitVec 10}

theorem exec_hwLd_phys (hs : s.palAllowed = true) :
    exec (.hwLd ra rb true false false true false false disp) s =
      s.load (hwLdRef (s.hwAddr rb disp) ra true false false true false) false (.int (s.intSlot ra) false) :=
  palGate_on hs fun s => s.loadInt (hwLdRef (s.hwAddr rb disp) ra true false false true false) false

theorem exec_hwSt_phys (hs : s.palAllowed = true) :
    exec (.hwSt ra rb true false false true false false disp) s =
      s.store (hwStRef (s.hwAddr rb disp) ra true false true) (s.readInt ra) :=
  palGate_on hs fun s => s.store (hwStRef (s.hwAddr rb disp) ra true false true) (s.readInt ra)

theorem exec_hwLd_owed (hs : s.palAllowed = true) (ho : s.orderKept false = false) :
    exec (.hwLd ra rb true false false true false false disp) s = .refused .cboxOrder :=
  (exec_hwLd_phys hs).trans (State.dstream_phys_owed rfl ho)

theorem exec_hwLd_cbox (hs : s.palAllowed = true) (ho : s.orderKept false = true)
    (hr : regionOf ((s.hwAddr rb disp).setWidth 40 &&& ~~~7#40) = .cbox) :
    exec (.hwLd ra rb true false false true false false disp) s =
      mapRes State.accessDone
        (s.loadCbox true false (.int (s.intSlot ra) false) ((s.hwAddr rb disp).setWidth 40 &&& ~~~7#40)) :=
  (exec_hwLd_phys hs).trans ((State.dstream_phys rfl ho).trans (congrArg _ (State.loadAt_cbox rfl hr)))

theorem exec_hwSt_cbox (hs : s.palAllowed = true) (ho : s.orderKept true = true)
    (hr : regionOf ((s.hwAddr rb disp).setWidth 40 &&& ~~~7#40) = .cbox) :
    exec (.hwSt ra rb true false false true false false disp) s =
      mapRes State.accessDone (s.storeCbox true ((s.hwAddr rb disp).setWidth 40 &&& ~~~7#40) (s.readInt ra)) :=
  (exec_hwSt_phys hs).trans ((State.dstream_phys rfl ho).trans (congrArg _ (State.storeAt_cbox rfl hr)))

/-- An address of the region that is none of the nine faults (R240). -/
theorem exec_hwLd_nowhere (hs : s.palAllowed = true) (ho : s.orderKept false = true)
    (hge : 0xFFFFF00000 ≤ ((s.hwAddr rb disp).setWidth 40).toNat)
    (hn : ∀ r ∈ CboxReg.all, ((s.hwAddr rb disp).setWidth 40).toNat / 8 ≠ r.address.toNat / 8) :
    exec (.hwLd ra rb true false false true false false disp) s = .fault .cboxNoSuchRegister := by
  rw [exec_hwLd_cbox hs ho (regionOf_quadword hge), State.loadCbox, cboxReg_eq_none hn]
  rfl

theorem exec_hwSt_nowhere (hs : s.palAllowed = true) (ho : s.orderKept true = true)
    (hge : 0xFFFFF00000 ≤ ((s.hwAddr rb disp).setWidth 40).toNat)
    (hn : ∀ r ∈ CboxReg.all, ((s.hwAddr rb disp).setWidth 40).toNat / 8 ≠ r.address.toNat / 8) :
    exec (.hwSt ra rb true false false true false false disp) s = .fault .cboxNoSuchRegister := by
  rw [exec_hwSt_cbox hs ho (regionOf_quadword hge), State.storeCbox, cboxReg_eq_none hn]
  rfl

theorem regionOf_register {a : PAddr} {r : CboxReg} (ha : a = r.address) : regionOf (a &&& ~~~7#40) = .cbox := by
  rw [ha, r.address_aligned, regionOf_address]

theorem cboxReg_register {a : PAddr} {r : CboxReg} (ha : a = r.address) : cboxReg (a &&& ~~~7#40) = some r := by
  rw [ha, r.address_aligned, cboxReg_address]

theorem exec_hwSt_register {r : CboxReg} (hs : s.palAllowed = true) (ho : s.orderKept true = true)
    (ha : (s.hwAddr rb disp).setWidth 40 = r.address) :
    exec (.hwSt ra rb true false false true false false disp) s =
      mapRes State.accessDone (s.cboxWrite r (s.readInt ra)) := by
  rw [exec_hwSt_cbox hs ho (regionOf_register ha), State.storeCbox, cboxReg_register ha]
  rfl

theorem exec_hwLd_allocCyc {r : CboxReg} (hs : s.palAllowed = true) (ho : s.orderKept false = true)
    (ha : (s.hwAddr rb disp).setWidth 40 = r.address) (hc : s.allocCyc = true) :
    exec (.hwLd ra rb true false false true false false disp) s = .refused .cboxReadWithAllocCyc := by
  rw [exec_hwLd_cbox hs ho (regionOf_register ha), State.loadCbox, cboxReg_register ha]
  simp only [hc, if_true]
  rfl

/-! ## What a load of a register leaves -/

theorem State.payRead_eq (r : CboxReg) :
    s.payRead r = { s with owed := if s.owed = .read false ∧ r = .scStat ∨ s.owed = .read true ∧ r = .eiStat
      then .mbBeforeStore else s.owed } := by
  unfold State.payRead
  split <;> rfl

theorem State.cboxAfterRead_eq (r : CboxReg) : s.cboxAfterRead r = { s with cbox := (s.cboxAfterRead r).cbox } := by
  cases r <;> rfl

/-- The state in which the datum of a load of a register is delivered. -/
def State.cboxPaid (s : State) (r : CboxReg) : State :=
  { s with
    cbox := (s.cboxAfterRead r).cbox, freeCount := s.freeCount + 1, afterMb := false
    owed := if s.owed = .read false ∧ r = .scStat ∨ s.owed = .read true ∧ r = .eiStat then .mbBeforeStore else s.owed }

theorem State.payRead_cboxRead (r : CboxReg) : { (s.cboxRead r).2.payRead r with afterMb := false } = s.cboxPaid r := by
  rw [State.cboxRead, State.cboxAfterRead_eq, State.payRead_eq]
  rfl

theorem State.accessDone_writeSlot (u : State) (slot : IntSlot) (v : Word) :
    (u.writeSlot slot v).accessDone = (State.writeSlot { u with afterMb := false } slot v).advance := by
  cases slot <;> rfl

theorem exec_hwLd_register {r : CboxReg} (hs : s.palAllowed = true) (ho : s.orderKept false = true)
    (ha : (s.hwAddr rb disp).setWidth 40 = r.address) (hc : s.allocCyc = false) :
    exec (.hwLd ra rb true false false true false false disp) s =
      .next ((s.cboxPaid r).writeInt ra (s.cboxRead r).1).advance := by
  rw [exec_hwLd_cbox hs ho (regionOf_register ha), State.loadCbox, cboxReg_register ha]
  simp only [hc, Bool.false_eq_true, if_false, mapRes, State.deliver, pick, if_true]
  rw [State.accessDone_writeSlot, State.payRead_cboxRead]
  rfl

/-- The stated bits of a register are read as they are, whatever the free bits. -/
theorem State.cboxRead_and {r : CboxReg} {known mask : Word} (hm : (s.cboxView r).2 &&& mask = mask)
    (hv : (s.cboxView r).1 &&& mask = known &&& mask) : (s.cboxRead r).1 &&& mask = known &&& mask := by
  rw [← hv, ← hm, ← BitVec.and_assoc, ← BitVec.and_assoc]
  exact congrArg (· &&& mask) (mergeBits_and ..)

/-- A load of a register of which `known` is stated under `mask`, and which leaves the Cbox registers `c`. -/
theorem exec_hwLd_stated (r : CboxReg) {known mask : Word} {c : Cbox} (hs : s.palAllowed = true)
    (ho : s.orderKept false = true) (hm : (s.cboxView r).2 &&& mask = mask)
    (hv : (s.cboxView r).1 &&& mask = known &&& mask) (hcbox : (s.cboxAfterRead r).cbox = c)
    (ha : (s.hwAddr rb disp).setWidth 40 = r.address) :
    (s.allocCyc = true →
      exec (.hwLd ra rb true false false true false false disp) s = .refused .cboxReadWithAllocCyc) ∧
    (s.allocCyc = false →
      ∃ t v, exec (.hwLd ra rb true false false true false false disp) s = .next t ∧ s.intWrite t ra v ∧
        v &&& mask = known &&& mask ∧ t.cbox = c ∧ t.pc = s.pc + 4#64 ∧
        t.owed = (if s.owed = .read false ∧ r.address = 0xFFFFF000E8#40 ∨ s.owed = .read true ∧ r.address = 0xFFFFF00168#40
          then .mbBeforeStore else s.owed) ∧ t.afterMb = false ∧
        { t with
          ints := s.ints, shadow := s.shadow, pc := s.pc, cbox := s.cbox, freeCount := s.freeCount, owed := s.owed
          afterMb := s.afterMb } = s) := by
  refine ⟨exec_hwLd_allocCyc hs ho ha, fun hc => ⟨_, _, exec_hwLd_register hs ho ha hc,
    intWrite_of_same s ra _ rfl rfl rfl rfl, State.cboxRead_and hm hv, ?cbox, ?pc, ?owed, ?afterMb, ?frame⟩⟩
  case cbox => simpa [State.cboxPaid] using hcbox
  case pc => simp [State.cboxPaid]
  case owed =>
    have hsc : r.address = 0xFFFFF000E8#40 ↔ r = .scStat := CboxReg.address_inj (r := .scStat)
    have hei : r.address = 0xFFFFF00168#40 ↔ r = .eiStat := CboxReg.address_inj (r := .eiStat)
    simp only [hsc, hei, State.advance_owed, State.writeInt_owed]
    rfl
  case afterMb => simp [State.cboxPaid]
  case frame =>
    have h := (s.cboxPaid r).writeInt_frame ra (s.cboxRead r).1
    exact congrArg (fun u : State => { u with
      pc := s.pc, cbox := s.cbox, freeCount := s.freeCount, owed := s.owed, afterMb := s.afterMb }) h

end

/-! ## The seven registers that can be read -/

/-- BC_TAG_ADDR without its unused bits, as R253 counts them from BC_SIZE. -/
theorem State.bcUnusedTag_eq (s : State) :
    s.bcUnusedTag = BitVec.ofNat 64 ((2 ^ ((s.cbox.bcConfig.extractLsb' 0 3).toNat - 1) - 1) * 2 ^ 20) := by
  unfold State.bcUnusedTag State.bcUnused State.bcSize
  generalize s.cbox.bcConfig.extractLsb' 0 3 = size
  revert size
  decide

/-- EI_STAT<35:28> stand above CHIP_ID, which reads as 4 (R246). -/
theorem eiStat_stated (stat : BitVec 8) :
    place (stat ++ 4#4) 24 &&& 0xFF0000000#64 = stat.setWidth 64 <<< 28 &&& 0xFF0000000#64 := by
  revert stat
  decide

/-- Reading EI_STAT with a correctable and a hard error recorded clears the correctable bit only, any other read all of it
with the locks (R254). -/
theorem State.cboxAfterRead_eiStat (s : State) : (s.cboxAfterRead .eiStat).cbox =
    if s.cbox.eiStat.getLsbD 3 = true ∧ s.cbox.eiStat &&& 0x33#8 ≠ 0#8 then
      { s.cbox with eiStat := s.cbox.eiStat &&& 0xF7#8 }
    else { s.cbox with eiStat := 0#8, eiLock := false, bcTagLock := false } := by
  simp only [State.cboxAfterRead, eiAfterRead, Bool.and_eq_true, bne_iff_ne]
  split <;> rfl

theorem State.orderKept_load {s : State} (hmb : s.owed ≠ .mb) (hread : ∀ ei, s.owed ≠ .mbThenRead ei) :
    s.orderKept false = true := by
  unfold State.orderKept
  split
  · rfl
  · exact absurd ‹_› hmb
  · exact absurd ‹_› (hread _)
  · rfl
  · rfl

/-- Settles O45: each register by `exec_hwLd_stated`, from its stated bits and what reading it does. -/
theorem cboxLoads : Obligations.CboxLoads := by
  intro ra rb disp s hpal a ld
  have hs : s.palAllowed = true := s.palAllowed_iff.2 hpal
  refine ⟨fun h => exec_hwLd_owed hs ?mbOwed, fun hmb hread => ?_⟩
  case mbOwed => rcases h with ⟨ei, h⟩ | h <;> rw [State.orderKept, h]
  have ho := State.orderKept_load hmb hread
  refine ⟨?rows, exec_hwLd_nowhere hs ho⟩
  rw [List.forall_mem_cons, List.forall_mem_cons, List.forall_mem_cons, List.forall_mem_cons, List.forall_mem_cons,
    List.forall_mem_cons, List.forall_mem_singleton]
  refine ⟨?scCtl, ?scStat, ?scAddr, ?bcTagAddr, ?eiStat, ?eiAddr, ?fillSyn⟩
  case scCtl => exact exec_hwLd_stated .scCtl hs ho (BitVec.and_self ..) rfl rfl
  case scStat => exact exec_hwLd_stated .scStat hs ho (BitVec.and_self ..) rfl rfl
  case scAddr => exact exec_hwLd_stated .scAddr hs ho (BitVec.and_self ..) rfl rfl
  case bcTagAddr =>
    rw [← s.bcUnusedTag_eq]
    exact exec_hwLd_stated .bcTagAddr hs ho (BitVec.and_self ..) rfl rfl
  case eiStat =>
    have hm : 0xFFF000000#64 &&& 0xFF0000000#64 = 0xFF0000000#64 := by decide
    exact exec_hwLd_stated .eiStat hs ho hm (eiStat_stated _) s.cboxAfterRead_eiStat
  case eiAddr => exact exec_hwLd_stated .eiAddr hs ho (BitVec.and_self ..) rfl rfl
  case fillSyn => exact exec_hwLd_stated .fillSyn hs ho (BitVec.and_self ..) rfl rfl

end Sys2Proof.Machine
end

section
/-! Stores to the Cbox registers: the conditions of R242, R248, R251 and R252 as propositions, the order of R241, SC_FLUSH, and
each register's store by the branches of its write. Which values are refused by name, and the order of the refusals, is log 24;
that an MB stays owed after a change is log 20. -/

namespace Sys2Proof.Machine

/-! ## Legal values (R242, R250 to R252, R418, R420) -/

theorem scSetOk_iff (v : Word) :
    scSetOk v = true ↔ v.extractLsb' 13 3 ∈ [1#3, 2#3, 4#3] ∨ v.extractLsb' 13 3 = 7#3 ∧ v.getLsbD 0 = false := by
  simp [scSetOk, field, or_assoc]

/-- A Bcache of this size at these speeds can be fitted (R251, R418). -/
def SpeedsInRange (big : Bool) (config : BitVec 29) : Prop :=
  config.extractLsb' 0 3 ≠ 0#3 ∧ 4 ≤ (config.extractLsb' 4 4).toNat ∧ 4 ≤ (config.extractLsb' 8 4).toNat ∧
  (config.extractLsb' 4 4).toNat < (config.extractLsb' 8 4).toNat + 4 ∧
  (config.extractLsb' 8 4).toNat < (config.extractLsb' 4 4).toNat + 4 ∧ (big = true ∨ 5 ≤ (config.extractLsb' 4 4).toNat)

/-- It can be enabled as well (R250, R420). -/
def EnabledInRange (big : Bool) (control config : BitVec 29) : Prop :=
  SpeedsInRange big config ∧ (control.extractLsb' 17 2).toNat + 4 ≤ (config.extractLsb' 4 4).toNat ∧
  (big = true ∨ (control.extractLsb' 17 2).toNat = 0)

/-- A value that a system without a Bcache may give BC_CONFIG (R252). -/
def AbsentInRange (ratio : BitVec 4) (config : BitVec 29) : Prop :=
  config.extractLsb' 4 4 = ratio ∧ config.extractLsb' 8 4 = ratio ∧ config.extractLsb' 0 3 ∈ [0#3, 1#3, 2#3, 4#3]

theorem bcRangesOk_iff (big : Bool) (config : BitVec 29) : bcRangesOk big config = true ↔ SpeedsInRange big config := by
  simp only [bcRangesOk, SpeedsInRange, Bool.and_eq_true, Bool.or_eq_true, bne_iff_ne, decide_eq_true_eq, and_assoc]

theorem bcSpeedsOk_iff (big : Bool) (control config : BitVec 29) :
    bcSpeedsOk big control config = true ↔ EnabledInRange big control config := by
  simp only [bcSpeedsOk, EnabledInRange, bcRangesOk_iff, Bool.and_eq_true, Bool.or_eq_true, decide_eq_true_eq, beq_iff_eq,
    and_assoc]

theorem bcNoneOk_iff (ratio : BitVec 4) (config : BitVec 29) :
    bcNoneOk ratio config = true ↔ AbsentInRange ratio config := by
  simp only [bcNoneOk, AbsentInRange, Bool.and_eq_true, beq_iff_eq, List.contains_iff_mem, and_assoc]

/-- The check of the speeds refuses only where the Bcache is enabled, by the old value or the new one of BC_CONTROL. -/
theorem speedsRefused_iff (enabled big : Bool) (control config : BitVec 29) :
    (enabled && !bcSpeedsOk big control config) = true ↔ ¬ (enabled = true → EnabledInRange big control config) := by
  rw [Bool.and_eq_true, Bool.not_eq_true', ← bcSpeedsOk_iff, Classical.not_imp, Bool.not_eq_true]

section
variable {s : State} {v : Word}

theorem State.bcConfigOk_iff (s : State) (config : BitVec 29) : s.bcConfigOk config = true ↔
    if s.cbox.bcControl.getLsbD 0 then EnabledInRange (s.cbox.scCtl.getLsbD 12) s.cbox.bcControl config
    else AbsentInRange s.pins.sysclkRatio config ∨
      s.pins.bcacheSize ≠ 0#3 ∧ SpeedsInRange (s.cbox.scCtl.getLsbD 12) config := by
  rw [State.bcConfigOk, State.bcEnabled]
  split
  · exact bcSpeedsOk_iff ..
  · rw [Bool.or_eq_true, Bool.and_eq_true, bcNoneOk_iff, bcRangesOk_iff, State.bcPresent, bne_iff_ne]
    rfl

/-! ## The order of R241 -/

/-- A store that changes a bit without the MB before it. -/
theorem State.ordered_late {same : Bool} {run : Res State} (hsame : same = false) (hmb : s.afterMb = false) :
    mapRes State.accessDone (s.ordered same run) = .refused .cboxOrder := by
  rw [State.ordered, hsame, hmb]
  rfl

/-- What the instruction leaves whose store gave `u`, where nothing was owed. -/
theorem State.accessDone_owe {u : State} {same clears ei : Bool} {changed ends : Prop} [Decidable changed] [Decidable ends]
    (hu : u.owed = .nothing) (hsame : same = false ↔ changed) (hends : clears = true ↔ ends) :
    (u.owe same clears ei).accessDone = { u with
      pc := u.pc + 4#64, afterMb := false
      owed := if changed then (if ends then .mbThenRead ei else .mb) else .nothing } := by
  simp only [← hsame, ← hends]
  cases same with
  | true =>
    rw [← hu]
    rfl
  | false => rfl

/-- A store that changes no bit, or comes after an MB. -/
theorem State.ordered_kept {u : State} {same clears ei : Bool} {changed ends : Prop} [Decidable changed] [Decidable ends]
    (hu : u.owed = .nothing) (hpc : u.pc = s.pc) (hsame : same = false ↔ changed) (hends : clears = true ↔ ends)
    (hmb : changed → s.afterMb = true) :
    mapRes State.accessDone (s.ordered same (.next (u.owe same clears ei))) = .next { u with
      pc := s.pc + 4#64, afterMb := false
      owed := if changed then (if ends then .mbThenRead ei else .mb) else .nothing } := by
  have hrun : (same || s.afterMb) = true := by
    cases same with
    | true => rfl
    | false => exact hmb (hsame.1 rfl)
  rw [State.ordered, if_pos hrun, ← hpc]
  exact congrArg Host.Outcome.next (State.accessDone_owe hu hsame hends)

/-- A force-hit mode ends. -/
theorem modeEnds_iff (before after : Bool) : (before && !after) = true ↔ before = true ∧ after = false := by
  rw [Bool.and_eq_true, Bool.not_eq_true']

/-! ## SC_CTL (R242, R380) -/

theorem ScLine.holds_flushed (l : ScLine) (b : Block) : l.flushed.holds b = false := by
  have hsub : (l.flushed.sub b).valid = false := by
    rw [ScLine.sub]
    split <;> rfl
  rw [ScLine.holds, hsub, Bool.and_false]

theorem State.scFind_flushed {lines : List ScLine} (h : s.scache = lines.map ScLine.flushed) (b : Block) :
    s.scFind b = none := by
  rw [State.scFind, h, List.find?_eq_none]
  intro l hl
  obtain ⟨k, -, rfl⟩ := List.mem_map.1 hl
  simp [ScLine.holds_flushed]

theorem State.dcByte_dcFlush (s : State) (bank1 : Bool) (x : PAddr) : s.dcFlush.dcByte bank1 x = none := by
  have hbank : s.dcFlush.dcache.bank bank1 =
      (s.dcache.bank bank1).map fun l => { l with valid0 := false, valid1 := false } := by cases bank1 <;> rfl
  have hline := dcGet_map (f := fun l => { l with valid0 := false, valid1 := false }) (fun _ => rfl) (fun _ => rfl)
    (dcIndex x) (s.dcache.bank bank1)
  simp [State.dcByte, hbank, hline, DcLine.hits]

/-- The state in which SC_CTL has its new value, and SC_FLUSH its effect. -/
def State.scCtlStored (s : State) (v : Word) : State :=
  let t : State := { s with cbox := { s.cbox with scCtl := v.setWidth 16 } }
  if v.getLsbD 1 then t.scFlush else t

theorem State.scCtlStored_frame (s : State) (v : Word) :
    { s.scCtlStored v with scache := s.scache, dcache := s.dcache } =
      { s with cbox := { s.cbox with scCtl := v.setWidth 16 } } := by
  unfold State.scCtlStored
  dsimp only
  split <;> rfl

theorem State.scCtlStored_of_kept (h : v.getLsbD 1 = false) :
    s.scCtlStored v = { s with cbox := { s.cbox with scCtl := v.setWidth 16 } } := by
  rw [State.scCtlStored, h]
  rfl

theorem State.scCtlStored_scache (h : v.getLsbD 1 = true) :
    (s.scCtlStored v).scache = s.scache.map ScLine.flushed := by
  rw [State.scCtlStored, h]
  rfl

theorem State.scCtlStored_dcache (h : v.getLsbD 1 = true) : (s.scCtlStored v).dcache = s.dcFlush.dcache := by
  rw [State.scCtlStored, h]
  rfl

theorem State.scCtlStored_mbox (s : State) (v : Word) : (s.scCtlStored v).mbox = s.mbox := by
  have h := congrArg State.mbox (s.scCtlStored_frame v)
  exact h

theorem State.scCtlStored_owed (s : State) (v : Word) : (s.scCtlStored v).owed = s.owed := by
  have h := congrArg State.owed (s.scCtlStored_frame v)
  exact h

theorem State.scCtlStored_pc (s : State) (v : Word) : (s.scCtlStored v).pc = s.pc := by
  have h := congrArg State.pc (s.scCtlStored_frame v)
  exact h

theorem State.writeScCtl_mustBeZero (hz : field v 16 3 ≠ 0#3) : s.writeScCtl v = .refused .mustBeZeroBit := if_pos hz

theorem State.writeScCtl_setEnable (hz : ¬ field v 16 3 ≠ 0#3) (hset : ¬ scSetOk v = true) :
    s.writeScCtl v = .refused .scacheSetEnable := by
  rw [State.writeScCtl, if_neg hz, if_pos (by simpa using hset)]

theorem State.writeScCtl_bcacheConfig (hz : ¬ field v 16 3 ≠ 0#3) (hset : scSetOk v = true)
    (hr : (s.bcEnabled && !bcSpeedsOk (v.getLsbD 12) s.cbox.bcControl s.cbox.bcConfig) = true) :
    s.writeScCtl v = .refused .bcacheConfig := by
  rw [State.writeScCtl, if_neg hz, if_neg (by simpa using hset), if_pos hr]

theorem State.writeScCtl_legal (hz : ¬ field v 16 3 ≠ 0#3) (hset : scSetOk v = true)
    (hr : ¬ (s.bcEnabled && !bcSpeedsOk (v.getLsbD 12) s.cbox.bcControl s.cbox.bcConfig) = true) :
    s.writeScCtl v = s.ordered (v.setWidth 16 == s.cbox.scCtl)
      (.next ((s.scCtlStored v).owe (v.setWidth 16 == s.cbox.scCtl) (s.scFhit && !v.getLsbD 0) false)) := by
  rw [State.writeScCtl, if_neg hz, if_neg (by simpa using hset), if_neg hr]
  rfl

/-! ## BC_CONTROL (R248) -/

theorem State.writeBcControl_mustBeZero (hz : v.getLsbD 25 = true ∨ v.getLsbD 27 = true) :
    s.writeBcControl v = .refused .mustBeZeroBit := if_pos (by simpa using hz)

theorem State.writeBcControl_tagStat (hz : ¬ (v.getLsbD 25 = true ∨ v.getLsbD 27 = true))
    (ht : field v 8 5 ≠ 0#5 ∧ v.getLsbD 7 = false) : s.writeBcControl v = .refused .bcacheTagStat := by
  rw [State.writeBcControl, if_neg (by simpa using hz), if_pos ht]

theorem State.writeBcControl_bcacheConfig (hz : ¬ (v.getLsbD 25 = true ∨ v.getLsbD 27 = true))
    (ht : ¬ (field v 8 5 ≠ 0#5 ∧ v.getLsbD 7 = false))
    (hr : (v.getLsbD 0 && !bcSpeedsOk s.bigBlocks (v.setWidth 29) s.cbox.bcConfig) = true) :
    s.writeBcControl v = .refused .bcacheConfig := by
  rw [State.writeBcControl, if_neg (by simpa using hz), if_neg ht, if_pos hr]

theorem State.writeBcControl_legal (hz : ¬ (v.getLsbD 25 = true ∨ v.getLsbD 27 = true))
    (ht : ¬ (field v 8 5 ≠ 0#5 ∧ v.getLsbD 7 = false))
    (hr : ¬ (v.getLsbD 0 && !bcSpeedsOk s.bigBlocks (v.setWidth 29) s.cbox.bcConfig) = true) :
    s.writeBcControl v = s.ordered (v.setWidth 29 == s.cbox.bcControl)
      (.next (State.owe { s with cbox := { s.cbox with
          bcControl := v.setWidth 29
          bcTagLock := s.cbox.bcTagLock && !(v.getLsbD 7 && !s.cbox.bcControl.getLsbD 7) } }
        (v.setWidth 29 == s.cbox.bcControl) (s.cbox.bcControl.getLsbD 7 && !v.getLsbD 7) true)) := by
  rw [State.writeBcControl, if_neg (by simpa using hz), if_neg ht, if_neg hr]

/-! ## BC_CONFIG (R251, R252) -/

theorem State.writeBcConfig_mustBeZero (hz : v.getLsbD 3 = true ∨ v.getLsbD 15 = true ∨ v.getLsbD 19 = true) :
    s.writeBcConfig v = .refused .mustBeZeroBit := if_pos (by simpa [or_assoc] using hz)

theorem State.writeBcConfig_bcacheConfig (hz : ¬ (v.getLsbD 3 = true ∨ v.getLsbD 15 = true ∨ v.getLsbD 19 = true))
    (hr : ¬ s.bcConfigOk (v.setWidth 29) = true) : s.writeBcConfig v = .refused .bcacheConfig := by
  rw [State.writeBcConfig, if_neg (by simpa [or_assoc] using hz), if_pos (by simpa using hr)]

theorem State.writeBcConfig_legal (hz : ¬ (v.getLsbD 3 = true ∨ v.getLsbD 15 = true ∨ v.getLsbD 19 = true))
    (hr : s.bcConfigOk (v.setWidth 29) = true) :
    s.writeBcConfig v = s.ordered (v.setWidth 29 == s.cbox.bcConfig)
      (.next (State.owe { s with cbox := { s.cbox with bcConfig := v.setWidth 29 } }
        (v.setWidth 29 == s.cbox.bcConfig) false false)) := by
  rw [State.writeBcConfig, if_neg (by simpa [or_assoc] using hz), if_neg (by simpa using hr)]

end

/-! ## The nine registers -/

/-- A store to a read-only register is ignored (D4). -/
theorem exec_hwSt_readOnly {s : State} {ra rb : RegNum} {disp : BitVec 10} {r : CboxReg} (hs : s.palAllowed = true)
    (ho : s.orderKept true = true) (hr : s.cboxWrite r (s.readInt ra) = .next s)
    (ha : (s.hwAddr rb disp).setWidth 40 = r.address) :
    exec (.hwSt ra rb true false false true false false disp) s = .next { s with pc := s.pc + 4#64, afterMb := false } := by
  rw [exec_hwSt_register hs ho ha, hr]
  rfl

/-- Settles O46: the store to each register by the branches of its write, the legal ones by the order of R241. -/
theorem cboxStores : Obligations.CboxStores := by
  intro ra rb disp s hpal hn a st v stored speeds enabledOk big
  have hs : s.palAllowed = true := s.palAllowed_iff.2 hpal
  have ho : s.orderKept true = true := by rw [State.orderKept, hn]
  refine ⟨?scCtl, ?bcControl, ?bcConfig, ?readOnly, exec_hwSt_nowhere hs ho⟩
  case scCtl =>
    intro ha mbz legal inRange changed
    have hst : st = mapRes State.accessDone (s.writeScCtl v) := exec_hwSt_register (r := .scCtl) hs ho ha
    have hset : scSetOk v = true ↔ legal := scSetOk_iff v
    have hrange := speedsRefused_iff s.bcEnabled (v.getLsbD 12) s.cbox.bcControl s.cbox.bcConfig
    have hwrite (hz : ¬ mbz) (hl : legal) (hr : inRange) :=
      hst.trans (congrArg _ (State.writeScCtl_legal hz (hset.2 hl) fun h => hrange.1 h hr))
    refine ⟨fun hz => ?_, fun hz hl => ?_, fun hz hl hr => ?_, fun hz hl hr hc hmb => ?_, fun hz hl hr hmb => ?_⟩
    · exact hst.trans (congrArg _ (State.writeScCtl_mustBeZero hz))
    · exact hst.trans (congrArg _ (State.writeScCtl_setEnable hz (mt hset.1 hl)))
    · exact hst.trans (congrArg _ (State.writeScCtl_bcacheConfig hz (hset.2 hl) (hrange.2 hr)))
    · exact (hwrite hz hl hr).trans (State.ordered_late (beq_eq_false_iff_ne.2 hc) hmb)
    · refine ⟨_, (hwrite hz hl hr).trans (State.ordered_kept ((s.scCtlStored_owed v).trans hn) (s.scCtlStored_pc v)
        beq_eq_false_iff_ne (modeEnds_iff ..) hmb), ?frame, fun hf => ?kept,
        fun hf => ⟨fun b => ?noBlock, fun bank1 x => ?noByte⟩⟩
      case frame =>
        exact congrArg (stored changed (s.cbox.scCtl.getLsbD 0 = true ∧ v.getLsbD 0 = false) false) (s.scCtlStored_frame v)
      case kept => simp [State.scCtlStored_of_kept hf]
      case noBlock => exact State.scFind_flushed (State.scCtlStored_scache hf) b
      case noByte =>
        exact (State.dcByte_congr (State.scCtlStored_dcache hf) (s.scCtlStored_mbox v) bank1 x).trans
          (s.dcByte_dcFlush bank1 x)
  case bcControl =>
    intro ha mbz tagStat inRange changed
    have hst : st = mapRes State.accessDone (s.writeBcControl v) := exec_hwSt_register (r := .bcControl) hs ho ha
    have hrange := speedsRefused_iff (v.getLsbD 0) s.bigBlocks (v.setWidth 29) s.cbox.bcConfig
    have hwrite (hz : ¬ mbz) (ht : ¬ tagStat) (hr : inRange) :=
      hst.trans (congrArg _ (State.writeBcControl_legal hz ht fun h => hrange.1 h hr))
    refine ⟨fun hz => ?_, fun hz ht => ?_, fun hz ht hr => ?_, fun hz ht hr hc hmb => ?_, fun hz ht hr hmb => ?_⟩
    · exact hst.trans (congrArg _ (State.writeBcControl_mustBeZero hz))
    · exact hst.trans (congrArg _ (State.writeBcControl_tagStat hz ht))
    · exact hst.trans (congrArg _ (State.writeBcControl_bcacheConfig hz ht (hrange.2 hr)))
    · exact (hwrite hz ht hr).trans (State.ordered_late (beq_eq_false_iff_ne.2 hc) hmb)
    · exact (hwrite hz ht hr).trans (State.ordered_kept hn rfl beq_eq_false_iff_ne (modeEnds_iff ..) hmb)
  case bcConfig =>
    intro ha c mbz absent inRange changed
    have hst : st = mapRes State.accessDone (s.writeBcConfig v) := exec_hwSt_register (r := .bcConfig) hs ho ha
    have hrange : s.bcConfigOk (v.setWidth 29) = true ↔ inRange := s.bcConfigOk_iff c
    have hwrite (hz : ¬ mbz) (hr : inRange) :=
      hst.trans (congrArg _ (State.writeBcConfig_legal hz (hrange.2 hr)))
    refine ⟨fun hz => ?_, fun hz hr => ?_, fun hz hr hc hmb => ?_, fun hz hr hmb => ?_⟩
    · exact hst.trans (congrArg _ (State.writeBcConfig_mustBeZero hz))
    · exact hst.trans (congrArg _ (State.writeBcConfig_bcacheConfig hz (mt hrange.1 hr)))
    · exact (hwrite hz hr).trans (State.ordered_late (beq_eq_false_iff_ne.2 hc) hmb)
    · exact (hwrite hz hr).trans (State.ordered_kept hn rfl beq_eq_false_iff_ne Bool.false_eq_true.to_iff hmb)
  case readOnly =>
    simp only [List.mem_cons, List.not_mem_nil, or_false]
    rintro (ha | ha | ha | ha | ha | ha)
    · exact exec_hwSt_readOnly (r := .scStat) hs ho rfl ha
    · exact exec_hwSt_readOnly (r := .scAddr) hs ho rfl ha
    · exact exec_hwSt_readOnly (r := .bcTagAddr) hs ho rfl ha
    · exact exec_hwSt_readOnly (r := .eiStat) hs ho rfl ha
    · exact exec_hwSt_readOnly (r := .eiAddr) hs ho rfl ha
    · exact exec_hwSt_readOnly (r := .fillSyn) hs ho rfl ha

end Sys2Proof.Machine
end

section
/-! The loads and stores of chapter 40 as the one reference that each makes, what a Dstream exception does to any of them, and the
step lemma of the invariants for main memory. -/

namespace Sys2Proof.Machine

/-- Settles O58: the step lemma of both invariants, for main memory. -/
theorem stepKeepsMemory : Obligations.StepKeepsMemory := fun s t hmem hstep => ((keepsRes_step s).of t hstep).1 hmem

/-! ## The reference of each instruction (R520 to R542) -/

section
variable {s : State} {ra rb : RegNum} {disp : BitVec 16}

theorem exec_ldl : exec (.ldl ra rb disp) s = s.loadInt (Ref.plain (s.effAddr rb disp) false false ra 0x28#6) false := rfl

theorem exec_ldq : exec (.ldq ra rb disp) s = s.loadInt (Ref.plain (s.effAddr rb disp) true false ra 0x29#6) false := rfl

/-- LDQ_U with a register other than R31 is a load (R525, R541). -/
theorem exec_ldqU (h : ra ≠ 31#5) :
    exec (.ldqU ra rb disp) s = s.loadInt (Ref.unaligned (s.effAddr rb disp) false ra 0x0B#6) false := if_neg h

theorem exec_ldlL : exec (.ldlL ra rb disp) s = s.loadInt (Ref.plain (s.effAddr rb disp) false false ra 0x2A#6) true := rfl

theorem exec_ldqL : exec (.ldqL ra rb disp) s = s.loadInt (Ref.plain (s.effAddr rb disp) true false ra 0x2B#6) true := rfl

theorem exec_stl : exec (.stl ra rb disp) s = s.store (Ref.plain (s.effAddr rb disp) false true ra 0x2C#6) (s.readInt ra) := rfl

theorem exec_stq : exec (.stq ra rb disp) s = s.store (Ref.plain (s.effAddr rb disp) true true ra 0x2D#6) (s.readInt ra) := rfl

theorem exec_stqU : exec (.stqU ra rb disp) s = s.store (Ref.unaligned (s.effAddr rb disp) true ra 0x0F#6) (s.readInt ra) := rfl

theorem exec_stlC : exec (.stlC ra rb disp) s = s.storeCond (Ref.plain (s.effAddr rb disp) false true ra 0x2E#6) (s.readInt ra) := rfl

theorem exec_stqC : exec (.stqC ra rb disp) s = s.storeCond (Ref.plain (s.effAddr rb disp) true true ra 0x2F#6) (s.readInt ra) := rfl

theorem exec_ldf (h : s.fpe = true) :
    exec (.ldf ra rb disp) s = s.loadFp (Ref.plain (s.effAddr rb disp) false false ra 0x20#6) .f :=
  fpGate_on h fun u => u.loadFp (Ref.plain (u.effAddr rb disp) false false ra 0x20#6) .f

theorem exec_ldg (h : s.fpe = true) :
    exec (.ldg ra rb disp) s = s.loadFp (Ref.plain (s.effAddr rb disp) true false ra 0x21#6) .g :=
  fpGate_on h fun u => u.loadFp (Ref.plain (u.effAddr rb disp) true false ra 0x21#6) .g

theorem exec_lds (h : s.fpe = true) :
    exec (.lds ra rb disp) s = s.loadFp (Ref.plain (s.effAddr rb disp) false false ra 0x22#6) .s :=
  fpGate_on h fun u => u.loadFp (Ref.plain (u.effAddr rb disp) false false ra 0x22#6) .s

theorem exec_ldt (h : s.fpe = true) :
    exec (.ldt ra rb disp) s = s.loadFp (Ref.plain (s.effAddr rb disp) true false ra 0x23#6) .t :=
  fpGate_on h fun u => u.loadFp (Ref.plain (u.effAddr rb disp) true false ra 0x23#6) .t

theorem exec_stf (h : s.fpe = true) :
    exec (.stf ra rb disp) s = s.store (Ref.plain (s.effAddr rb disp) false true ra 0x24#6) (toMemF (s.readFp ra)) :=
  fpGate_on h fun u => u.store (Ref.plain (u.effAddr rb disp) false true ra 0x24#6) (toMemF (u.readFp ra))

theorem exec_stg (h : s.fpe = true) :
    exec (.stg ra rb disp) s = s.store (Ref.plain (s.effAddr rb disp) true true ra 0x25#6) (swapWords (s.readFp ra)) :=
  fpGate_on h fun u => u.store (Ref.plain (u.effAddr rb disp) true true ra 0x25#6) (swapWords (u.readFp ra))

theorem exec_sts (h : s.fpe = true) :
    exec (.sts ra rb disp) s = s.store (Ref.plain (s.effAddr rb disp) false true ra 0x26#6) (toMemS (s.readFp ra)) :=
  fpGate_on h fun u => u.store (Ref.plain (u.effAddr rb disp) false true ra 0x26#6) (toMemS (u.readFp ra))

theorem exec_stt (h : s.fpe = true) :
    exec (.stt ra rb disp) s = s.store (Ref.plain (s.effAddr rb disp) true true ra 0x27#6) (s.readFp ra) :=
  fpGate_on h fun u => u.store (Ref.plain (u.effAddr rb disp) true true ra 0x27#6) (u.readFp ra)

end

/-! ## Dstream exceptions (R312, R703) -/

/-- What an instruction that answers `res` does whose reference ends in an exception: the capture, unless VA and MM_STAT are locked,
then the precise entry. -/
def State.dstreamExcepts (s : State) (res : Res State) (r : Ref) (e : Entry) (bits : MmBits) : Prop :=
  ∃ t u, res = .next t ∧
    u = (if s.mbox.mmLock = true then s
      else { s with mbox := { s.mbox with va := r.va, mmStat := r.opcode ++ (r.ra ++ bits), mmLock := true } }) ∧
    u.trapped t e.offset s.pc

/-- Every reference whose translation answers an exception ends so, whatever its access would have done. -/
theorem State.dstreamExcepts_of_eq {s : State} {res : Res State} {r : Ref} {e : Entry} {bits : MmBits}
    {access : State → PAddr → Res State} (hres : res = s.dstream r access) (h : s.translate r = .except e bits) :
    s.dstreamExcepts res r e bits := by
  refine ⟨s.mmTrap r e bits, s.captureMm r.va bits r.ra r.opcode, ?_, rfl, ?_⟩
  · rw [hres, State.dstream, h]
  · have htrap := trapped_precise (s.captureMm r.va bits r.ra r.opcode) e
    rwa [State.captureMm_pc] at htrap

theorem State.dstreamExcepts_loadInt {s : State} {res : Res State} {r : Ref} {locked : Bool} {e : Entry} {bits : MmBits}
    (hres : res = s.loadInt r locked) (h : s.translate r = .except e bits) : s.dstreamExcepts res r e bits :=
  State.dstreamExcepts_of_eq (access := fun u pa => u.loadAt r locked (.int (s.intSlot r.ra) (!r.quad)) pa) hres h

theorem State.dstreamExcepts_loadFp {s : State} {res : Res State} {r : Ref} {form : FpForm} {e : Entry} {bits : MmBits}
    (hres : res = s.loadFp r form) (h : s.translate r = .except e bits) : s.dstreamExcepts res r e bits :=
  State.dstreamExcepts_of_eq (access := fun u pa => u.loadAt r false (.fp r.ra form) pa) hres h

theorem State.dstreamExcepts_store {s : State} {res : Res State} {r : Ref} {v : Word} {e : Entry} {bits : MmBits}
    (hres : res = s.store r v) (h : s.translate r = .except e bits) : s.dstreamExcepts res r e bits :=
  State.dstreamExcepts_of_eq hres h

theorem State.dstreamExcepts_storeCond {s : State} {res : Res State} {r : Ref} {v : Word} {e : Entry} {bits : MmBits}
    (hres : res = s.storeCond r v) (h : s.translate r = .except e bits) : s.dstreamExcepts res r e bits :=
  State.dstreamExcepts_of_eq hres h

/-- Settles O18: each of the eighteen instructions is one reference. -/
theorem dstreamExceptions : Obligations.DstreamExceptions := by
  intro row hrow ra rb disp e bits s va hfpe hnop htr
  change s.dstreamExcepts (exec (row.2.1 ra rb disp) s)
    ⟨va, row.2.2.1, row.2.2.2.1, row.2.2.2.2.1, false, false, false, false, ra, row.1⟩ e bits
  simp only [List.mem_cons, List.not_mem_nil, or_false] at hrow
  obtain rfl | rfl | rfl | rfl | rfl | rfl | rfl | rfl | rfl | rfl | rfl | rfl | rfl | rfl | rfl | rfl | rfl | rfl := hrow
  · exact State.dstreamExcepts_loadInt exec_ldl htr
  · exact State.dstreamExcepts_loadInt exec_ldq htr
  · exact State.dstreamExcepts_loadInt (exec_ldqU (hnop rfl)) htr
  · exact State.dstreamExcepts_loadInt exec_ldlL htr
  · exact State.dstreamExcepts_loadInt exec_ldqL htr
  · exact State.dstreamExcepts_store exec_stl htr
  · exact State.dstreamExcepts_store exec_stq htr
  · exact State.dstreamExcepts_store exec_stqU htr
  · exact State.dstreamExcepts_storeCond exec_stlC htr
  · exact State.dstreamExcepts_storeCond exec_stqC htr
  · exact State.dstreamExcepts_loadFp (exec_ldf (hfpe rfl)) htr
  · exact State.dstreamExcepts_loadFp (exec_ldg (hfpe rfl)) htr
  · exact State.dstreamExcepts_loadFp (exec_lds (hfpe rfl)) htr
  · exact State.dstreamExcepts_loadFp (exec_ldt (hfpe rfl)) htr
  · exact State.dstreamExcepts_store (exec_stf (hfpe rfl)) htr
  · exact State.dstreamExcepts_store (exec_stg (hfpe rfl)) htr
  · exact State.dstreamExcepts_store (exec_sts (hfpe rfl)) htr
  · exact State.dstreamExcepts_store (exec_stt (hfpe rfl)) htr

end Sys2Proof.Machine
end


section
/-! Addresses as numbers: the sign check, pages under a granularity hint, the physical address of a hit; and the translation buffers'
lookups, where no entry covers a page or exactly one does. -/

namespace Sys2Proof.Machine

/-! ## Low bits (R305, R306, R310) -/

section
variable {w : Nat} (x : BitVec w) (k : Nat)

/-- Clearing the low `k` bits rounds down to a multiple of `2 ^ k`. -/
theorem toNat_clearLow : (x &&& ~~~BitVec.ofNat w (2 ^ k - 1)).toNat = x.toNat / 2 ^ k * 2 ^ k := by
  have hbits : x &&& ~~~BitVec.ofNat w (2 ^ k - 1) = x >>> k <<< k := by
    apply BitVec.eq_of_getLsbD_eq
    intro i hi
    simp only [BitVec.getLsbD_and, BitVec.getLsbD_not, BitVec.getLsbD_ofNat, Nat.testBit_two_pow_sub_one,
      BitVec.getLsbD_shiftLeft, BitVec.getLsbD_ushiftRight, hi, decide_true, Bool.true_and]
    by_cases hk : i < k
    · simp [hk]
    · simp [hk, show k + (i - k) = i by omega]
  have hle : x.toNat / 2 ^ k * 2 ^ k < 2 ^ w := (Nat.div_mul_le_self ..).trans_lt x.isLt
  rw [hbits, BitVec.toNat_shiftLeft, BitVec.toNat_ushiftRight, Nat.shiftLeft_eq, Nat.shiftRight_eq_div_pow,
    Nat.mod_eq_of_lt hle]

theorem toNat_keepLow (h : k ≤ w) : (x &&& BitVec.ofNat w (2 ^ k - 1)).toNat = x.toNat % 2 ^ k := by
  have hlt : 2 ^ k - 1 < 2 ^ w := by
    have := Nat.pow_le_pow_right (n := 2) (by decide) h
    have := Nat.two_pow_pos k
    omega
  rw [BitVec.toNat_and, BitVec.toNat_ofNat, Nat.mod_eq_of_lt hlt, Nat.and_two_pow_sub_one_eq_mod]

/-- Clearing the low bits takes away the remainder. -/
theorem clearLow_eq_sub : x &&& ~~~BitVec.ofNat w (2 ^ k - 1) = x - BitVec.ofNat w (x.toNat % 2 ^ k) := by
  have hle : x.toNat % 2 ^ k ≤ x.toNat := Nat.mod_le ..
  have hmod : x.toNat % 2 ^ k < 2 ^ w := hle.trans_lt x.isLt
  apply BitVec.eq_of_toNat_eq
  rw [toNat_clearLow, BitVec.toNat_sub_of_le (by rw [BitVec.le_def, BitVec.toNat_ofNat, Nat.mod_eq_of_lt hmod]; exact hle),
    BitVec.toNat_ofNat, Nat.mod_eq_of_lt hmod]
  have := Nat.div_add_mod' x.toNat (2 ^ k)
  omega

end

/-! ## The sign check (R301) -/

theorem signOk_iff (va : Word) : signOk va = true ↔ -(2 ^ 42) ≤ va.toInt ∧ va.toInt < 2 ^ 42 := by
  rw [signOk, beq_iff_eq, ← BitVec.toInt_inj, BitVec.toInt_signExtend_of_le (by decide), BitVec.toInt_setWidth,
    BitVec.toInt_eq_toNat_bmod, Int.bmod_def, Int.bmod_def]
  have := va.isLt
  omega

/-! ## Pages (R308, R310) -/

theorem toNat_vpnOf (va : Word) : (vpnOf va).toNat = va.toNat / 8192 % 2 ^ 30 := by
  rw [vpnOf, BitVec.extractLsb'_toNat, Nat.shiftRight_eq_div_pow]

/-- A granularity hint drops 3 bits of the page number for each step. -/
theorem ghIgnore_eq (gh : BitVec 2) : ghIgnore gh = BitVec.ofNat 30 (2 ^ (3 * gh.toNat) - 1) := by
  revert gh; decide

theorem ghIgnore_pfn (gh : BitVec 2) : (ghIgnore gh).setWidth 27 = BitVec.ofNat 27 (2 ^ (3 * gh.toNat) - 1) := by
  revert gh; decide

theorem ghSpan (gh : BitVec 2) : 2 ^ (3 * gh.toNat) = 8 ^ gh.toNat := Nat.pow_mul 2 3 _

theorem ghBits_le (gh : BitVec 2) : 3 * gh.toNat ≤ 9 := by have := gh.isLt; omega

/-- Two page numbers agree under a granularity hint. -/
theorem pages_agree (gh : BitVec 2) (a b : BitVec 30) :
    (a &&& ~~~ghIgnore gh == b &&& ~~~ghIgnore gh) = true ↔ a.toNat / 8 ^ gh.toNat = b.toNat / 8 ^ gh.toNat := by
  rw [beq_iff_eq, ← BitVec.toNat_inj, ghIgnore_eq, toNat_clearLow, toNat_clearLow, ghSpan]
  exact Nat.mul_left_inj (Nat.pos_iff_ne_zero.1 (Nat.pow_pos (by decide)))

/-- R308 in numbers. -/
theorem tagMatch_iff (valid : Bool) (tag : BitVec 30) (asn : BitVec 7) (asm : Bool) (gh : BitVec 2) (va : Word)
    (current : BitVec 7) : tagMatch valid tag asn asm gh (vpnOf va) current = true ↔
      valid = true ∧ tag.toNat / 8 ^ gh.toNat = va.toNat / 8192 % 2 ^ 30 / 8 ^ gh.toNat ∧ (asm = true ∨ asn = current) := by
  rw [tagMatch, Bool.and_eq_true, Bool.and_eq_true, Bool.or_eq_true, pages_agree, beq_iff_eq, toNat_vpnOf, and_assoc]

/-- The address of a hit: the page frame with the bits that the hint covers from the virtual address, then the byte within the page
(R310). -/
theorem toNat_hitAddress (pfn : BitVec 27) (gh : BitVec 2) (va : Word) : (hitAddress pfn gh va).toNat =
    pfn.toNat / 8 ^ gh.toNat * 8 ^ gh.toNat * 8192 + va.toNat % (8 ^ gh.toNat * 8192) := by
  have hle : 3 * gh.toNat ≤ 27 := (ghBits_le gh).trans (by decide)
  have hdisj : (pfn &&& ~~~BitVec.ofNat 27 (2 ^ (3 * gh.toNat) - 1)) &&&
      (va.extractLsb' 13 27 &&& BitVec.ofNat 27 (2 ^ (3 * gh.toNat) - 1)) = 0#27 := by
    apply BitVec.eq_of_getLsbD_eq
    intro i hi
    simp only [BitVec.getLsbD_and, BitVec.getLsbD_not, hi, decide_true, Bool.true_and, BitVec.getLsbD_zero]
    cases (BitVec.ofNat 27 (2 ^ (3 * gh.toNat) - 1)).getLsbD i <;> simp
  have hpage := BitVec.toNat_add_of_and_eq_zero hdisj
  have hvpn : va.toNat / 8192 % 2 ^ 27 % 2 ^ (3 * gh.toNat) = va.toNat / 8192 % 2 ^ (3 * gh.toNat) :=
    Nat.mod_mod_of_dvd _ (Nat.pow_dvd_pow 2 hle)
  rw [hitAddress, ghIgnore_pfn, BitVec.toNat_append, ← Nat.shiftLeft_add_eq_or_of_lt (by exact BitVec.isLt _),
    ← BitVec.add_eq_or_of_and_eq_zero _ _ hdisj, hpage, toNat_clearLow, toNat_keepLow _ _ hle,
    BitVec.extractLsb'_toNat, BitVec.extractLsb'_toNat, Nat.shiftRight_eq_div_pow, Nat.shiftLeft_eq, Nat.shiftRight_zero]
  rw [show 2 ^ 13 = 8192 by rfl, hvpn, ghSpan, Nat.mul_comm (8 ^ gh.toNat) 8192, Nat.mod_mul]
  ring

/-! ## Lookups (R308, R314) -/

/-- Exactly one index answers. -/
theorem filter_finRange_of_unique {n : Nat} {p : Fin n → Bool} {k : Fin n} (hk : p k = true) (hj : ∀ j, j ≠ k → p j = false) :
    (List.finRange n).filter p = [k] := by
  have hp : p = fun j => j == k := funext fun j => by
    by_cases h : j = k
    · simp [h, hk]
    · simp [h, hj j h]
  rw [hp, List.filter_beq, List.count_eq_one_of_mem (List.nodup_finRange n) (List.mem_finRange k)]
  rfl

theorem Dtb.lookup_eq_miss_iff (t : Dtb) (vpn : BitVec 30) (asn : BitVec 7) :
    t.lookup vpn asn = .miss ↔ ∀ k : Fin 64, t.entries[k].matches vpn asn = false := by
  have hnil : (List.finRange 64).filter (fun k => t.entries[k].matches vpn asn) = [] ↔
      ∀ k : Fin 64, t.entries[k].matches vpn asn = false := by simp [List.filter_eq_nil_iff]
  rw [← hnil, Dtb.lookup]
  cases (List.finRange 64).filter (fun k => t.entries[k].matches vpn asn) with
  | nil => simp
  | cons k rest =>
    simp only [reduceCtorEq, iff_false]
    split <;> simp

theorem Dtb.lookup_of_unique {t : Dtb} {vpn : BitVec 30} {asn : BitVec 7} {k : Fin 64} (hk : t.entries[k].matches vpn asn = true)
    (hj : ∀ j : Fin 64, j ≠ k → t.entries[j].matches vpn asn = false) : t.lookup vpn asn = .hit k := by
  rw [Dtb.lookup, filter_finRange_of_unique (p := fun k => t.entries[k].matches vpn asn) hk hj]
  rfl

theorem Itb.lookup_of_none {t : Itb} {vpn : BitVec 30} {asn : BitVec 7} (h : ∀ k : Fin 48, t.entries[k].matches vpn asn = false) :
    t.lookup vpn asn = .miss := by
  have hnil : (List.finRange 48).filter (fun k => t.entries[k].matches vpn asn) = [] := by
    simpa [List.filter_eq_nil_iff] using h
  rw [Itb.lookup, hnil]

theorem Itb.lookup_of_unique {t : Itb} {vpn : BitVec 30} {asn : BitVec 7} {k : Fin 48} (hk : t.entries[k].matches vpn asn = true)
    (hj : ∀ j : Fin 48, j ≠ k → t.entries[j].matches vpn asn = false) : t.lookup vpn asn = .hit k := by
  rw [Itb.lookup, filter_finRange_of_unique (p := fun k => t.entries[k].matches vpn asn) hk hj]
  rfl

end Sys2Proof.Machine
end


section
/-! Dstream translation by its cases (R300): the steps of `State.translate` in their order, the end that they share, and the bits
that MM_STAT records, each stated in the numbers of the addresses. -/

namespace Sys2Proof.Machine

variable {s : State} {r : Ref}

/-! ## The end of a translation: alignment, then the access check (R306, R311) -/

theorem Ref.aligned_iff (r : Ref) : r.aligned = true ↔ r.va.toNat % (if r.quad then 8 else 4) = 0 := by
  rw [Ref.aligned]
  cases r.quad <;>
    simp only [Bool.false_eq_true, if_false, if_true, beq_iff_eq, field, ← BitVec.toNat_inj, BitVec.extractLsb'_toNat,
      Nat.shiftRight_zero, BitVec.toNat_ofNat, Nat.zero_mod, Nat.reducePow]

section
variable {pa : PAddr} {hit : Option (Fin 64)} {faults : MmBits}

theorem Ref.finish_of_misaligned (ht : r.alignTrap = true) (ha : r.va.toNat % (if r.quad then 8 else 4) ≠ 0) :
    r.finish pa hit faults = .except .unalign (r.wr ||| faults) := by
  have haligned : r.aligned = false := Bool.eq_false_iff.2 (mt r.aligned_iff.1 ha)
  rw [Ref.finish, ht, haligned]
  rfl

/-- An aligned reference, or one that does not trap, passes to the access check. -/
theorem Ref.finish_of_aligned (ha : r.alignTrap = true → r.va.toNat % (if r.quad then 8 else 4) = 0) :
    r.finish pa hit faults = if faults ≠ 0#6 then .except .dfault (r.wr ||| faults) else .ok pa hit := by
  have hpass : (r.alignTrap && !r.aligned) = false := by
    rw [Bool.and_eq_false_iff, Bool.not_eq_false']
    cases ht : r.alignTrap with
    | false => exact .inl rfl
    | true => exact .inr (r.aligned_iff.2 (ha ht))
  rw [Ref.finish, hpass]
  exact if_neg Bool.false_ne_true

theorem Ref.finish_eq_except {e : Entry} {bits : MmBits} (h : r.finish pa hit faults = .except e bits) :
    e = .unalign ∨ e = .dfault := by
  rw [Ref.finish] at h
  split at h
  · injection h with h
    exact .inl h.symm
  · split at h
    · injection h with h
      exact .inr h.symm
    · cases h

end

/-! ## The cases of R300 -/

theorem State.translate_phys (h : r.phys = true) : s.translate r = .ok (BitVec.ofNat 40 (r.va.toNat % 2 ^ 40)) none := by
  rw [State.translate, if_pos h]
  congr 1
  apply BitVec.eq_of_toNat_eq
  simp

theorem State.translate_badSign (h : r.phys = false) (hs : r.va.toInt < -(2 ^ 42) ∨ 2 ^ 42 ≤ r.va.toInt) :
    s.translate r = .except .dfault ((if r.write then 1#6 else 0#6) ||| 0x22#6) := by
  have hsign : signOk r.va = false := by
    rw [Bool.eq_false_iff, ne_eq, signOk_iff]
    omega
  rw [State.translate, h, hsign, Ref.wr]
  cases r.write <;> rfl

theorem State.superHigh_iff (va : Word) :
    s.superHigh va = true ↔ s.mbox.mcsr.getLsbD 2 = true ∧ va.extractLsb' 41 2 = 2#2 := by
  simp [State.superHigh, field]

theorem State.superLow_iff (va : Word) :
    s.superLow va = true ↔ s.mbox.mcsr.getLsbD 1 = true ∧ va.extractLsb' 30 13 = 0x1FFE#13 := by
  simp [State.superLow, field]

/-- A superpage of either kind ends as a page that only kernel mode may access (R309, D15). -/
theorem State.translate_super {pa : PAddr} (h : r.phys = false) (hlo : -(2 ^ 42) ≤ r.va.toInt) (hhi : r.va.toInt < 2 ^ 42)
    (hpa : s.mbox.mcsr.getLsbD 2 = true ∧ r.va.extractLsb' 41 2 = 2#2 ∧ pa = BitVec.ofNat 40 (r.va.toNat % 2 ^ 40) ∨
      (s.mbox.mcsr.getLsbD 2 = false ∨ r.va.extractLsb' 41 2 ≠ 2#2) ∧
        s.mbox.mcsr.getLsbD 1 = true ∧ r.va.extractLsb' 30 13 = 0x1FFE#13 ∧ pa = BitVec.ofNat 40 (r.va.toNat % 2 ^ 30)) :
    s.translate r = r.finish pa none (superFault (s.checkMode r)) := by
  have hsign : (!signOk r.va) = false := by rw [signOk_iff _ |>.2 ⟨hlo, hhi⟩]; rfl
  rw [State.translate, if_neg (by rw [h]; exact Bool.false_ne_true), if_neg (by rw [hsign]; exact Bool.false_ne_true)]
  obtain ⟨hsp, hva, rfl⟩ | ⟨hno, hsp, hva, rfl⟩ := hpa
  · rw [if_pos (s.superHigh_iff r.va |>.2 ⟨hsp, hva⟩)]
    congr 1
    apply BitVec.eq_of_toNat_eq
    simp
  · have hhigh : ¬ s.superHigh r.va = true := fun hh => by
      obtain ⟨h2, hv⟩ := s.superHigh_iff r.va |>.1 hh
      exact hno.elim (fun hf => Bool.false_ne_true (hf.symm.trans h2)) fun hn => hn hv
    rw [if_neg hhigh, if_pos (s.superLow_iff r.va |>.2 ⟨hsp, hva⟩)]
    congr 1
    apply BitVec.eq_of_toNat_eq
    simp

/-- Outside the superpages the DTB decides. -/
theorem State.translate_mapped (h : r.phys = false) (hlo : -(2 ^ 42) ≤ r.va.toInt) (hhi : r.va.toInt < 2 ^ 42)
    (hh : s.mbox.mcsr.getLsbD 2 = false ∨ r.va.extractLsb' 41 2 ≠ 2#2)
    (hl : s.mbox.mcsr.getLsbD 1 = false ∨ r.va.extractLsb' 30 13 ≠ 0x1FFE#13) :
    s.translate r = match s.dtb.lookup (vpnOf r.va) s.mbox.dtbAsn with
      | .miss => .except (if r.vpte then .dtbMissDouble else .dtbMissSingle) (r.wr ||| 16#6)
      | .clash => .multiple
      | .hit k => r.finish (hitAddress s.dtb.entries[k].pfn s.dtb.entries[k].gh r.va) (some k)
          (s.dtb.entries[k].check r (s.checkMode r)) := by
  have hsign : (!signOk r.va) = false := by rw [signOk_iff _ |>.2 ⟨hlo, hhi⟩]; rfl
  have hhigh : ¬ s.superHigh r.va = true := by
    rw [State.superHigh_iff, not_and_or, Bool.not_eq_true]; exact hh
  have hlow : ¬ s.superLow r.va = true := by
    rw [State.superLow_iff, not_and_or, Bool.not_eq_true]; exact hl
  rw [State.translate, if_neg (by rw [h]; exact Bool.false_ne_true), if_neg (by rw [hsign]; exact Bool.false_ne_true),
    if_neg hhigh, if_neg hlow] <;> rfl

/-! ## The access check as bits (R206, R311) -/

/-- Three conditions as MM_STAT<ACV, FOR, FOW>, beside WR. -/
theorem mmBits_eq_zero_iff (a b c : Bool) :
    (if a then 2#6 else 0#6) ||| (if b then 4#6 else 0#6) ||| (if c then 8#6 else 0#6) = 0#6 ↔
      a = false ∧ b = false ∧ c = false := by
  revert a b c; decide

theorem mmBits_bit (w a b c : Bool) :
    let bits : MmBits := (if w then 1#6 else 0#6) |||
      ((if a then 2#6 else 0#6) ||| (if b then 4#6 else 0#6) ||| (if c then 8#6 else 0#6))
    bits.getLsbD 0 = w ∧ bits.getLsbD 1 = a ∧ bits.getLsbD 2 = b ∧ bits.getLsbD 3 = c ∧
      bits.getLsbD 4 = false ∧ bits.getLsbD 5 = false := by
  revert w a b c; decide

/-- What an entry refuses: the mode, a read, a write. -/
theorem DtbEntry.check_bits (e : DtbEntry) (r : Ref) (mode : BitVec 2) : ∃ a b c : Bool,
    e.check r mode = (if a then 2#6 else 0#6) ||| (if b then 4#6 else 0#6) ||| (if c then 8#6 else 0#6) ∧
    (a = true ↔ r.write = false ∧ e.re.getLsbD mode.toNat = false ∨
      (r.write = true ∨ r.wrtck = true) ∧ e.we.getLsbD mode.toNat = false) ∧
    (b = true ↔ r.write = false ∧ e.faultRd = true) ∧
    (c = true ↔ (r.write = true ∨ r.wrtck = true) ∧ e.faultWr = true) :=
  ⟨_, _, _, rfl, by simp, by simp, by simp⟩

/-! ## The address of the access (R305, R306) -/

theorem clearLow_long (pa : PAddr) : pa &&& ~~~3#40 = pa - BitVec.ofNat 40 (pa.toNat % 4) := clearLow_eq_sub pa 2

theorem State.accessAddress_quad (s : State) (pa : PAddr) : s.accessAddress true pa = pa - BitVec.ofNat 40 (pa.toNat % 8) :=
  clearLow_eq_sub pa 3

theorem State.accessAddress_long (pa : PAddr) (h : s.mbigEndian = false) :
    s.accessAddress false pa = pa - BitVec.ofNat 40 (pa.toNat % 4) := by
  rw [← clearLow_long, State.accessAddress, h]
  rfl

/-- The inversion of bit 2 and the clearing of the bits below it are in different bits. -/
theorem State.accessAddress_bigEndian (pa : PAddr) (h : s.mbigEndian = true) :
    s.accessAddress false pa = (pa - BitVec.ofNat 40 (pa.toNat % 4)) ^^^ 4#40 := by
  rw [← clearLow_long, State.accessAddress, h]
  change (pa ^^^ 4#40) &&& ~~~3#40 = (pa &&& ~~~3#40) ^^^ 4#40
  rw [BitVec.and_comm, BitVec.and_comm pa]
  apply BitVec.eq_of_getLsbD_eq
  intro i hi
  have hfour : (4#40).getLsbD i = ((~~~3#40).getLsbD i && (4#40).getLsbD i) := by
    interval_cases i <;> rfl
  rw [BitVec.getLsbD_and, BitVec.getLsbD_xor, BitVec.getLsbD_xor, BitVec.getLsbD_and, Bool.and_xor_distrib_left, ← hfour]

/-! ## The statement -/

/-- Settles O19: the cases of R300 in turn; in the last one the lookup of the DTB, then the access check. -/
theorem translateDstream : Obligations.TranslateDstream := by
  refine ⟨⟨fun r s => ⟨State.translate_phys, State.translate_badSign, fun hp hlo hhi pa hpa => ?super⟩, fun pa s =>
    ⟨fun _ => rfl, s.accessAddress_quad pa, State.accessAddress_long pa, State.accessAddress_bigEndian pa⟩⟩, ?mapped⟩
  case super =>
    rw [State.translate_super hp hlo hhi hpa]
    refine ⟨fun ha hm => ?_, fun ha hm => ?_, fun ht ha => ⟨_, Ref.finish_of_misaligned ht ha⟩⟩
    · rw [Ref.finish_of_aligned ha, superFault, if_pos hm]
      rfl
    · rw [Ref.finish_of_aligned ha, superFault, if_neg hm]
      rfl
  case mapped =>
    intro r k s covers hp hlo hhi hh hl
    refine ⟨?miss, fun hk hj => ?hit⟩
    case miss =>
      have hcov : (∀ j : Fin 64, ¬ covers s.dtb.entries[j]) ↔ s.dtb.lookup (vpnOf r.va) s.mbox.dtbAsn = .miss := by
        rw [Dtb.lookup_eq_miss_iff]
        exact forall_congr' fun j => by rw [← Bool.not_eq_true]; exact not_congr (tagMatch_iff ..).symm
      rw [hcov, State.translate_mapped hp hlo hhi hh hl]
      cases s.dtb.lookup (vpnOf r.va) s.mbox.dtbAsn with
      | miss => exact iff_of_true rfl rfl
      | clash => exact iff_of_false nofun nofun
      | hit j =>
        refine iff_of_false nofun fun h => ?_
        obtain he | he := Ref.finish_eq_except h <;> cases hv : r.vpte <;> rw [hv] at he <;> cases he
    case hit =>
      intro e span mode noAccess faultRead faultWrite
      have hlookup : s.dtb.lookup (vpnOf r.va) s.mbox.dtbAsn = .hit k :=
        Dtb.lookup_of_unique ((tagMatch_iff ..).2 hk) fun j hne => Bool.eq_false_iff.2 fun h => hj j hne ((tagMatch_iff ..).1 h)
      obtain ⟨a, b, c, hcheck, ha, hb, hc⟩ := e.check_bits r (s.checkMode r)
      have htr : s.translate r = r.finish (hitAddress e.pfn e.gh r.va) (some k)
          ((if a then 2#6 else 0#6) ||| (if b then 4#6 else 0#6) ||| (if c then 8#6 else 0#6)) := by
        rw [State.translate_mapped hp hlo hhi hh hl, hlookup, ← hcheck]
      have hzero := mmBits_eq_zero_iff a b c
      rw [htr]
      refine ⟨fun hal hna hnr hnw => ⟨_, ?ok, toNat_hitAddress ..⟩, fun ht hal => ⟨_, Ref.finish_of_misaligned ht hal⟩,
        fun hal hf => ?fault⟩
      case ok =>
        rw [Ref.finish_of_aligned hal, if_neg]
        rw [not_not, hzero]
        exact ⟨Bool.eq_false_iff.2 (mt ha.1 hna), Bool.eq_false_iff.2 (mt hb.1 hnr), Bool.eq_false_iff.2 (mt hc.1 hnw)⟩
      case fault =>
        have hne : ¬ (a = false ∧ b = false ∧ c = false) := fun ⟨ha0, hb0, hc0⟩ => by
          obtain h | h | h := hf
          · exact Bool.false_ne_true (ha0.symm.trans (ha.2 h))
          · exact Bool.false_ne_true (hb0.symm.trans (hb.2 h))
          · exact Bool.false_ne_true (hc0.symm.trans (hc.2 h))
        obtain ⟨h0, h1, h2, h3, h4, h5⟩ := mmBits_bit r.write a b c
        refine ⟨_, (Ref.finish_of_aligned hal).trans (if_pos (mt hzero.1 hne)), ?_, ?_, ?_, ?_, h4, h5⟩
        · exact iff_of_eq (congrArg (· = true) h0)
        · exact (iff_of_eq (congrArg (· = true) h1)).trans ha
        · exact (iff_of_eq (congrArg (· = true) h2)).trans hb
        · exact (iff_of_eq (congrArg (· = true) h3)).trans hc

end Sys2Proof.Machine
end


section
/-! Istream translation by its cases (R315), the Istream exceptions and the formatted address (R108, R316). -/

namespace Sys2Proof.Machine

variable {s : State}

/-! ## IFAULT_VA_FORM (R108) -/

theorem getLsbD_place {n : Nat} (f : BitVec n) (lo i : Nat) (hi : i < 64) :
    (place f lo).getLsbD i = (decide (lo ≤ i) && f.getLsbD (i - lo)) := by
  rw [place, BitVec.getLsbD_shiftLeft, BitVec.getLsbD_setWidth]
  by_cases h : i < lo
  · simp [h, Nat.not_le.2 h]
  · simp [h, Nat.not_lt.1 h, hi, show i - lo < 64 by omega]

/-- The formatted address, its fields side by side. -/
theorem vaFormat_eq (nt : Bool) (base : BitVec 34) (va : Word) : vaFormat nt base va =
    if nt then base ++ (0#8 ++ (va.extractLsb' 13 19 ++ 0#3)) else base.extractLsb' 3 31 ++ (va.extractLsb' 13 30 ++ 0#3) := by
  apply BitVec.eq_of_getLsbD_eq
  intro i hi
  cases nt with
  | true =>
    simp only [vaFormat, if_true, BitVec.getLsbD_or, getLsbD_place _ _ i hi, BitVec.getLsbD_append, field,
      BitVec.getLsbD_extractLsb', BitVec.getLsbD_zero]
    obtain h | h | h | h : i < 3 ∨ (3 ≤ i ∧ i < 22) ∨ (22 ≤ i ∧ i < 30) ∨ 30 ≤ i := by omega
    · simp [h, show ¬ 30 ≤ i by omega, show ¬ 3 ≤ i by omega, show i < 30 by omega, show i < 22 by omega]
    · simp [h, show ¬ 30 ≤ i by omega, show ¬ i < 3 by omega, show i < 30 by omega]
    · simp [show ¬ 30 ≤ i by omega, show ¬ i - 3 < 19 by omega, show i < 30 by omega, show ¬ i < 22 by omega]
    · simp [h, show ¬ i - 3 < 19 by omega, show ¬ i < 30 by omega]
  | false =>
    simp only [vaFormat, Bool.false_eq_true, if_false, vpnOf, BitVec.getLsbD_or, getLsbD_place _ _ i hi, BitVec.getLsbD_append,
      BitVec.getLsbD_extractLsb', BitVec.getLsbD_zero]
    obtain h | h | h : i < 3 ∨ (3 ≤ i ∧ i < 33) ∨ 33 ≤ i := by omega
    · simp [h, show ¬ 33 ≤ i by omega, show ¬ 3 ≤ i by omega, show i < 33 by omega]
    · simp [h, show ¬ 33 ≤ i by omega, show ¬ i < 3 by omega]
    · simp [h, show ¬ i - 3 < 30 by omega, show ¬ i < 33 by omega]

/-! ## Istream exceptions (R316, R700) -/

/-- ITB_TAG takes the page number of the PC, and IFAULT_VA_FORM the address given. -/
def State.istreamRecorded (s : State) (form : Word) : State :=
  { s with ibox := { s.ibox with itbTag := s.pc.extractLsb' 13 30, ifaultVaForm := form } }

/-- The fetch ends in an Istream exception at an entry, with those two registers loaded. -/
def State.fetchFails (s : State) (offset : BitVec 14) (form : Word) : Prop :=
  ∃ t u, s.fetch = .trap t ∧ u.trapped t offset s.pc ∧ u = s.istreamRecorded form

/-- Outside PALmode, translation known, the fetch is what the address of the PC leads to. -/
theorem State.fetch_known (h : s.istreamLost = false) : s.fetch = match s.fetchAddress with
    | .iaccvio sign => .trap (s.istreamTrap .iaccvio sign)
    | .itbMiss => .trap (s.istreamTrap .itbMiss false)
    | .multiple => .refused .tbMultipleMatch
    | .ok pa hit asm => (s.touchItb hit).fetchAt pa asm := by
  rw [State.fetch, h] <;> rfl

theorem State.fetchFails_iaccvio {sign : Bool} (h : s.istreamLost = false) (ha : s.fetchAddress = .iaccvio sign) :
    s.fetchFails 0x0080#14 (if sign then s.ibox.ifaultVaForm else vaFormat s.iboxNt s.ibox.ivptbr s.pc) := by
  refine ⟨_, _, ?_, trapped_precise (s.istreamRecorded _) .iaccvio, rfl⟩
  rw [State.fetch_known h, ha]
  rfl

theorem State.fetchFails_itbMiss (h : s.istreamLost = false) (ha : s.fetchAddress = .itbMiss) :
    s.fetchFails 0x0180#14 (vaFormat s.iboxNt s.ibox.ivptbr s.pc) := by
  refine ⟨_, _, ?_, trapped_precise (s.istreamRecorded _) .itbMiss, rfl⟩
  rw [State.fetch_known h, ha]
  rfl

theorem State.fetch_ok {pa : PAddr} {hit : Option (Fin 48)} {asm : Bool} (h : s.istreamLost = false)
    (ha : s.fetchAddress = .ok pa hit asm) : s.fetch = (s.touchItb hit).fetchAt pa asm := by
  rw [State.fetch_known h, ha]

/-! ## The cases of R315 -/

theorem State.fetch_palmode (h : s.palmode = true) : s.fetch = s.fetchAt (s.pc.setWidth 40) false := by
  have ha : s.fetchAddress = .ok (s.pc.setWidth 40) none false := by rw [State.fetchAddress, if_pos h]
  rw [State.fetch, ha, h, Bool.not_true, Bool.and_false]
  rfl

theorem State.ispHigh_iff : s.ispHigh = true ↔ s.icsrBit 29 = true ∧ s.pc.extractLsb' 41 2 = 2#2 := by
  simp [State.ispHigh, field]

theorem State.ispLow_iff : s.ispLow = true ↔ s.icsrBit 28 = true ∧ s.pc.extractLsb' 30 13 = 0x1FFE#13 := by
  simp [State.ispLow, field]

theorem State.kernel_iff : s.kernel = true ↔ s.ibox.icm = 0#2 := by simp [State.kernel]

section
variable (hp : s.palmode = false) (h : s.istreamLost = false)
include hp h

theorem State.fetchAddress_badSign (hs : s.pc.toInt < -(2 ^ 42) ∨ 2 ^ 42 ≤ s.pc.toInt) : s.fetchAddress = .iaccvio true := by
  have hsign : signOk s.pc = false := by
    rw [Bool.eq_false_iff, ne_eq, signOk_iff]
    omega
  rw [State.fetchAddress, hp, h, hsign]
  rfl

variable (hlo : -(2 ^ 42) ≤ s.pc.toInt) (hhi : s.pc.toInt < 2 ^ 42)
include hlo hhi

/-- With the sign right, the superpages come first. -/
theorem State.fetchAddress_signed : s.fetchAddress =
    if s.ispHigh then if s.kernel then .ok (s.pc.setWidth 40) none true else .iaccvio false
    else if s.ispLow then if s.kernel then .ok ((s.pc.setWidth 30).setWidth 40) none true else .iaccvio false
    else match s.itb.lookup (vpnOf s.pc) s.ibox.itbAsn with
      | .miss => .itbMiss
      | .clash => .multiple
      | .hit k =>
        if s.itb.entries[k].re.getLsbD s.ibox.icm.toNat then
          .ok (hitAddress s.itb.entries[k].pfn s.itb.entries[k].gh s.pc) (some k) s.itb.entries[k].asm
        else .iaccvio false := by
  rw [State.fetchAddress, hp, h, signOk_iff _ |>.2 ⟨hlo, hhi⟩] <;> rfl

theorem State.fetchAddress_super (hk : s.ibox.icm ≠ 0#2) (hs : s.ispHigh = true ∨ s.ispLow = true) :
    s.fetchAddress = .iaccvio false := by
  have hkernel : ¬ s.kernel = true := mt State.kernel_iff.1 hk
  rw [State.fetchAddress_signed hp h hlo hhi, if_neg hkernel, if_neg hkernel]
  obtain hs | hs := hs
  · rw [if_pos hs]
  · rw [if_pos hs]
    exact ite_self _

end

/-! ## The statement -/

/-- Settles O51: the cases of R315 in turn. -/
theorem fetchTranslation : Obligations.FetchTranslation := by
  intro s formed fails page covers
  have hform : vaFormat s.iboxNt s.ibox.ivptbr s.pc = formed := vaFormat_eq ..
  refine ⟨State.fetch_palmode, fun hp h => ⟨fun hs => ?sign, ?signed⟩⟩
  case sign => exact State.fetchFails_iaccvio h (State.fetchAddress_badSign hp h hs)
  case signed =>
    intro hlo hhi high low
    have hsigned := State.fetchAddress_signed hp h hlo hhi
    have hnot (hnh : ¬ high) (hnl : ¬ low) : ¬ s.ispHigh = true ∧ ¬ s.ispLow = true :=
      ⟨mt State.ispHigh_iff.1 hnh, mt State.ispLow_iff.1 hnl⟩
    refine ⟨fun hh hk => ?high, fun hnh hl hk => ?low, fun hs hk => ?violation, fun hnh hnl hnone => ?miss,
      fun hnh hnl k hcov huniq => ?hit⟩
    case high =>
      refine State.fetch_ok (hit := none) h ?_
      rw [hsigned, if_pos (State.ispHigh_iff.2 hh), if_pos (State.kernel_iff.2 hk)]
    case low =>
      refine State.fetch_ok (hit := none) h ?_
      rw [hsigned, if_neg (mt State.ispHigh_iff.1 hnh), if_pos (State.ispLow_iff.2 hl), if_pos (State.kernel_iff.2 hk)]
    case violation =>
      rw [← hform]
      exact State.fetchFails_iaccvio h
        (State.fetchAddress_super hp h hlo hhi hk (hs.imp State.ispHigh_iff.2 State.ispLow_iff.2))
    case miss =>
      obtain ⟨hih, hil⟩ := hnot hnh hnl
      rw [← hform]
      refine State.fetchFails_itbMiss h ?_
      rw [hsigned, if_neg hih, if_neg hil,
        Itb.lookup_of_none fun j => Bool.eq_false_iff.2 fun hm => hnone j ((tagMatch_iff ..).1 hm)]
    case hit =>
      intro e span
      obtain ⟨hih, hil⟩ := hnot hnh hnl
      have hlookup : s.itb.lookup (vpnOf s.pc) s.ibox.itbAsn = .hit k :=
        Itb.lookup_of_unique ((tagMatch_iff ..).2 hcov) fun j hne =>
          Bool.eq_false_iff.2 fun hm => huniq j hne ((tagMatch_iff ..).1 hm)
      have hadr : s.fetchAddress = if e.re.getLsbD s.ibox.icm.toNat then .ok (hitAddress e.pfn e.gh s.pc) (some k) e.asm
          else .iaccvio false := by
        rw [hsigned, if_neg hih, if_neg hil, hlookup]
      refine ⟨fun hre => ⟨hitAddress e.pfn e.gh s.pc, Config.itbPointerAfterHit s.itb.next k, ?_, toNat_hitAddress ..⟩,
        fun hre => ?_⟩
      · exact State.fetch_ok (hit := some k) h (hadr.trans (if_pos hre))
      · rw [← hform]
        exact State.fetchFails_iaccvio h (hadr.trans (if_neg (by rw [hre]; exact Bool.false_ne_true)))

end Sys2Proof.Machine
end


section
/-! Accesses that the Dcache does not answer with data: in the noncached region, and in either region with the Dcache in force-hit
mode (R215, R324 to R327, R364). Every load ends as a load that delivers any value, every store as a store into the write buffer. -/

namespace Sys2Proof.Machine

variable {s : State} {r : Ref} {a : PAddr}

/-! ## Places in a block by number (R327) -/

theorem bitVec_shiftLeft_eq_ofNat {w : Nat} (x : BitVec w) (n : Nat) : x <<< n = BitVec.ofNat w (x.toNat * 2 ^ n) := by
  apply BitVec.eq_of_toNat_eq
  rw [BitVec.toNat_shiftLeft, BitVec.toNat_ofNat, Nat.shiftLeft_eq]

theorem longsOf_eq_placedMask (quad : Bool) (a : PAddr) : longsOf quad a = placedMask quad a := by
  have hplace : (a.extractLsb' 2 3).toNat = a.toNat % 32 / 4 := by
    rw [BitVec.extractLsb'_toNat, Nat.shiftRight_eq_div_pow]
    omega
  rw [longsOf, bitVec_shiftLeft_eq_ofNat, hplace, placedMask]
  cases quad <;> rfl

theorem blockData_eq_placedDatum (quad : Bool) (a : PAddr) (v : Word) : blockData quad a v = placedDatum quad a v := by
  have hv := v.isLt
  rw [blockData, bitVec_shiftLeft_eq_ofNat, place_toNat, placedDatum]
  cases quad with
  | true => simp only [if_true, BitVec.toNat_setWidth, Nat.mod_eq_of_lt (show v.toNat < 2 ^ 256 by omega)]
  | false =>
    simp only [Bool.false_eq_true, if_false, BitVec.toNat_setWidth,
      Nat.mod_eq_of_lt (show v.toNat % 2 ^ 32 < 2 ^ 256 by omega)]

/-! ## Regions and modes -/

theorem regionOf_noncached (h : regionOf a = .noncached) : a.getLsbD 39 = true := by
  rw [regionOf] at h
  by_contra hn
  rw [if_neg hn] at h
  cases h

theorem State.dcForced_iff : s.dcForced = true ↔ s.mbox.dcMode.extractLsb' 0 2 = 3#2 := by
  rw [State.dcForced, State.dcEna, State.dcFhit, Bool.and_eq_true]
  generalize s.mbox.dcMode = m
  revert m; decide

/-- A bank with no parity error serves, whichever it is. -/
theorem State.dcReference_right {quad write : Bool} (h : ∀ bank1, (s.dcLook bank1 quad write a).errors = 0#4) :
    (s.dcReference quad write a).1.errors = 0#4 ∧ ∃ n, (s.dcReference quad write a).2 = { s with freeCount := n } := by
  rw [State.dcReference]
  split
  · exact ⟨h false, _, rfl⟩
  · refine ⟨?_, _, rfl⟩
    change (if s.freeNow.getLsbD 0 then _ else _ : DcLook).errors = _
    split
    · exact h true
    · exact h false

/-! ## Loads: any value, delivered (R326, R215) -/

/-- A load that ends in any value in its register. -/
def State.anyLoaded (u : State) (t : LoadTarget) (quad : Bool) : State := (u.deliverAny t quad).accessDone

/-- A delivery changes registers only. -/
theorem State.deliver_frame (u : State) (t : LoadTarget) (v : Word) :
    ∃ i sh f, u.deliver t v = { u with ints := i, shadow := sh, fregs := f } := by
  cases t with
  | int slot long => cases slot <;> exact ⟨_, _, _, rfl⟩
  | fp n form =>
    by_cases hn : n.toNat < 31
    · exact ⟨_, _, _, dif_pos hn⟩
    · exact ⟨_, _, _, dif_neg hn⟩

theorem State.anyLoaded_frame (u : State) (t : LoadTarget) (quad : Bool) : ∃ i sh f, u.anyLoaded t quad =
    { u with ints := i, shadow := sh, fregs := f, pc := u.pc + 4#64, afterMb := false, freeCount := u.freeCount + 1 } := by
  obtain ⟨i, sh, f, h⟩ := u.deliver_frame t (if quad then u.freeNow else (u.freeNow.setWidth 32).setWidth 64)
  exact ⟨i, sh, f, by rw [State.anyLoaded, State.deliverAny, h]; rfl⟩

theorem State.anyLoaded_int {u : State} (ra : RegNum) (long quad : Bool) (hp : u.palmode = s.palmode) (hi : u.ibox = s.ibox)
    (h1 : u.ints = s.ints) (h2 : u.shadow = s.shadow) (hf : u.fregs = s.fregs) :
    (∃ v, s.intWrite (u.anyLoaded (.int (s.intSlot ra) long) quad) ra v) ∧
      (u.anyLoaded (.int (s.intSlot ra) long) quad).fregs = s.fregs := by
  have hicsr : u.ibox.icsr = s.ibox.icsr := congrArg Ibox.icsr hi
  rw [← State.intSlot_congr ra (State.shadowOn_congr hp hicsr)]
  exact ⟨⟨_, State.intWrite_congr (intWrite_of_same s ra _ hp hicsr h1 h2) rfl rfl rfl rfl⟩,
    (State.writeSlot_fregs ..).trans hf⟩

theorem State.anyLoaded_fp {u : State} (ra : RegNum) (form : FpForm) (quad : Bool) (hf : u.fregs = s.fregs)
    (h1 : u.ints = s.ints) (h2 : u.shadow = s.shadow) :
    (∃ v, s.fpWrite (u.anyLoaded (.fp ra form) quad) ra v) ∧ (u.anyLoaded (.fp ra form) quad).ints = s.ints ∧
      (u.anyLoaded (.fp ra form) quad).shadow = s.shadow :=
  ⟨⟨_, State.fpWrite_congr (fpWrite_of_same s ra _ hf) rfl⟩, (State.writeFp_ints ..).trans h1,
    (State.writeFp_shadow ..).trans h2⟩

/-! ## What a load leaves -/

/-- The state in which a load that waits delivers: the entry in the miss address file, and the lock of an LDx_L. -/
def State.deviceQueued (s : State) (hit : Option (Fin 64)) (locked quad : Bool) (a : PAddr) (t : LoadTarget) : State :=
  { s.touchDtb hit with
    maf := mafAdd ⟨a, quad, t⟩ locked (s.wbHolds (granule a)) (s.ioMerges && !s.mafMatches ⟨a, quad, t⟩) s.maf
    lockFlag := locked || s.lockFlag
    lockAddr := if locked then a else s.lockAddr }

/-- The state in which a load delivers in force-hit mode: the lock of an LDx_L. -/
def State.forcedHit (s : State) (hit : Option (Fin 64)) (locked : Bool) (a : PAddr) (n : Nat) : State :=
  { s.touchDtb hit with
    lockFlag := locked || s.lockFlag
    lockAddr := if locked then a else s.lockAddr
    freeCount := n }

theorem State.takeLockIf (u : State) (locked : Bool) (a : PAddr) : (if locked then u.takeLock a else u) =
    { u with lockFlag := locked || u.lockFlag, lockAddr := if locked then a else u.lockAddr } := by cases locked <;> rfl

theorem State.loadNoncached_waits {locked : Bool} {t : LoadTarget} (h39 : a.getLsbD 39 = true) (hf : s.dcForced = false) :
    s.loadNoncached r locked t a = (s.deviceQueued none locked r.quad a t).deliverAny t r.quad := by
  rw [State.loadNoncached, State.takeLockIf]
  refine (if_neg (by rw [Bool.not_eq_true]; exact hf)).trans (congrArg (State.deliverAny · t r.quad) ?_)
  rw [State.mafPush, h39, Bool.and_true]
  rfl

/-- Forced to hit, a load gives any value, in either region alike. -/
theorem State.load_forced {locked : Bool} {t : LoadTarget} (hf : s.dcForced = true)
    (hr : ∀ bank1, (s.dcLook bank1 r.quad false a).errors = 0#4) :
    ∃ n, s.loadNoncached r locked t a = (s.forcedHit none locked a n).deliverAny t r.quad ∧
      s.loadMemory r locked t a = (s.forcedHit none locked a n).deliverAny t r.quad := by
  obtain ⟨he, n, hn⟩ := State.dcReference_right
    (s := { s with lockFlag := locked || s.lockFlag, lockAddr := if locked then a else s.lockAddr }) hr
  refine ⟨n, ?_⟩
  rw [State.loadNoncached, State.loadMemory, State.takeLockIf, if_pos hf,
    if_pos (show State.dcForced { s with lockFlag := _, lockAddr := _ } = true from hf)]
  have hforced : State.loadForced
      { s with lockFlag := locked || s.lockFlag, lockAddr := if locked then a else s.lockAddr } r t a =
      (s.forcedHit none locked a n).deliverAny t r.quad := by
    rw [State.loadForced, he, hn]
    rfl
  exact ⟨hforced, hforced⟩

/-! ## References that reach a region -/

theorem State.dstream_ok {pa : PAddr} {hit : Option (Fin 64)} {access : State → PAddr → Res State}
    (ht : s.translate r = .ok pa hit) (ho : s.orderKept r.write = true) :
    s.dstream r access = mapRes State.accessDone (access (s.touchDtb hit) pa) := by
  rw [State.dstream, ht]
  exact if_pos ho

section
variable {pa : PAddr} {hit : Option (Fin 64)}

theorem State.touchDtb_accessAddress (quad : Bool) : (s.touchDtb hit).accessAddress quad pa = s.accessAddress quad pa := by
  cases hit <;> rfl

theorem State.touchDtb_dcForced : (s.touchDtb hit).dcForced = s.dcForced := by cases hit <;> rfl

theorem State.touchDtb_dcLook (bank1 quad write : Bool) : (s.touchDtb hit).dcLook bank1 quad write a = s.dcLook bank1 quad write a := by
  cases hit <;> rfl

theorem State.loadAt_memory {locked : Bool} {t : LoadTarget} (h : regionOf (s.accessAddress r.quad pa) = .memory) :
    s.loadAt r locked t pa = .next (s.loadMemory r locked t (s.accessAddress r.quad pa)) := by
  simp only [State.loadAt, h]

theorem State.loadAt_noncached {locked : Bool} {t : LoadTarget} (h : regionOf (s.accessAddress r.quad pa) = .noncached) :
    s.loadAt r locked t pa = .next (s.loadNoncached r locked t (s.accessAddress r.quad pa)) := by
  simp only [State.loadAt, h]

theorem State.storeAt_memory {v : Word} (h : regionOf (s.accessAddress r.quad pa) = .memory) :
    s.storeAt r pa v = .next (s.storeMemory r (s.accessAddress r.quad pa) v) := by
  simp only [State.storeAt, h]

theorem State.storeAt_noncached {v : Word} (h : regionOf (s.accessAddress r.quad pa) = .noncached) :
    s.storeAt r pa v = .next (s.storeNoncached r (s.accessAddress r.quad pa) v) := by
  simp only [State.storeAt, h]

theorem State.condAt_noncached {v : Word} (h : regionOf (s.accessAddress r.quad pa) = .noncached) :
    s.condAt r pa v = .next (s.condNoncached r (s.accessAddress r.quad pa) v) := by
  simp only [State.condAt, h]

end

theorem State.load_waits {locked : Bool} {t : LoadTarget} (h : s.reachesDevice r a) (hf : s.dcForced = false) :
    ∃ hit, s.load r locked t = .next ((s.deviceQueued hit locked r.quad a t).anyLoaded t r.quad) := by
  obtain ⟨pa, hit, htr, rfl, hreg, ho⟩ := h
  have hw := State.loadNoncached_waits (s := s.touchDtb hit) (r := r) (locked := locked) (t := t) (regionOf_noncached hreg)
    (State.touchDtb_dcForced.trans hf)
  refine ⟨hit, ?_⟩
  rw [State.load, State.dstream_ok htr ho, State.loadAt_noncached (by rw [State.touchDtb_accessAddress]; exact hreg),
    State.touchDtb_accessAddress, hw]
  cases hit <;> rfl

theorem State.load_hits {locked : Bool} {t : LoadTarget} (h : s.reachesDevice r a ∨ s.reaches r a) (hf : s.dcForced = true)
    (hr : ∀ bank1, (s.dcLook bank1 r.quad false a).errors = 0#4) :
    ∃ hit n, s.load r locked t = .next ((s.forcedHit hit locked a n).anyLoaded t r.quad) := by
  have key {pa : PAddr} {hit : Option (Fin 64)} := State.load_forced (s := s.touchDtb hit) (r := r) (a := s.accessAddress r.quad pa)
    (locked := locked) (t := t) (State.touchDtb_dcForced.trans hf)
  obtain ⟨pa, hit, htr, rfl, hreg, ho⟩ | ⟨pa, hit, htr, rfl, hreg, ho⟩ := h
  · obtain ⟨n, hn, -⟩ := key (pa := pa) (hit := hit) fun b => (State.touchDtb_dcLook ..).symm ▸ hr b
    refine ⟨hit, n, ?_⟩
    rw [State.load, State.dstream_ok htr ho, State.loadAt_noncached (by rw [State.touchDtb_accessAddress]; exact hreg),
      State.touchDtb_accessAddress, hn]
    cases hit <;> rfl
  · obtain ⟨n, -, hn⟩ := key (pa := pa) (hit := hit) fun b => (State.touchDtb_dcLook ..).symm ▸ hr b
    refine ⟨hit, n, ?_⟩
    rw [State.load, State.dstream_ok htr ho, State.loadAt_memory (by rw [State.touchDtb_accessAddress]; exact hreg),
      State.touchDtb_accessAddress, hn]
    cases hit <;> rfl

/-! ## What the statements ask of a load -/

theorem State.deviceLoaded_anyLoaded (s : State) (hit : Option (Fin 64)) (locked quad : Bool) (a : PAddr) (t : LoadTarget) :
    s.deviceLoaded ((s.deviceQueued hit locked quad a t).anyLoaded t quad) locked quad a t := by
  obtain ⟨i, sh, f, h⟩ := (s.deviceQueued hit locked quad a t).anyLoaded_frame t quad
  rw [h]
  refine ⟨rfl, ?_, rfl, rfl, State.sameBut_touch hit ?_ rfl⟩ <;> cases hit <;> rfl

theorem State.forcedLoaded_anyLoaded (s : State) (hit : Option (Fin 64)) (locked quad : Bool) (a : PAddr) (n : Nat)
    (t : LoadTarget) : s.forcedLoaded ((s.forcedHit hit locked a n).anyLoaded t quad) locked a := by
  obtain ⟨i, sh, f, h⟩ := (s.forcedHit hit locked a n).anyLoaded_frame t quad
  rw [h]
  refine ⟨?_, rfl, rfl, State.sameBut_touch hit ?_ rfl⟩ <;> cases hit <;> rfl

/-- A load into an integer register in the noncached region. -/
theorem State.loadInt_waits {res : Res State} {locked : Bool} (hres : res = s.loadInt r locked) (h : s.reachesDevice r a)
    (hf : s.dcForced = false) : ∃ t v, res = .next t ∧ s.intWrite t r.ra v ∧ t.fregs = s.fregs ∧
      s.deviceLoaded t locked r.quad a (.int (s.intSlot r.ra) (!r.quad)) := by
  obtain ⟨hit, hl⟩ := State.load_waits (locked := locked) (t := .int (s.intSlot r.ra) (!r.quad)) h hf
  obtain ⟨⟨v, hv⟩, hfr⟩ := State.anyLoaded_int (s := s)
    (u := s.deviceQueued hit locked r.quad a (.int (s.intSlot r.ra) (!r.quad))) r.ra (!r.quad) r.quad (by cases hit <;> rfl)
    (by cases hit <;> rfl) (by cases hit <;> rfl) (by cases hit <;> rfl) (by cases hit <;> rfl)
  exact ⟨_, v, hres.trans hl, hv, hfr, s.deviceLoaded_anyLoaded ..⟩

/-- A load into an integer register with the Dcache in force-hit mode. -/
theorem State.loadInt_hits {res : Res State} {locked : Bool} (hres : res = s.loadInt r locked)
    (h : s.reachesDevice r a ∨ s.reaches r a) (hf : s.dcForced = true)
    (hr : ∀ bank1, (s.dcLook bank1 r.quad false a).errors = 0#4) :
    ∃ t v, res = .next t ∧ s.intWrite t r.ra v ∧ t.fregs = s.fregs ∧ s.forcedLoaded t locked a := by
  obtain ⟨hit, n, hl⟩ := State.load_hits (locked := locked) (t := .int (s.intSlot r.ra) (!r.quad)) h hf hr
  obtain ⟨⟨v, hv⟩, hfr⟩ := State.anyLoaded_int (s := s) (u := s.forcedHit hit locked a n) r.ra (!r.quad) r.quad
    (by cases hit <;> rfl) (by cases hit <;> rfl) (by cases hit <;> rfl) (by cases hit <;> rfl) (by cases hit <;> rfl)
  exact ⟨_, v, hres.trans hl, hv, hfr, s.forcedLoaded_anyLoaded ..⟩

theorem State.loadFp_waits {res : Res State} {form : FpForm} (hres : res = s.loadFp r form) (h : s.reachesDevice r a)
    (hf : s.dcForced = false) : ∃ t v, res = .next t ∧ s.fpWrite t r.ra v ∧ t.ints = s.ints ∧ t.shadow = s.shadow ∧
      s.deviceLoaded t false r.quad a (.fp r.ra form) := by
  obtain ⟨hit, hl⟩ := State.load_waits (locked := false) (t := .fp r.ra form) h hf
  obtain ⟨⟨v, hv⟩, hi, hs⟩ := State.anyLoaded_fp (s := s) (u := s.deviceQueued hit false r.quad a (.fp r.ra form)) r.ra form
    r.quad (by cases hit <;> rfl) (by cases hit <;> rfl) (by cases hit <;> rfl)
  exact ⟨_, v, hres.trans hl, hv, hi, hs, s.deviceLoaded_anyLoaded ..⟩

theorem State.loadFp_hits {res : Res State} {form : FpForm} (hres : res = s.loadFp r form)
    (h : s.reachesDevice r a ∨ s.reaches r a) (hf : s.dcForced = true)
    (hr : ∀ bank1, (s.dcLook bank1 r.quad false a).errors = 0#4) :
    ∃ t v, res = .next t ∧ s.fpWrite t r.ra v ∧ t.ints = s.ints ∧ t.shadow = s.shadow ∧ s.forcedLoaded t false a := by
  obtain ⟨hit, n, hl⟩ := State.load_hits (locked := false) (t := .fp r.ra form) h hf hr
  obtain ⟨⟨v, hv⟩, hi, hs⟩ := State.anyLoaded_fp (s := s) (u := s.forcedHit hit false a n) r.ra form r.quad
    (by cases hit <;> rfl) (by cases hit <;> rfl) (by cases hit <;> rfl)
  exact ⟨_, v, hres.trans hl, hv, hi, hs, s.forcedLoaded_anyLoaded ..⟩

/-! ## Stores into the write buffer (R327, R341) -/

theorem wbMerge_of_absent {b : Block} {mask : BitVec 8} {data : Hexword} {l : List WbEntry}
    (h : (l.any fun e => e.block == b) = false) : wbMerge b mask data l = none := by
  induction l with
  | nil => rfl
  | cons e rest ih =>
    rw [List.any_cons, Bool.or_eq_false_iff] at h
    obtain ⟨he, hrest⟩ := h
    rw [wbMerge, he, Bool.and_false, ih hrest]
    rfl

/-- A store of a block that no entry is for gets an entry of its own. -/
theorem State.wbStore_of_absent {b : Block} (mask : BitVec 8) (data : Hexword) (h : s.wbHolds b = false) :
    (s.wbStore b mask data).wb = ⟨b, .store, mask, data, s.wbFence, s.wbNoMerge⟩ :: s.wb := by
  rw [State.wbStore, wbMerge_of_absent h, ite_self]
  rw [State.wbAllocate, h, Bool.and_false, Bool.or_false]

/-- What a store does to the write buffer depends on the buffer and on MAF_MODE only. -/
theorem State.wbStore_congr {t : State} (b : Block) (mask : BitVec 8) (data : Hexword) (h1 : t.wb = s.wb)
    (h2 : t.wbFence = s.wbFence) (h3 : t.mbox = s.mbox) : (t.wbStore b mask data).wb = (s.wbStore b mask data).wb := by
  have hmode : t.wbNoMerge = s.wbNoMerge := by rw [State.wbNoMerge, h3]; rfl
  have hmerge : (if t.wbNoMerge then none else wbMerge b mask data t.wb) =
      if s.wbNoMerge then none else wbMerge b mask data s.wb := by rw [hmode, h1]
  rw [State.wbStore, State.wbStore, hmerge]
  cases (if s.wbNoMerge then none else wbMerge b mask data s.wb) with
  | some l => rfl
  | none =>
    simp only [State.wbAllocate, State.wbHolds, hmode, h1, h2]

theorem State.wbStore_touchDtb (hit : Option (Fin 64)) (b : Block) (mask : BitVec 8) (data : Hexword) :
    ((s.touchDtb hit).wbStore b mask data).wb = (s.wbStore b mask data).wb :=
  State.wbStore_congr b mask data (by cases hit <;> rfl) (by cases hit <;> rfl) (by cases hit <;> rfl)

theorem State.store_waits {res : Res State} {v : Word} (hres : res = s.store r v) (h : s.reachesDevice r a)
    (hf : s.dcForced = false) : ∃ t, res = .next t ∧ s.deviceStored t r.quad a v := by
  obtain ⟨pa, hit, htr, rfl, hreg, ho⟩ := h
  have hreg' : regionOf ((s.touchDtb hit).accessAddress r.quad pa) = .noncached := by
    rw [State.touchDtb_accessAddress]; exact hreg
  have hnc : ∀ c, (s.touchDtb hit).storeNoncached r c v =
      (s.touchDtb hit).wbStore (granule c) (placedMask r.quad c) (placedDatum r.quad c v) := fun c => by
    rw [State.storeNoncached, State.touchDtb_dcForced, hf, longsOf_eq_placedMask, blockData_eq_placedDatum]
    rfl
  refine ⟨_, hres.trans (by
    rw [State.store, State.dstream_ok htr ho, State.storeAt_noncached hreg', State.touchDtb_accessAddress, hnc]; rfl), ?_⟩
  rw [State.wbStore_frame]
  refine ⟨?_, ?_, fun hn => ?_, State.sameBut_touch hit ?_ rfl⟩
  · exact State.wbStore_touchDtb ..
  · cases hit <;> rfl
  · exact (State.wbStore_touchDtb ..).trans (State.wbStore_of_absent _ _ hn)
  · cases hit <;> rfl

/-- Forced to hit, a store writes both banks at its index, and the write buffer. -/
theorem State.storeMemory_forced (v : Word) (hf : s.dcForced = true)
    (hr : ∀ bank1, (s.dcLook bank1 r.quad true a).errors = 0#4) :
    ∃ d fence n, s.storeMemory r a v = { s with
        dcache := d, wb := (s.wbStore (granule a) (placedMask r.quad a) (placedDatum r.quad a v)).wb
        wbFence := fence, freeCount := n } ∧
      ∀ bank1, (dcGet (dcIndex a) (d.bank bank1)).data =
        mergeHex (dcGet (dcIndex a) (s.dcache.bank bank1)).data (placedDatum r.quad a v) (placedMask r.quad a) := by
  obtain ⟨hena, hfhit⟩ : s.dcEna = true ∧ s.dcFhit = true := Bool.and_eq_true_iff.1 hf
  obtain ⟨he, n, hn⟩ := State.dcReference_right hr
  have hwb := State.wbStore_congr (s := s) (t := State.dcStore { s with freeCount := n } r.integer r.quad a v) (granule a)
    (placedMask r.quad a) (placedDatum r.quad a v) (State.dcStore_wb ..) (State.dcStore_wbFence ..) (State.dcStore_mbox ..)
  rw [State.storeMemory, he, if_pos rfl, hn, longsOf_eq_placedMask, blockData_eq_placedDatum, State.wbStore_frame, hwb]
  generalize (State.wbStore _ _ _ _).wbFence = fence
  refine ⟨(State.dcStore { s with freeCount := n } r.integer r.quad a v).dcache, fence, n, ?_, fun bank1 => ?_⟩
  · rw [State.dcStore_frame]
  rw [State.dcStore, if_pos (show State.dcEna { s with freeCount := n } = true from hena)]
  have hfhit' : State.dcFhit { s with freeCount := n } = true := hfhit
  cases bank1 <;>
    simp only [State.dcMap, Dcache.bank, hfhit', Bool.true_or, if_true, Bool.false_eq_true, if_false, dcGet_dcPut,
      DcLine.stored, dcGet_idx, longsOf_eq_placedMask, blockData_eq_placedDatum]

theorem State.store_hits {res : Res State} {v : Word} (hres : res = s.store r v) (h : s.reachesDevice r a ∨ s.reaches r a)
    (hf : s.dcForced = true) (hr : ∀ bank1, (s.dcLook bank1 r.quad true a).errors = 0#4) :
    ∃ t, res = .next t ∧ s.forcedStored t r.quad a v := by
  obtain ⟨hit, u, hu, hstore⟩ : ∃ hit u, s.store r v = .next (State.accessDone u) ∧ u = (s.touchDtb hit).storeMemory r a v := by
    obtain ⟨pa, hit, htr, rfl, hreg, ho⟩ | ⟨pa, hit, htr, rfl, hreg, ho⟩ := h
    · refine ⟨hit, _, ?_, rfl⟩
      rw [State.store, State.dstream_ok htr ho, State.storeAt_noncached (by rw [State.touchDtb_accessAddress]; exact hreg),
        State.touchDtb_accessAddress, State.storeNoncached, if_pos (State.touchDtb_dcForced.trans hf)]
      rfl
    · refine ⟨hit, _, ?_, rfl⟩
      rw [State.store, State.dstream_ok htr ho, State.storeAt_memory (by rw [State.touchDtb_accessAddress]; exact hreg),
        State.touchDtb_accessAddress]
      rfl
  obtain ⟨d, fence, n, hd, hdata⟩ := State.storeMemory_forced (s := s.touchDtb hit) (r := r) (a := a) v
    (State.touchDtb_dcForced.trans hf) fun b =>
      (congrArg DcLook.errors (State.touchDtb_dcLook b r.quad true)).trans (hr b)
  refine ⟨_, hres.trans hu, ?_⟩
  rw [hstore, hd]
  refine ⟨State.wbStore_touchDtb .., ?_, fun bank1 => (hdata bank1).trans ?_, State.sameBut_touch hit ?_ rfl⟩ <;>
    cases hit <;> rfl

/-! ## Store-conditionals (R364) -/

/-- A register write changes registers only. -/
theorem State.writeInt_eq_registers (u : State) (n : RegNum) (v : Word) : ∃ i sh, u.writeInt n v = { u with ints := i, shadow := sh } := by
  rw [State.writeInt]
  cases u.intSlot n <;> exact ⟨_, _, rfl⟩

/-- The state in which a noncached store-conditional writes its success: the entry, the lock flag clear. -/
def State.condQueued (s : State) (hit : Option (Fin 64)) (quad : Bool) (a : PAddr) (ra : RegNum) (v : Word) : State :=
  { s.touchDtb hit with
    lockFlag := false
    wb := ⟨granule a, .cond (s.intSlot ra), placedMask quad a, placedDatum quad a v, s.wbFence || s.wbHolds (granule a),
      s.wbNoMerge⟩ :: s.wb
    wbFence := false
    freeCount := s.freeCount + 1 }

/-- Its success is free until the system decides. -/
theorem State.condNoncached_eq (v : Word) : ∃ success, (success = 0#64 ∨ success = 1#64) ∧
    s.condNoncached r a v = (s.condQueued none r.quad a r.ra v).writeInt r.ra success := by
  refine ⟨ofBool64 (s.freeNow.getLsbD 0), by cases s.freeNow.getLsbD 0 <;> simp [ofBool64], ?_⟩
  rw [State.condNoncached, longsOf_eq_placedMask, blockData_eq_placedDatum]
  unfold State.condQueued
  change State.drawn (State.writeSlot _ (s.intSlot r.ra) _) = State.writeSlot _ (s.intSlot r.ra) _
  cases s.intSlot r.ra <;> rfl

theorem State.storeCond_device {res : Res State} {v : Word} (hres : res = s.storeCond r v) (h : s.reachesDevice r a) :
    ∃ t, res = .next t ∧ s.deviceCond t r.quad a r.ra v := by
  obtain ⟨pa, hit, htr, rfl, hreg, ho⟩ := h
  obtain ⟨success, hsuccess, hcond⟩ := State.condNoncached_eq (s := s.touchDtb hit) (r := r) (a := s.accessAddress r.quad pa) v
  have hqueued : (s.touchDtb hit).condQueued none r.quad (s.accessAddress r.quad pa) r.ra v =
      s.condQueued hit r.quad (s.accessAddress r.quad pa) r.ra v := by cases hit <;> rfl
  rw [hqueued] at hcond
  refine ⟨_, hres.trans (by
    rw [State.storeCond, State.dstream_ok htr ho,
      State.condAt_noncached (by rw [State.touchDtb_accessAddress]; exact hreg), State.touchDtb_accessAddress, hcond]; rfl), ?_⟩
  have hwrite := intWrite_of_same s (u := s.condQueued hit r.quad (s.accessAddress r.quad pa) r.ra v) r.ra success
    (by cases hit <;> rfl) (by cases hit <;> rfl) (by cases hit <;> rfl) (by cases hit <;> rfl)
  obtain ⟨i, sh, hframe⟩ := (s.condQueued hit r.quad (s.accessAddress r.quad pa) r.ra v).writeInt_eq_registers r.ra success
  rw [hframe] at hwrite ⊢
  refine ⟨⟨success, hsuccess, State.intWrite_congr hwrite rfl rfl rfl rfl⟩, rfl, ?_, ⟨_, rfl⟩, State.sameBut_touch hit ?_ rfl⟩ <;>
    cases hit <;> rfl

/-! ## The statement -/

/-- Settles O20: each instruction is one reference, and the lemmas above say where it ends. -/
theorem noncachedAccesses : Obligations.NoncachedAccesses := by
  intro ra rb a s force right hits waits
  have hwaits {r : Ref} (h : waits r) : s.dcForced = false := Bool.eq_false_iff.2 fun hf => h.2 (State.dcForced_iff.1 hf)
  have hforce {r : Ref} (h : hits r) : s.dcForced = true := State.dcForced_iff.2 h.2.1
  have hint {res : Res State} {r : Ref} {locked : Bool} (hres : res = s.loadInt r locked) (hw : r.write = false) :=
    And.intro (fun h : waits r => State.loadInt_waits hres h.1 (hwaits h))
      fun h : hits r => State.loadInt_hits hres h.1 (hforce h) (hw ▸ h.2.2)
  have hfp {res : Res State} {r : Ref} {form : FpForm} (hres : res = s.loadFp r form) (hw : r.write = false) :=
    And.intro (fun h : waits r => State.loadFp_waits hres h.1 (hwaits h))
      fun h : hits r => State.loadFp_hits hres h.1 (hforce h) (hw ▸ h.2.2)
  have hstore {res : Res State} {r : Ref} {v : Word} (hres : res = s.store r v) (hw : r.write = true) :=
    And.intro (fun h : waits r => State.store_waits hres h.1 (hwaits h))
      fun h : hits r => State.store_hits hres h.1 (hforce h) (hw ▸ h.2.2)
  refine ⟨fun disp => ⟨?int, ?fp, ?store, ?storeFp, ?cond⟩, ?hw⟩
  case int =>
    simp only [List.forall_mem_cons, List.not_mem_nil, false_implies, implies_true, and_true]
    exact ⟨fun _ => hint exec_ldl rfl, fun _ => hint exec_ldq rfl, fun hn => hint (exec_ldqU (hn trivial)) rfl,
      fun _ => hint exec_ldlL rfl, fun _ => hint exec_ldqL rfl⟩
  case fp =>
    simp only [List.forall_mem_cons, List.not_mem_nil, false_implies, implies_true, and_true]
    exact ⟨fun h => hfp (exec_ldf h) rfl, fun h => hfp (exec_ldg h) rfl, fun h => hfp (exec_lds h) rfl,
      fun h => hfp (exec_ldt h) rfl⟩
  case store =>
    simp only [List.forall_mem_cons, List.not_mem_nil, false_implies, implies_true, and_true]
    exact ⟨hstore exec_stl rfl, hstore exec_stq rfl, hstore exec_stqU rfl⟩
  case storeFp =>
    simp only [List.forall_mem_cons, List.not_mem_nil, false_implies, implies_true, and_true]
    exact ⟨fun h => hstore (exec_stf h) rfl, fun h => hstore (exec_stg h) rfl, fun h => hstore (exec_sts h) rfl,
      fun h => hstore (exec_stt h) rfl⟩
  case cond =>
    simp only [List.forall_mem_cons, List.not_mem_nil, false_implies, implies_true, and_true]
    exact ⟨State.storeCond_device exec_stlC, State.storeCond_device exec_stqC⟩
  case hw =>
    intro disp phys alt wrtck quad vpte lock hpal va r w store
    have hs : s.palAllowed = true := s.palAllowed_iff.2 hpal
    have hld : exec (.hwLd ra rb phys alt wrtck quad vpte lock disp) s = s.loadInt r lock :=
      palGate_on hs fun u => u.loadInt (hwLdRef (u.hwAddr rb disp) ra phys alt wrtck quad vpte) lock
    have hst : store false = s.store w (s.readInt ra) :=
      palGate_on hs fun u => u.store (hwStRef (u.hwAddr rb disp) ra phys alt quad) (u.readInt ra)
    have hcond : store true = s.storeCond w (s.readInt ra) :=
      palGate_on hs fun u => u.storeCond (hwStRef (u.hwAddr rb disp) ra phys alt quad) (u.readInt ra)
    obtain ⟨hl, hl'⟩ := hint hld rfl
    obtain ⟨ht, ht'⟩ := hstore hst rfl
    exact ⟨hl, hl', ht, ht', State.storeCond_device hcond⟩

end Sys2Proof.Machine
end

section
/-! SUPPORT. What an operation of the caches leaves alone, finer than `Quiet`: `CacheWork s t` says that `t` is `s` but for the
correctable-error request, the error registers of the Cbox, the Dcache, the Scache and its victim buffer, the Bcache, main memory, and the
model's own records of transactions, events and free values. The lock flag, the buffers and the answers of the system are as before. -/

namespace Sys2Proof.Machine

/-- The state with every field that the caches change put out of sight. -/
def State.outside (s : State) : State :=
  { s with
    ibox := { s.ibox with crdReq := false }
    cbox := { Cbox.reset with scCtl := s.cbox.scCtl, bcControl := s.cbox.bcControl, bcConfig := s.cbox.bcConfig }
    dcache := State.reset.dcache, scache := [], victims := [], bcTags := [], bcDatas := [], mchkPending := false, mem := []
    busOut := [], freeCount := 0, tally := [] }

/-- Only what the caches change has changed. -/
structure CacheWork (s t : State) : Prop where
  outside : t.outside = s.outside

namespace CacheWork

variable {s t u : State}

theorem refl (s : State) : CacheWork s s := ⟨rfl⟩

theorem trans (h : CacheWork s t) (h' : CacheWork t u) : CacheWork s u := ⟨h'.outside.trans h.outside⟩

/-- A field that the caches leave alone. -/
theorem field {α : Type} (f : State → α) (hf : ∀ u : State, f u.outside = f u) (h : CacheWork s t) : f t = f s := by
  rw [← hf t, h.outside, hf s]

theorem lockFlag (h : CacheWork s t) : t.lockFlag = s.lockFlag := h.field _ fun _ => rfl
theorem lockAddr (h : CacheWork s t) : t.lockAddr = s.lockAddr := h.field _ fun _ => rfl
theorem pins (h : CacheWork s t) : t.pins = s.pins := h.field _ fun _ => rfl
theorem answers (h : CacheWork s t) : t.answers = s.answers := h.field _ fun _ => rfl
theorem miss0 (h : CacheWork s t) : t.miss0 = s.miss0 := h.field _ fun _ => rfl
theorem miss1 (h : CacheWork s t) : t.miss1 = s.miss1 := h.field _ fun _ => rfl
theorem scCtl (h : CacheWork s t) : t.cbox.scCtl = s.cbox.scCtl := h.field (fun u => u.cbox.scCtl) fun _ => rfl
theorem blockOf (h : CacheWork s t) : t.blockOf = s.blockOf := h.field _ fun _ => rfl
theorem blockGranules (h : CacheWork s t) : t.blockGranules = s.blockGranules := h.field _ fun _ => rfl

theorem foldl {α : Type} {f : State → α → State} (h : ∀ s a, CacheWork s (f s a)) (l : List α) :
    ∀ s, CacheWork s (l.foldl f s) := by
  induction l with
  | nil => exact fun s => .refl s
  | cons a l ih => exact fun s => (h s a).trans (ih _)

/-- Either of two ways. -/
theorem ite {c : Prop} [Decidable c] (h : CacheWork s t) (h' : CacheWork s u) : CacheWork s (if c then t else u) := by
  split
  · exact h
  · exact h'

theorem ite_snd {α : Type} {c : Prop} [Decidable c] {a b : α × State} (h : CacheWork s a.2) (h' : CacheWork s b.2) :
    CacheWork s (if c then a else b).2 := by
  split
  · exact h
  · exact h'

end CacheWork

variable (s : State)

theorem CacheWork.watch {f : State → State} (h : ∀ u, CacheWork u (f u)) : CacheWork s (s.watch f).2 :=
  ((⟨rfl⟩ : CacheWork s { s with mchkPending := false }).trans (h _)).trans ⟨rfl⟩

/-! ## Records, the error registers, the Dcache -/

theorem CacheWork.drawn : CacheWork s s.drawn := ⟨rfl⟩
theorem CacheWork.drive (e : BusEvent) : CacheWork s (s.drive e) := ⟨rfl⟩
theorem CacheWork.noteEvent (e : CboxEvent) : CacheWork s (s.noteEvent e) := ⟨rfl⟩

theorem CacheWork.scError (t : BitVec 3) (d : BitVec 8) (c : ScCommand) (pa : PAddr) : CacheWork s (s.scError t d c pa) := by
  unfold State.scError
  exact .ite (.refl s) (.ite ⟨rfl⟩ ⟨rfl⟩)

theorem CacheWork.hardError (b : EiBits) (m i : Bool) (pa : PAddr) (y : BitVec 16) : CacheWork s (s.hardError b m i pa y) := by
  unfold State.hardError
  exact .ite (.refl s) (.ite ⟨rfl⟩ ⟨rfl⟩)

theorem CacheWork.recordCorrectable (m i : Bool) (pa : PAddr) (y : BitVec 16) :
    CacheWork s (s.recordCorrectable m i pa y) := by
  unfold State.recordCorrectable
  exact .ite (.refl s) (.ite ⟨rfl⟩ ⟨rfl⟩)

theorem CacheWork.dcFlush : CacheWork s s.dcFlush := ⟨rfl⟩
theorem CacheWork.dcInvalidate (pa : PAddr) : CacheWork s (s.dcInvalidate pa) := ⟨rfl⟩

theorem CacheWork.correctableError (m i : Bool) (pa : PAddr) (y : BitVec 16) : CacheWork s (s.correctableError m i pa y) :=
  ((CacheWork.recordCorrectable s m i pa y).trans (CacheWork.dcFlush _)).trans ⟨rfl⟩

theorem CacheWork.checkBeat (m i : Bool) (pa : PAddr) (x : Beat) : CacheWork s (s.checkBeat m i pa x) := by
  unfold State.checkBeat
  refine .ite (.refl s) ?_
  split
  · exact .ite (.refl s) (CacheWork.correctableError ..)
  · exact CacheWork.hardError ..

/-! ## The Scache -/

theorem CacheWork.scTagLoad (b : Block) : CacheWork s (s.scTagLoad b) := ⟨rfl⟩

theorem CacheWork.scLookup (c : ScCommand) (pa : PAddr) (l : List Block) : CacheWork s (s.scLookup c pa l) := by
  unfold State.scLookup
  refine .ite (.ite (.refl s) (CacheWork.scTagLoad ..)) ?_
  split
  · exact CacheWork.scError ..
  · exact .ite (.refl s) (CacheWork.scError ..)

theorem CacheWork.scUpdate (b : Block) (f : ScSub → ScSub) : CacheWork s (s.scUpdate b f) := ⟨rfl⟩
theorem CacheWork.scInvalidate (b : Block) : CacheWork s (s.scInvalidate b) := ⟨rfl⟩
theorem CacheWork.scInstall (w : Fin 3) (b : Block) (d : Block → Hexword) (x y : Bool) :
    CacheWork s (s.scInstall w b d x y) := ⟨rfl⟩

/-! ## The Bcache -/

theorem CacheWork.bcStoreTag (l : BcTag) : CacheWork s (s.bcStoreTag l) := .ite ⟨rfl⟩ (.refl s)

theorem CacheWork.bcStoreData (l : BcData) : CacheWork s (s.bcStoreData l) := .ite ⟨rfl⟩ (.refl s)

theorem CacheWork.bcWriteTag (b : Block) (v x y : Bool) : CacheWork s (s.bcWriteTag b v x y) := CacheWork.bcStoreTag ..

theorem CacheWork.bcWrite (b : Block) (o : BitVec 2) (d : Hexword) (x y : Bool) : CacheWork s (s.bcWrite b o d x y) :=
  (CacheWork.bcStoreData ..).trans (CacheWork.bcWriteTag ..)

theorem CacheWork.bcWriteBeats (b : Block) (lo hi : Beat) (x y : Bool) : CacheWork s (s.bcWriteBeats b lo hi x y) :=
  (CacheWork.bcStoreData ..).trans (CacheWork.bcWriteTag ..)

theorem CacheWork.bcProbe (i y : Bool) (pa : PAddr) : CacheWork s (s.bcProbe i y pa) := by
  have h : ∀ w e, CacheWork s (State.noteEvent { s.drawn with cbox := { s.cbox with bcTagAddr := w } } e) :=
    fun _ _ => ⟨rfl⟩
  exact .ite (h ..) ((h ..).trans (CacheWork.hardError ..))

/-! ## Main memory and victims -/

theorem CacheWork.writeMem (b : Block) (m : BitVec 8) (h : Hexword) : CacheWork s (s.writeMem b m h) := ⟨rfl⟩

theorem CacheWork.writeVictim (l : ScLine) : CacheWork s (s.writeVictim l) := by
  have hw := (CacheWork.writeMem s (l.block false) (s.victimMask l false) (l.half false).data).trans
    (CacheWork.writeMem _ (l.block true) (s.victimMask l true) (l.half true).data)
  have hd : ∀ (c : Bool) (t : State) e, CacheWork t (if c then t.drive e else t) := fun _ _ _ =>
    .ite (CacheWork.drive ..) (.refl _)
  exact .ite (hw.trans (CacheWork.drive ..)) ((hw.trans (hd ..)).trans (hd ..))

theorem CacheWork.writeVictims : CacheWork s s.writeVictims :=
  (⟨rfl⟩ : CacheWork s { s with victims := [] }).trans (CacheWork.foldl CacheWork.writeVictim _ _)

theorem CacheWork.victimRoom : CacheWork s s.victimRoom := by
  unfold State.victimRoom
  split
  · exact .ite ((⟨rfl⟩ : CacheWork s { s with victims := s.victims.tail }).trans (CacheWork.writeVictim ..))
      (CacheWork.writeVictims s)
  · exact .refl s

theorem CacheWork.pushVictim (l : ScLine) : CacheWork s (s.pushVictim l) := (CacheWork.victimRoom s).trans ⟨rfl⟩

theorem CacheWork.settleVictims (b : Block) : CacheWork s (s.settleVictims b) :=
  .ite (.ite ((⟨rfl⟩ : CacheWork s { s with victims := s.victims.filter fun l => !l.holds b }).trans
    (CacheWork.foldl CacheWork.writeVictim _ _)) (CacheWork.writeVictims s)) (.refl s)

theorem CacheWork.bcTake (h : Bool) (b : Block) (x : ScSub) : CacheWork s (s.bcTake h b x) := CacheWork.bcWrite ..

theorem CacheWork.displaceSub (l : ScLine) (h u : Bool) : CacheWork s (s.displaceSub l h u) := by
  have hi := CacheWork.dcInvalidate s (granuleAddr (l.block u))
  exact .ite (.ite (hi.trans (CacheWork.bcTake ..)) hi) (.refl s)

theorem CacheWork.checkVictim (l : ScLine) : CacheWork s (s.checkVictim l) := by
  unfold State.checkVictim
  exact .ite (.refl s) (CacheWork.scError ..)

theorem CacheWork.displace (way : Fin 3) (idx : Nat) : CacheWork s (s.displace way idx) := by
  unfold State.displace
  dsimp only
  generalize scGet way idx s.scache = l
  generalize s.bcHit (l.block false) = a
  generalize s.bcHit (l.block true) = b
  have h2 : CacheWork s { (s.displaceSub l a false).displaceSub l b true with
      scache := scPut l.flushed ((s.displaceSub l a false).displaceSub l b true).scache } :=
    ((CacheWork.displaceSub ..).trans (CacheWork.displaceSub ..)).trans ⟨rfl⟩
  have h3 := h2.trans (CacheWork.noteEvent _ .scVictim)
  exact .ite (CacheWork.trans (.ite h3 (h3.trans (CacheWork.pushVictim ..))) (CacheWork.checkVictim ..)) h2

theorem CacheWork.scMakeRoom (w : Fin 3) (b : Block) : CacheWork s (s.scMakeRoom w b) :=
  .ite (.refl s) (CacheWork.displace ..)

/-- The state with the lock flag ANDed with system_lock_flag_h (R362). -/
def State.andLock (s : State) : State := { s with lockFlag := s.lockFlag && s.pins.systemLockFlag }

/-- What the caches do first makes no difference to the lock flag. -/
theorem CacheWork.andLock {s t : State} (h : CacheWork s t) : CacheWork s.andLock t.andLock :=
  ⟨congrArg State.andLock h.outside⟩

theorem CacheWork.dropLock {s t : State} (h : CacheWork s t) : CacheWork s.dropLock t.dropLock :=
  ⟨congrArg State.dropLock h.outside⟩

theorem CacheWork.unlockBlock {s t : State} (h : CacheWork s t) (pa : PAddr) : CacheWork (s.unlockBlock pa) (t.unlockBlock pa) := by
  unfold State.unlockBlock
  rw [h.blockOf, h.lockAddr]
  split
  · exact h.dropLock
  · exact h

/-- The Scache takes a block: but for the lock flag, only the caches change. -/
theorem CacheWork.scFill (w : Fin 3) (b : Block) (d : Block → Hexword) (x y : Bool) :
    CacheWork s.andLock (s.scFill w b d x y) :=
  ((CacheWork.scMakeRoom s w b).trans (CacheWork.scInstall _ w b d x y)).andLock

theorem CacheWork.bcReclaim (g : Block) : CacheWork s (s.bcReclaim g) := by
  unfold State.bcReclaim
  refine .ite (CacheWork.trans ?_ (CacheWork.scInvalidate ..)) (.refl s)
  split
  · exact .ite (CacheWork.bcTake ..) (.refl s)
  · exact .refl s

theorem CacheWork.bcCastOut (b : Block) : CacheWork s (s.bcCastOut b) := by
  have h : CacheWork s (if (s.bcTagAt b).dirty then
      (s.blockGranules b).foldl (fun t g => t.writeMem (s.bcOccupant g) 0xFF#8 (s.bcDataAt g).data) s else s) :=
    .ite (CacheWork.foldl (fun _ _ => CacheWork.writeMem ..) _ _) (.refl s)
  exact .ite (h.trans (CacheWork.bcStoreTag ..)) (.refl s)

theorem CacheWork.bcEvict (pa : PAddr) : CacheWork s (s.bcEvict pa).2 := by
  have h := (CacheWork.foldl CacheWork.bcReclaim (s.blockGranules (granule pa)) s).trans (CacheWork.bcCastOut _ (granule pa))
  exact .ite_snd (h.trans (CacheWork.noteEvent ..)) h

/-! ## System commands, but for the lock flag -/

theorem CacheWork.removeGranule (c : SysCommand) (g : Block) : CacheWork s (s.removeGranule c g) :=
  .ite ((CacheWork.scInvalidate s g).trans (CacheWork.bcWriteTag ..)) (CacheWork.scInvalidate s g)

theorem CacheWork.shareDirty (a : Answer) (g : Block) : CacheWork s (s.shareDirty a g) := by
  unfold State.shareDirty
  split
  · exact .refl s
  · exact .ite ((CacheWork.scUpdate ..).trans (CacheWork.bcWrite ..)) (CacheWork.scUpdate ..)
  · exact (CacheWork.scUpdate ..).trans (CacheWork.bcWriteTag ..)

theorem CacheWork.commandGranule (c : SysCommand) (a : Answer) (pa : PAddr) (g : Block) :
    CacheWork s (s.commandGranule c a pa g) := by
  have h : CacheWork s (if c.removes && dataFollows c a then s.writeMem g 0xFF#8 (s.answerData pa g) else s) :=
    .ite (CacheWork.writeMem ..) (.refl s)
  unfold State.commandGranule
  dsimp only
  split
  · exact h.trans (CacheWork.removeGranule ..)
  · exact h.trans (CacheWork.removeGranule ..)
  · exact h.trans (CacheWork.removeGranule ..)
  · exact .ite ((h.trans (CacheWork.scUpdate ..)).trans (CacheWork.bcWriteTag ..)) (h.trans (CacheWork.scUpdate ..))
  · exact h.trans (CacheWork.shareDirty ..)
  · exact h

theorem CacheWork.commandLookup (c : SysCommand) (pa : PAddr) : CacheWork s (s.commandLookup c pa) := by
  have h1 := CacheWork.foldl CacheWork.settleVictims (s.blockGranules (granule pa)) s
  have h := h1.trans (CacheWork.scLookup ((s.blockGranules (granule pa)).foldl State.settleVictims s) c.scCommand pa
    ((s.wrapOrder pa).map (s.octGranule (granule pa))))
  exact .ite (.ite (h.trans (CacheWork.bcProbe ..)) h) (.refl s)

theorem CacheWork.answerCommand (c : SysCommand) (pa : PAddr) : CacheWork s (s.answerCommand c pa) := ⟨rfl⟩

/-! ## Misses and fills, but for the lock flag -/

theorem CacheWork.driveMiss (c : BusEvent) (v : Option (PAddr × BusEvent)) : CacheWork s (s.driveMiss c v) := by
  unfold State.driveMiss
  split
  · exact CacheWork.drive ..
  · exact .ite ((CacheWork.drive ..).trans (CacheWork.drive ..))
      (((CacheWork.drive ..).trans (CacheWork.drive ..)).trans (CacheWork.drive ..))

theorem CacheWork.missPlan (w : Want) (pa : PAddr) : CacheWork s (s.missPlan w pa).after := by
  have h := (CacheWork.scMakeRoom s (s.scVictimWay (granule pa)) (granule pa)).trans (CacheWork.drawn _)
  exact .ite_snd (h.trans (CacheWork.bcEvict ..)) h

theorem CacheWork.sendMiss (w : Want) (pa : PAddr) : CacheWork s (s.sendMiss w pa).2 :=
  (CacheWork.missPlan s w pa).trans (CacheWork.driveMiss ..)

theorem CacheWork.checkFill (a : SysAnswer) (i : Bool) (pa : PAddr) : CacheWork s (s.checkFill a i pa) :=
  (⟨rfl⟩ : CacheWork s { s with mchkPending := s.mchkPending || a.fillError }).trans
    (CacheWork.foldl (fun _ _ => CacheWork.checkBeat ..) _ _)

theorem CacheWork.bcFill (a : SysAnswer) (pa : PAddr) (f : Block → Nat → Beat) : CacheWork s (s.bcFill a pa f) :=
  CacheWork.foldl (fun _ _ => CacheWork.bcWriteBeats ..) _ s

theorem CacheWork.deviceFill (a : SysAnswer) (i : Bool) (pa : PAddr) : CacheWork s (s.deviceFill a i pa).2 :=
  .watch s fun u => ((⟨rfl⟩ : CacheWork u { u with
    freeCount := u.freeCount + 4, mchkPending := u.mchkPending || a.fillError }).trans
    (CacheWork.checkBeat ..)).trans (CacheWork.checkBeat ..)

/-- A fill ends with the block being taken into its set. -/
theorem State.takeFill_eq_scFill (w : Want) (k : Fin 3) (a : SysAnswer) (pa : PAddr) :
    ∃ u d x y, CacheWork s u ∧ (s.takeFill w k a pa).2 = u.scFill k (granule pa) d x y := by
  have h1 : CacheWork s (s.watch fun u => u.checkFill a w.istream pa).2 := .watch s fun u => CacheWork.checkFill u a w.istream pa
  unfold State.takeFill
  dsimp only
  split
  · refine ⟨_, _, _, _, (h1.trans ?_).trans (CacheWork.bcFill ..), rfl⟩
    have h2 := CacheWork.bcEvict (s.watch fun u => u.checkFill a w.istream pa).2 pa
    split
    · rename_i hv; rw [hv] at h2; exact h2.trans (CacheWork.drive ..)
    · rename_i hv; rw [hv] at h2; exact h2
  · exact ⟨_, _, _, _, h1, rfl⟩

theorem CacheWork.takeFill (w : Want) (k : Fin 3) (a : SysAnswer) (pa : PAddr) :
    CacheWork s.andLock (s.takeFill w k a pa).2 := by
  obtain ⟨u, d, x, y, hu, he⟩ := s.takeFill_eq_scFill w k a pa
  rw [he]
  exact hu.andLock.trans (CacheWork.scFill ..)

theorem CacheWork.takeFromBcache (w : Want) (pa : PAddr) : CacheWork s.andLock (s.takeFromBcache w pa).2 :=
  ((CacheWork.watch s fun u => CacheWork.foldl (fun _ _ => CacheWork.checkBeat ..) _ u).andLock.trans
    (CacheWork.scFill ..)).trans (CacheWork.drawn _)

end Sys2Proof.Machine
end

section
/-! System commands and the other events (O54): what a probe finds and a command answers, that a block which a command takes away is
gone from the Scache and the Dcache, and that no event touches the lock but those which take a block or send a store. -/

namespace Sys2Proof.Machine

variable {s t : State} {g b : Block} {pa : PAddr}

/-! ## Entries of the Scache -/

@[simp] theorem ScLine.setSub_idx (l : ScLine) (b : Block) (x : ScSub) : (l.setSub b x).idx = l.idx := by
  unfold ScLine.setSub; split <;> rfl
@[simp] theorem ScLine.setSub_way (l : ScLine) (b : Block) (x : ScSub) : (l.setSub b x).way = l.way := by
  unfold ScLine.setSub; split <;> rfl
@[simp] theorem ScLine.setSub_tag (l : ScLine) (b : Block) (x : ScSub) : (l.setSub b x).tag = l.tag := by
  unfold ScLine.setSub; split <;> rfl

theorem ScLine.sub_setSub (l : ScLine) (b : Block) (x : ScSub) (g : Block) :
    (l.setSub b x).sub g = if g.getLsbD 0 = b.getLsbD 0 then x else l.sub g := by
  unfold ScLine.setSub ScLine.sub
  cases g.getLsbD 0 <;> cases b.getLsbD 0 <;> rfl

/-- What an entry holds when one of its subblocks is no longer valid. -/
theorem ScLine.holds_setSub_invalid (l : ScLine) (b g : Block) :
    (l.setSub b { l.sub b with valid := false }).holds g = (l.holds g && g.getLsbD 0 != b.getLsbD 0) := by
  unfold ScLine.holds
  rw [ScLine.sub_setSub, ScLine.setSub_idx, ScLine.setSub_tag]
  cases g.getLsbD 0 <;> cases b.getLsbD 0 <;> simp

/-! ## Blocks that neither the Scache nor the Dcache holds -/

/-- Neither the Scache nor the Dcache holds any part of 32 bytes. -/
def State.lacks (s : State) (g : Block) : Prop :=
  s.scFind g = none ∧ ∀ bank1 x, granule x = g → s.dcByte bank1 x = none

theorem State.scFind_congr (h1 : t.scache = s.scache) (h2 : t.cbox.scCtl = s.cbox.scCtl) (g : Block) : t.scFind g = s.scFind g := by
  unfold State.scFind State.scWayOn
  rw [h1, h2]

theorem State.lacks_congr (h1 : t.scache = s.scache) (h2 : t.cbox.scCtl = s.cbox.scCtl) (h3 : t.dcache = s.dcache)
    (h4 : t.mbox = s.mbox) (h : s.lacks g) : t.lacks g :=
  ⟨by rw [State.scFind_congr h1 h2]; exact h.1, fun bank1 x hx => by rw [State.dcByte_congr h3 h4]; exact h.2 bank1 x hx⟩

/-- The Scache holds no block that it did not hold before one was removed, and not that one. -/
theorem State.scFind_scInvalidate (s : State) (b g : Block) (h : s.scFind g = none ∨ g = b) :
    (s.scInvalidate b).scFind g = none := by
  refine List.find?_eq_none.2 fun m hm => ?_
  obtain ⟨l, hl, rfl⟩ := List.mem_map.1 hm
  show ¬ (ScLine.holds (if l.holds b && s.scWayOn l.way then l.setSub b { l.sub b with valid := false } else l) g &&
    s.scWayOn _) = true
  have hfind : s.scFind g = none → (l.holds g && s.scWayOn l.way) = false := fun h =>
    Bool.eq_false_iff.2 (List.find?_eq_none.1 h l hl)
  split
  · rw [ScLine.holds_setSub_invalid, ScLine.setSub_way]
    rcases h with h | rfl
    · have := hfind h; grind
    · simp
  · rename_i hb
    rcases h with h | rfl
    · simp [hfind h]
    · exact hb

theorem regionOf_granuleAddr (h : g.getLsbD 34 = false) : regionOf (granuleAddr g) = .memory := by
  have : (granuleAddr g).getLsbD 39 = false := by
    unfold granuleAddr
    rw [BitVec.getLsbD_append]
    exact h
  unfold regionOf
  rw [this]
  rfl

theorem granuleAddr_toNat (g : Block) : (granuleAddr g).toNat = 32 * g.toNat := by
  rw [granuleAddr, BitVec.toNat_append, show (0#5).toNat = 0 from rfl, Nat.or_zero, Nat.shiftLeft_eq]
  omega

theorem granule_granuleAddr (g : Block) : granule (granuleAddr g) = g := by
  apply BitVec.eq_of_toNat_eq
  rw [granule_toNat, granuleAddr_toNat]
  omega

/-- When a block of the memory-like region is removed, it is gone, and no other comes. -/
theorem State.lacks_scInvalidate (hb : b.getLsbD 34 = false) (h : s.lacks g ∨ g = b) : (s.scInvalidate b).lacks g := by
  refine ⟨State.scFind_scInvalidate s b g (h.imp And.left id), fun bank1 x hx => ?_⟩
  rw [State.scInvalidate, State.dcByte_dcInvalidate _ (regionOf_granuleAddr hb), granule_granuleAddr]
  split
  · rfl
  · rename_i hn
    rcases h with h | rfl
    · exact h.2 bank1 x hx
    · exact absurd hx hn

theorem State.bcWriteTag_arrays (s : State) (b : Block) (v x y : Bool) : ∃ l, s.bcWriteTag b v x y = { s with bcTags := l } := by
  unfold State.bcWriteTag State.bcStoreTag
  split
  · exact ⟨_, rfl⟩
  · exact ⟨s.bcTags, rfl⟩

theorem State.lacks_removeGranule (c : SysCommand) (hb : b.getLsbD 34 = false) (h : s.lacks g ∨ g = b) :
    (s.removeGranule c b).lacks g := by
  have hi := State.lacks_scInvalidate hb h
  unfold State.removeGranule
  dsimp only
  split
  · obtain ⟨l, hl⟩ := State.bcWriteTag_arrays (s.scInvalidate b) b false false false
    rw [hl]
    exact State.lacks_congr rfl rfl rfl rfl hi
  · exact hi

/-! ## The effect of a command on the caches -/

theorem SysCommand.removes_iff (c : SysCommand) : c.removes = true ↔ c ∈ [.flush, .invalidate, .readDirtyInv] := by
  cases c <;> decide

theorem State.commandGranule_removes {c : SysCommand} (hc : c.removes = true) (s : State) (a : Answer) (pa : PAddr) (b : Block) :
    s.commandGranule c a pa b =
      State.removeGranule (if c.removes && dataFollows c a then s.writeMem b 0xFF#8 (s.answerData pa b) else s) c b :=
  match c, hc with
  | .flush, _ | .invalidate, _ | .readDirtyInv, _ => rfl

/-- A command that removes a block: 32 bytes of it are gone, and no others come. -/
theorem State.lacks_commandGranule {c : SysCommand} (hc : c.removes = true) (a : Answer) (pa : PAddr)
    (hb : b.getLsbD 34 = false) (h : s.lacks g ∨ g = b) : (s.commandGranule c a pa b).lacks g := by
  rw [State.commandGranule_removes hc]
  refine State.lacks_removeGranule c hb (h.imp_left fun h => ?_)
  split
  · exact State.lacks_congr rfl rfl rfl rfl h
  · exact h

/-- All the blocks of a list have been removed. -/
theorem State.lacks_foldl_commandGranule {c : SysCommand} (hc : c.removes = true) (a : Answer) (pa : PAddr) (l : List Block)
    (hl : ∀ b ∈ l, b.getLsbD 34 = false) (s : State) (h : s.lacks g ∨ g ∈ l) :
    (l.foldl (fun t b => t.commandGranule c a pa b) s).lacks g := by
  induction l generalizing s with
  | nil => simpa using h
  | cons b l ih =>
    rw [List.forall_mem_cons] at hl
    refine ih hl.2 _ ?_
    rcases h with h | h
    · exact .inl (State.lacks_commandGranule hc a pa hl.1 (.inl h))
    · rcases List.mem_cons.1 h with h | h
      · exact .inl (State.lacks_commandGranule hc a pa hl.1 (.inr h))
      · exact .inr h

/-- The 32-byte blocks of a cache block of the memory-like region lie in it. -/
theorem State.blockGranules_memory (s : State) (h : regionOf pa = .memory) :
    ∀ b ∈ s.blockGranules (granule pa), b.getLsbD 34 = false := by
  have hbit : (granule pa).getLsbD 34 = false := by
    rw [granule, BitVec.getLsbD_extractLsb', regionOf_memory h]
    rfl
  unfold State.blockGranules
  split
  · simp only [List.forall_mem_cons, List.not_mem_nil, false_implies, implies_true, and_true, BitVec.getLsbD_and,
      BitVec.getLsbD_or, hbit, Bool.false_and, Bool.false_or, true_and]
    decide
  · simpa using hbit

theorem CacheWork.commandEffect (s : State) (c : SysCommand) (a : Answer) (pa : PAddr) :
    CacheWork (if c.removes then s.unlockBlock pa else s) (s.commandEffect c a pa) := by
  have h : CacheWork s (if regionOf pa = .memory then
      (s.blockGranules (granule pa)).foldl (fun t g => t.commandGranule c a pa g) s else s) :=
    .ite (CacheWork.foldl (fun t g => CacheWork.commandGranule t c a pa g) _ s) (.refl s)
  unfold State.commandEffect
  split
  · exact h.unlockBlock pa
  · exact h

/-! ## Answers -/

theorem State.probe_scHit (s : State) (pa : PAddr) (h : (s.probe pa).scDirty = true) : (s.probe pa).scHit = true := by
  simp only [State.probe, Bool.and_eq_true, List.any_eq_true] at h ⊢
  obtain ⟨hm, g, hg, hd⟩ := h
  refine ⟨hm, g, hg, ?_⟩
  split at hd
  · rename_i l hl; rw [hl]; rfl
  · cases hd

theorem State.probe_bcHit (s : State) (pa : PAddr) (h : (s.probe pa).bcDirty = true) :
    s.bcEnabled = true ∧ (s.probe pa).bcHit = true := by
  simp only [State.probe, Bool.and_eq_true] at h ⊢
  obtain ⟨⟨⟨hm, he⟩, hh⟩, -⟩ := h
  exact ⟨he, ⟨hm, he⟩, hh⟩

theorem State.commandAnswer_readDirty {c : SysCommand} (hc : c ∈ [SysCommand.readDirty, .readDirtyInv]) (s : State) (pa : PAddr) :
    s.commandAnswer c pa = if (s.probe pa).scDirty = true then .ackScache else if s.bcEnabled = true then .ackBcache else .noack := by
  have h : s.commandAnswer c pa =
      if (s.probe pa).scHit && (s.probe pa).scDirty then .ackScache else if s.bcEnabled then .ackBcache else .noack := by
    rcases List.mem_pair.1 hc with rfl | rfl <;> rfl
  have hd := s.probe_scHit pa
  rw [h]
  cases hs : (s.probe pa).scDirty
  · rw [Bool.and_false]
  · rw [hd hs]
    rfl

theorem State.commandAnswer_read {c : SysCommand} (hc : c ∈ [SysCommand.read, .flush]) (s : State) (pa : PAddr) :
    s.commandAnswer c pa =
      if (s.probe pa).scDirty = true then .ackScache else if (s.probe pa).bcDirty = true then .ackBcache else .noack := by
  have h : s.commandAnswer c pa = if (s.probe pa).scHit && (s.probe pa).scDirty then .ackScache
      else if s.bcEnabled && (s.probe pa).bcHit && (s.probe pa).bcDirty then .ackBcache else .noack := by
    rcases List.mem_pair.1 hc with rfl | rfl <;> rfl
  have hd := s.probe_scHit pa
  have hb := s.probe_bcHit pa
  rw [h]
  cases hs : (s.probe pa).scDirty
  · rw [Bool.and_false]
    cases hq : (s.probe pa).bcDirty
    · rw [Bool.and_false]
    · rw [(hb hq).1, (hb hq).2]
      rfl
  · rw [hd hs]
    rfl

/-! ## A command that is served -/

theorem State.unlockBlock_lockAddr (s : State) (pa : PAddr) : (s.unlockBlock pa).lockAddr = s.lockAddr := by
  unfold State.unlockBlock
  split <;> rfl

theorem State.unlockBlock_lockFlag (s : State) (pa : PAddr) :
    (s.unlockBlock pa).lockFlag = (s.lockFlag && !(s.blockOf s.lockAddr == s.blockOf pa)) := by
  unfold State.unlockBlock
  cases s.blockOf s.lockAddr == s.blockOf pa
  · simp
  · simp [State.dropLock]

/-- A command that is served changes the lock flag only by taking the locked block away (R361). -/
theorem CacheWork.serveCommand (s : State) (c : SysCommand) (pa : PAddr) :
    CacheWork (if c.removes then s.unlockBlock pa else s) (s.serveCommand c pa) := by
  have h := (CacheWork.commandLookup s c pa).trans (CacheWork.answerCommand _ c pa)
  refine CacheWork.trans ?_ (CacheWork.commandEffect _ c _ pa)
  split
  · exact h.unlockBlock pa
  · exact h

theorem State.serveCommand_lockAddr (s : State) (c : SysCommand) (pa : PAddr) : (s.serveCommand c pa).lockAddr = s.lockAddr := by
  refine (CacheWork.serveCommand s c pa).lockAddr.trans ?_
  split
  · exact s.unlockBlock_lockAddr pa
  · rfl

theorem State.lacks_commandEffect {c : SysCommand} (hc : c.removes = true) (s : State) (a : Answer) (hm : regionOf pa = .memory)
    (hg : g ∈ s.blockGranules (granule pa)) : (s.commandEffect c a pa).lacks g := by
  have hf := State.lacks_foldl_commandGranule hc a pa _ (s.blockGranules_memory hm) s (.inr hg)
  unfold State.commandEffect State.unlockBlock
  dsimp only
  rw [if_pos hm, if_pos hc]
  split
  · exact State.lacks_congr rfl rfl rfl rfl hf
  · exact hf

/-- A block that a command takes away is gone once the command has been served. -/
theorem State.serveCommand_gone {c : SysCommand} (hc : c.removes = true) (s : State) (hm : regionOf pa = .memory)
    (hg : g ∈ s.blockGranules (granule pa)) : (s.serveCommand c pa).lacks g := by
  have hw := (CacheWork.commandLookup s c pa).trans (CacheWork.answerCommand _ c pa)
  exact State.lacks_commandEffect hc _ _ hm (by rw [hw.blockGranules]; exact hg)

/-! ## Commands that wait -/

theorem sysCommandOf_code (c : SysCommand) : sysCommandOf c.code = some c := by cases c <;> decide

theorem SysCommand.code_ne_zero (c : SysCommand) : c.code ≠ 0#4 := by cases c <;> decide

theorem State.event_command_good (c : SysCommand) (hr : regionOf pa ≠ .cbox) (hn : s.nopParity = false) :
    s.event (.command c.code pa (addrCmdParity c.code pa)) = s.queueCommand (.command c pa) := by
  rw [State.event, State.systemCycle, bne_self_eq_false, Bool.false_and, if_neg Bool.false_ne_true, if_neg c.code_ne_zero,
    sysCommandOf_code]
  simp [State.acceptCommand, hr, hn]

theorem State.event_command_bad (c : SysCommand) (hh : s.hardErrorHidden 32#8 = false) :
    s.event (.command c.code pa (!addrCmdParity c.code pa)) =
      (s.hardError 32#8 true false pa 0#16).queueCommand .bad := by
  have hbad : ((!addrCmdParity c.code pa) != addrCmdParity c.code pa && !s.hardErrorHidden eiAddressParity) = true := by
    rw [show eiAddressParity = 32#8 from rfl, hh]
    cases addrCmdParity c.code pa <;> rfl
  rw [State.event, State.systemCycle, if_pos hbad, State.badCycle, if_neg c.code_ne_zero]
  rfl

theorem State.serveCommands_free (h : s.bcEnabled = false ∨ s.pins.idleBc = false) :
    s.serveCommands = s.cmds.foldl State.serveWaiting { s with cmds := [] } := by
  have hb : ¬ (s.bcEnabled && s.biuHeld) = true := by
    rcases h with h | h <;> simp [h, State.biuHeld]
  unfold State.serveCommands
  rw [if_neg hb]
  split
  · rename_i hc
    have hs : { s with cmds := [] } = s := by rw [← hc]
    rw [hs, hc]
    rfl
  · rfl

/-! ## The lock under the other events -/

/-- The lock flag and the lock address are as before. -/
def State.sameLock (s t : State) : Prop := t.lockFlag = s.lockFlag ∧ t.lockAddr = s.lockAddr

theorem CacheWork.sameLock (h : CacheWork s t) : s.sameLock t := ⟨h.lockFlag, h.lockAddr⟩

theorem State.sameLock.trans {u : State} (h : s.sameLock t) (h' : t.sameLock u) : s.sameLock u :=
  ⟨h'.1.trans h.1, h'.2.trans h.2⟩

theorem State.sameLock_deliver (s : State) (x : LoadTarget) (v : Word) : s.sameLock (s.deliver x v) := by
  obtain ⟨i, sh, f, h⟩ := s.deliver_frame x v
  rw [h]
  exact ⟨rfl, rfl⟩

theorem State.sameLock_queueCommand {w : Waiting} (h : s.queueCommand w = .next t) : s.sameLock t := by
  unfold State.queueCommand at h
  split at h
  · cases h
  · cases h
    exact ⟨rfl, rfl⟩

theorem State.sameLock_systemCycle {cmd : BitVec 4} {par : Bool} (h : s.systemCycle cmd pa par = .next t) : s.sameLock t := by
  unfold State.systemCycle State.badCycle State.acceptCommand at h
  have hh := (CacheWork.hardError s eiAddressParity true false pa 0#16).sameLock
  split at h
  · split at h
    · cases h
      exact hh
    · exact hh.trans (State.sameLock_queueCommand h)
  · split at h
    · cases h
      exact ⟨rfl, rfl⟩
    · split at h
      · cases h
      · split at h
        · cases h
        · split at h
          · split at h
            · cases h
              exact ⟨rfl, rfl⟩
            · exact State.sameLock_queueCommand (s := { s.drawn with nopParity := false }) h
          · exact State.sameLock_queueCommand h

theorem State.sameLock_agentWrite (bytes : List Byte) : ∀ (s : State) (pa : PAddr), s.sameLock (s.agentWrite pa bytes) := by
  induction bytes with
  | nil => exact fun s pa => ⟨rfl, rfl⟩
  | cons b rest ih =>
    intro s pa
    rw [State.agentWrite]
    refine State.sameLock.trans ?_ (ih _ _)
    split <;> exact ⟨rfl, rfl⟩

theorem State.sameLock_partialReset (s : State) : s.sameLock s.partialReset := by
  have h : ∀ (l : List LoadTarget) (u : State), u.sameLock (l.foldl (fun t x => t.deliverAny x true) u) := by
    intro l
    induction l with
    | nil => exact fun u => ⟨rfl, rfl⟩
    | cons x l ih => exact fun u => (u.sameLock_deliver x _).trans (ih _)
  have h1 : s.sameLock (s.awaited.foldl (fun t x => t.deliverAny x true) (s.recordIcError 4#3)).drawn :=
    State.sameLock.trans (t := s.recordIcError 4#3) ⟨rfl, rfl⟩ (h s.awaited _)
  unfold State.partialReset State.sameLock State.mchkHere
  rw [State.trap_lockFlag, State.trap_lockAddr]
  exact h1

theorem State.sameLock_countOne (s : State) (c n : Nat) (k : Fin 3) : s.sameLock (s.countOne c n k) := by
  unfold State.countOne
  dsimp only
  split <;> exact ⟨rfl, rfl⟩

theorem State.sameLock_elapse (u s : State) (c n : Nat) : s.sameLock (State.elapse u s c n) := by
  unfold State.elapse
  have h1 : s.sameLock (if s.mbox.ccEna then { s with mbox := { s.mbox with ccLo := s.mbox.ccLo + BitVec.ofNat 32 c } } else s) := by
    split <;> exact ⟨rfl, rfl⟩
  dsimp only
  split
  · exact ((h1.trans (State.sameLock_countOne _ c n 0)).trans (State.sameLock_countOne _ c n 1)).trans
      (State.sameLock_countOne _ c n 2)
  · exact h1

theorem State.sameLock_pass (s : State) (cycles : Nat) : s.sameLock (s.pass cycles) := by
  have h : s.sameLock (State.drawn { State.elapse s s cycles 0 with stalled := s.stalled + cycles }) := s.sameLock_elapse s cycles 0
  unfold State.pass
  dsimp only
  split
  · exact h.trans (State.sameLock_partialReset _)
  · exact h

theorem CacheWork.bcUpset (s : State) (b : Block) (x y : Bool) (d : Hexword) (c : BitVec 32) : CacheWork s (s.bcUpset b x y d c) :=
  (CacheWork.bcStoreTag ..).trans (CacheWork.bcStoreData ..)

/-- No event changes the lock but the sending of a store, a fill and chip reset. -/
theorem State.sameLock_event {e : EnvEvent} (h : s.event e = .next t) (hw : ∀ long, e ≠ .writeTimer long)
    (hf : ∀ register a, e ≠ .fill register a) (hr : ∀ ratio delay passed srom, e ≠ .chipReset ratio delay passed srom) :
    s.sameLock t := by
  cases e with
  | quiet => cases h; exact ⟨rfl, rfl⟩
  | pins => cases h; exact ⟨rfl, rfl⟩
  | idleBc => cases h; exact ⟨rfl, rfl⟩
  | command cmd pa par => exact State.sameLock_systemCycle h
  | memWrite pa bytes => cases h; exact s.sameLock_agentWrite bytes pa
  | answer => cases h; exact ⟨rfl, rfl⟩
  | prefetch pa =>
    cases h
    unfold State.askPrefetch
    split <;> exact ⟨rfl, rfl⟩
  | fill register a => exact absurd rfl (hf register a)
  | writeTimer long => exact absurd rfl (hw long)
  | wait cycles => cases h; exact s.sameLock_pass cycles
  | fillError => cases h; exact ⟨rfl, rfl⟩
  | cfail => cases h; exact s.sameLock_partialReset
  | icacheParity => cases h; exact ⟨rfl, rfl⟩
  | dcacheUpset => cases h; exact ⟨rfl, rfl⟩
  | scacheUpset => cases h; exact ⟨rfl, rfl⟩
  | bcacheUpset pa x y d c => cases h; exact (CacheWork.bcUpset s (granule pa) x y d c).sameLock
  | chipReset ratio delay passed srom => exact absurd rfl (hr ratio delay passed srom)

/-- Settles O54: the answers from what a probe can find; a served command and a fill by what the caches leave alone; the other events
one by one. -/
theorem systemCommands : Obligations.SystemCommands := by
  refine ⟨fun s pa => ⟨fun c hc => ?_, fun c hc => s.commandAnswer_readDirty hc pa, fun c hc => s.commandAnswer_read hc pa⟩,
    fun s c pa => ⟨s.serveCommand_lockAddr c pa, fun hc => ?_, fun hc => ?_⟩, fun s w way a pa => ?_,
    fun s c pa hr hn => ⟨fun hl => ?_, fun hl => ?_, fun hl hh => ?_⟩, fun s => ⟨fun hf => ?_, fun hb hi => ?_⟩,
    fun s t e h hw hf hr => State.sameLock_event h hw hf hr⟩
  · have h : s.commandAnswer c pa = if s.bcEnabled then .ackBcache else if (s.probe pa).scHit then .ackScache else .noack := by
      rcases List.mem_pair.1 hc with rfl | rfl <;> rfl
    rw [h]
    cases s.bcEnabled <;> simp
  · have hk : c.removes = false := by cases c <;> simp_all [SysCommand.removes]
    have hw := CacheWork.serveCommand s c pa
    rw [hk] at hw
    exact hw.lockFlag
  · have hk := c.removes_iff.2 hc
    have hw := CacheWork.serveCommand s c pa
    rw [if_pos hk] at hw
    exact ⟨hw.lockFlag.trans (s.unlockBlock_lockFlag pa), fun hm g hg => State.serveCommand_gone hk s hm hg⟩
  · have h1 := CacheWork.takeFill s w way a pa
    have h2 := CacheWork.takeFromBcache s w pa
    exact ⟨h1.lockFlag, h1.lockAddr, h2.lockFlag, h2.lockAddr⟩
  · rw [State.event_command_good c hr hn, State.queueCommand, if_neg (by omega)]
  · rw [State.event_command_good c hr hn, State.queueCommand, if_pos hl]
  · have hq : (s.hardError 32#8 true false pa 0#16).cmds = s.cmds :=
      (CacheWork.hardError s 32#8 true false pa 0#16).field _ fun _ => rfl
    rw [State.event_command_bad c hh, State.queueCommand, hq, if_neg (by omega)]
  · exact State.serveCommands_free hf
  · have hbi : (s.bcEnabled && s.biuHeld) = true := by rw [hb, State.biuHeld, hi]; rfl
    rw [State.serveCommands, if_pos hbi]

end Sys2Proof.Machine
end

section
/-! SUPPORT. The Scache without a Bcache behind it: what a lookup without errors leaves alone, what stands in a set once a block has been
taken into it, and what becomes of a miss that main memory answers. -/

namespace Sys2Proof.Machine

variable {s t : State} {b g : Block} {pa : PAddr} {way : Fin 3} {idx : Nat}

/-! ## Entries by set and index -/

@[simp] theorem scGet_idx (way : Fin 3) (idx : Nat) (ls : List ScLine) : (scGet way idx ls).idx = idx := by
  induction ls with
  | nil => rfl
  | cons l ls ih =>
    rw [scGet]
    split
    · rename_i h; exact h.1
    · exact ih

@[simp] theorem scGet_way (way : Fin 3) (idx : Nat) (ls : List ScLine) : (scGet way idx ls).way = way := by
  induction ls with
  | nil => rfl
  | cons l ls ih =>
    rw [scGet]
    split
    · rename_i h; exact h.2
    · exact ih

/-- An entry that is read is listed, or nothing has written it since reset. -/
theorem scGet_mem (way : Fin 3) (idx : Nat) (ls : List ScLine) :
    scGet way idx ls ∈ ls ∨ scGet way idx ls = ScLine.unlisted way idx := by
  induction ls with
  | nil => exact .inr rfl
  | cons l ls ih =>
    rw [scGet]
    split
    · exact .inl (List.mem_cons_self ..)
    · exact ih.imp_left (List.mem_cons_of_mem _)

theorem scGet_scPut (n : ScLine) (ls : List ScLine) : scGet n.way n.idx (scPut n ls) = n := by
  induction ls with
  | nil => simp [scPut, scGet]
  | cons l ls ih =>
    rw [scPut]
    split
    · simp [scGet]
    · rename_i h
      rw [scGet, if_neg h]
      exact ih

theorem self_mem_scPut (n : ScLine) (ls : List ScLine) : n ∈ scPut n ls := by
  induction ls with
  | nil => exact List.mem_cons_self ..
  | cons l ls ih =>
    rw [scPut]
    split
    · exact List.mem_cons_self ..
    · exact List.mem_cons_of_mem _ ih

theorem mem_scPut {m n : ScLine} {ls : List ScLine} (h : m ∈ scPut n ls) : m = n ∨ m ∈ ls := by
  induction ls with
  | nil => exact .inl (List.mem_singleton.1 h)
  | cons l ls ih =>
    rw [scPut] at h
    split at h
    · exact (List.mem_cons.1 h).imp_right (List.mem_cons_of_mem _)
    · rcases List.mem_cons.1 h with h | h
      · exact .inr (h ▸ List.mem_cons_self ..)
      · exact (ih h).imp_right (List.mem_cons_of_mem _)

theorem ScLine.isDirty_flushed (l : ScLine) : l.flushed.isDirty = false := rfl

theorem ScLine.isDirty_unlisted (way : Fin 3) (idx : Nat) : (ScLine.unlisted way idx).isDirty = false := rfl

/-! ## The 32-byte blocks of a cache block -/

theorem clearBit_of_even {b : Block} (h : b.getLsbD 0 = false) : b &&& ~~~1#35 = b := by
  refine BitVec.eq_of_getLsbD_eq fun i hi => ?_
  rw [BitVec.getLsbD_and]
  rcases Nat.eq_zero_or_pos i with rfl | h0
  · rw [h]; rfl
  · have : (~~~1#35).getLsbD i = true := by
      rw [BitVec.getLsbD_not, BitVec.getLsbD_one]
      simp [hi, Nat.ne_of_gt h0]
    rw [this, Bool.and_true]

theorem setBit_of_odd {b : Block} (h : b.getLsbD 0 = true) : b ||| 1#35 = b := by
  refine BitVec.eq_of_getLsbD_eq fun i hi => ?_
  rw [BitVec.getLsbD_or]
  rcases Nat.eq_zero_or_pos i with rfl | h0
  · rw [h]; rfl
  · have : (1#35).getLsbD i = false := by
      rw [BitVec.getLsbD_one]
      simp [Nat.ne_of_gt h0]
    rw [this, Bool.or_false]

/-- A cache block is 32 bytes, or these and the other half. -/
theorem State.blockGranules_cases (s : State) (b : Block) : s.blockGranules b = [b] ∨
    ∃ c : Block, c.getLsbD 0 = !b.getLsbD 0 ∧ c.getLsbD 34 = b.getLsbD 34 ∧
      (s.blockGranules b = [b, c] ∨ s.blockGranules b = [c, b]) := by
  unfold State.blockGranules
  split
  · refine .inr ?_
    cases hb : b.getLsbD 0
    · refine ⟨b ||| 1#35, ?_, ?_, .inl (by rw [clearBit_of_even hb])⟩
      · rw [BitVec.getLsbD_or, hb]; rfl
      · rw [BitVec.getLsbD_or]; simp
    · refine ⟨b &&& ~~~1#35, ?_, ?_, .inr (by rw [setBit_of_odd hb])⟩
      · rw [BitVec.getLsbD_and, hb]; rfl
      · rw [BitVec.getLsbD_and]; simp
  · exact .inl rfl

/-! ## What a filled entry holds -/

theorem ScLine.foldl_setSub (f : Block → ScSub) (gs : List Block) : ∀ l : ScLine,
    (gs.foldl (fun l g => l.setSub g (f g)) l).idx = l.idx ∧ (gs.foldl (fun l g => l.setSub g (f g)) l).way = l.way ∧
      (gs.foldl (fun l g => l.setSub g (f g)) l).tag = l.tag := by
  induction gs with
  | nil => exact fun l => ⟨rfl, rfl, rfl⟩
  | cons g gs ih => exact fun l => by simpa using ih (l.setSub g (f g))

theorem State.sub_foldl_setSub (s : State) (b : Block) (f : Block → ScSub) (l : ScLine) :
    ((s.blockGranules b).foldl (fun l g => l.setSub g (f g)) l).sub b = f b := by
  rcases s.blockGranules_cases b with h | ⟨c, hc, -, h | h⟩
  · simp [h, ScLine.sub_setSub]
  · have hb : b.getLsbD 0 ≠ c.getLsbD 0 := by rw [hc]; cases b.getLsbD 0 <;> decide
    simp only [h, List.foldl_cons, List.foldl_nil, ScLine.sub_setSub, if_neg hb, if_true]
  · simp only [h, List.foldl_cons, List.foldl_nil, ScLine.sub_setSub, if_true]

/-- What the entry of a set holds once a block has been taken into it. -/
theorem State.scInstall_line (s : State) (way : Fin 3) (b : Block) (data : Block → Hexword) (shared dirty : Bool) :
    ∃ n : ScLine, (s.scInstall way b data shared dirty).scache = scPut n s.scache ∧ n.way = way ∧ n.holds b = true ∧
      n.sub b = ⟨true, shared, dirty, 0#2, data b, s.scForcedBad⟩ := by
  refine ⟨_, rfl, ?_, ?_, State.sub_foldl_setSub s b _ _⟩
  · rw [(ScLine.foldl_setSub _ _ _).2.1]
    exact scGet_way ..
  · unfold ScLine.holds
    rw [State.sub_foldl_setSub s b, (ScLine.foldl_setSub _ _ _).1, (ScLine.foldl_setSub _ _ _).2.2]
    simp

/-! ## Room in a set -/

theorem State.ite_scache {c : Prop} [Decidable c] {a b : State} (ha : a.scache = s.scache) (hb : b.scache = s.scache) :
    (if c then a else b).scache = s.scache := by
  split
  · exact ha
  · exact hb

theorem State.writeVictim_scache (s : State) (l : ScLine) : (s.writeVictim l).scache = s.scache := by
  have hd : ∀ (c : Bool) (t : State) e, (if c then t.drive e else t).scache = t.scache := fun _ _ _ => State.ite_scache rfl rfl
  exact State.ite_scache rfl ((hd ..).trans (hd ..))

theorem State.foldl_writeVictim_scache (l : List ScLine) : ∀ s : State, (l.foldl State.writeVictim s).scache = s.scache := by
  induction l with
  | nil => exact fun s => rfl
  | cons v l ih => exact fun s => (ih _).trans (s.writeVictim_scache v)

theorem State.victimRoom_scache (s : State) : s.victimRoom.scache = s.scache := by
  unfold State.victimRoom
  split
  · split
    · exact State.writeVictim_scache ..
    · exact State.foldl_writeVictim_scache ..
  · rfl

theorem State.scError_frame (s : State) (x : BitVec 3) (d : BitVec 8) (c : ScCommand) (pa : PAddr) :
    ∃ k m, s.scError x d c pa = { s with cbox := k, mchkPending := m } := by
  unfold State.scError
  split
  · exact ⟨_, _, rfl⟩
  · split <;> exact ⟨_, _, rfl⟩

theorem State.scError_scache (s : State) (x : BitVec 3) (d : BitVec 8) (c : ScCommand) (pa : PAddr) :
    (s.scError x d c pa).scache = s.scache := by
  obtain ⟨k, m, h⟩ := s.scError_frame x d c pa
  rw [h]

theorem State.checkVictim_scache (s : State) (l : ScLine) : (s.checkVictim l).scache = s.scache := by
  unfold State.checkVictim
  exact State.ite_scache rfl (State.scError_scache ..)

theorem State.displaceSub_scache (s : State) (l : ScLine) (hit upper : Bool) : (s.displaceSub l hit upper).scache = s.scache := by
  have hd : ∀ (t : State) (x : BcData), (t.bcStoreData x).scache = t.scache := fun _ _ => State.ite_scache rfl rfl
  have ht : ∀ (t : State) (x : BcTag), (t.bcStoreTag x).scache = t.scache := fun _ _ => State.ite_scache rfl rfl
  exact State.ite_scache (State.ite_scache ((ht ..).trans (hd ..)) rfl) rfl

/-- The entry that had to leave is empty, and no other changes. -/
theorem State.displace_scache (s : State) (way : Fin 3) (idx : Nat) :
    (s.displace way idx).scache = scPut (scGet way idx s.scache).flushed s.scache := by
  unfold State.displace
  dsimp only
  generalize scGet way idx s.scache = l
  split
  · rw [State.checkVictim_scache]
    split
    · simp only [State.noteEvent, State.displaceSub_scache]
    · simp only [State.pushVictim, State.victimRoom_scache]
      simp only [State.noteEvent, State.displaceSub_scache]
  · simp only [State.displaceSub_scache]

theorem State.scRoomDirty_scMakeRoom (s : State) (way : Fin 3) (b : Block) : (s.scMakeRoom way b).scRoomDirty way b = false := by
  have hw := CacheWork.scMakeRoom s way b
  unfold State.scMakeRoom at hw ⊢
  split
  · rename_i h
    rw [State.scRoomDirty, h]
    rfl
  · have h := scGet_scPut (scGet way (scIndex b) s.scache).flushed s.scache
    rw [show (scGet way (scIndex b) s.scache).flushed.way = way from scGet_way .., show
      (scGet way (scIndex b) s.scache).flushed.idx = scIndex b from scGet_idx ..] at h
    rw [State.scRoomDirty, State.displace_scache, h, ScLine.isDirty_flushed, Bool.and_false]

theorem State.scFind_eq_none : s.scFind b = none ↔ ∀ l ∈ s.scache, l.holds b = true → s.scWayOn l.way = false := by
  unfold State.scFind
  rw [List.find?_eq_none]
  simp

theorem CacheWork.scWayOn (h : CacheWork s t) (way : Fin 3) : t.scWayOn way = s.scWayOn way := by
  unfold State.scWayOn
  rw [h.scCtl]

theorem State.scFind_scMakeRoom (h : s.scFind g = none) : (s.scMakeRoom way b).scFind g = none := by
  have hw := CacheWork.scMakeRoom s way b
  rw [State.scFind_eq_none] at h ⊢
  intro l hl hg
  rw [hw.scWayOn]
  unfold State.scMakeRoom at hl
  split at hl
  · exact h l hl hg
  · rw [State.displace_scache] at hl
    rcases mem_scPut hl with rfl | hl
    · rw [ScLine.holds_flushed] at hg
      cases hg
    · exact h l hl hg

/-! ## A block that has been taken in -/

/-- A block stands in the Scache once it has been taken into a set that is enabled. -/
theorem State.scFind_scFill_isSome (hon : s.scWayOn way = true) (b : Block) (data : Block → Hexword) (shared dirty : Bool) :
    ((s.scFill way b data shared dirty).scFind b).isSome = true := by
  obtain ⟨n, hn, hway, hb, -⟩ := State.scInstall_line (s.scMakeRoom way b) way b data shared dirty
  have hw := (CacheWork.scMakeRoom s way b).trans (CacheWork.scInstall _ way b data shared dirty)
  refine List.find?_isSome.2 ⟨n, ?_, ?_⟩
  · show n ∈ ((s.scMakeRoom way b).scInstall way b data shared dirty).scache
    rw [hn]
    exact self_mem_scPut ..
  · show (n.holds b && ((s.scMakeRoom way b).scInstall way b data shared dirty).scWayOn n.way) = true
    rw [hw.scWayOn, hway, hon, hb]
    rfl

/-- A block that was not there stands in the Scache with the data, shared and dirty bits of its fill. -/
theorem State.scFind_scFill (hon : s.scWayOn way = true) (h : s.scFind b = none) (data : Block → Hexword) (shared dirty : Bool) :
    ∃ l, (s.scFill way b data shared dirty).scFind b = some l ∧ l.sub b = ⟨true, shared, dirty, 0#2, data b, s.scForcedBad⟩ := by
  obtain ⟨l, hl⟩ := Option.isSome_iff_exists.1 (State.scFind_scFill_isSome hon b data shared dirty)
  refine ⟨l, hl, ?_⟩
  obtain ⟨n, hn, hway, hb, hsub⟩ := State.scInstall_line (s.scMakeRoom way b) way b data shared dirty
  have hw := CacheWork.scMakeRoom s way b
  have hmem : l ∈ ((s.scMakeRoom way b).scInstall way b data shared dirty).scache := List.mem_of_find?_eq_some hl
  have hp := List.find?_some hl
  rw [Bool.and_eq_true] at hp
  rw [hn] at hmem
  rcases mem_scPut hmem with rfl | hmem
  · rw [hsub]
    unfold State.scForcedBad
    rw [hw.scCtl]
  · have := State.scFind_eq_none.1 (State.scFind_scMakeRoom h) l hmem hp.1
    exact absurd hp.2 (by rw [show (s.scFill way b data shared dirty).scWayOn l.way = false from this]; decide)

end Sys2Proof.Machine
end

section
/-! SUPPORT. A miss in the Scache with no Bcache behind it, and the two reads of 32 bytes: what is driven, what the fill brings, and
what changes besides. -/

namespace Sys2Proof.Machine

variable {s t : State} {b g : Block} {pa : PAddr} {way : Fin 3}

/-! ## Lookups without errors -/

theorem State.scLookup_clean (cmd : ScCommand) (pa : PAddr) {blocks : List Block} (hf : s.scFhit = false)
    (ht : s.scTagErrors (granule pa) = 0#3) (hd : ∀ g ∈ blocks, s.scBadData g = 0#8) : s.scLookup cmd pa blocks = s := by
  have hn : (if cmd.reads then blocks.find? (fun g => s.scBadData g != 0#8) else none) = none := by
    split
    · rw [List.find?_eq_none]
      intro g hg
      simp [hd g hg]
    · rfl
  unfold State.scLookup
  rw [if_neg (by rw [hf]; decide)]
  dsimp only
  rw [hn, ht]
  rfl

/-- A run that asks for no MCHK of its own. -/
theorem State.watch_eq {run : State → State} (h : run { s with mchkPending := false } = { t with mchkPending := false })
    (ht : t.mchkPending = s.mchkPending) : s.watch run = (false, t) := by
  unfold State.watch
  dsimp only
  rw [h]
  dsimp only
  rw [Bool.or_false, ← ht]

theorem State.scBadData_of_scFind {l : ScLine} (h : s.scFind b = some l) : s.scBadData b = (l.sub b).bad := by
  unfold State.scBadData
  rw [h]

theorem State.scBadData_of_none (h : s.scFind b = none) : s.scBadData b = 0#8 := by
  unfold State.scBadData
  rw [h]

theorem State.scLine_eq_scFind (hf : s.scFhit = false) (b : Block) : s.scLine b = s.scFind b := by
  unfold State.scLine
  rw [hf]
  rfl

/-- A read of a block that the Scache has without errors. -/
theorem State.cachedRead_hit (w : Want) (keep : Option MissKind) (hf : s.scFhit = false)
    (ht : s.scTagErrors (granule pa) = 0#3) (hd : s.scBadData (granule pa) = 0#8) (hs : (s.scFind (granule pa)).isSome = true) :
    s.cachedRead w keep pa = ⟨true, false, s.noteEvent (.scache false true)⟩ := by
  have hw : s.watch (fun u => (u.scLookup w.scCommand pa [granule pa]).noteEvent (.scache false true)) =
      (false, s.noteEvent (.scache false true)) := by
    refine State.watch_eq ?_ rfl
    rw [State.scLookup_clean (s := { s with mchkPending := false }) _ _ hf ht (List.forall_mem_singleton.2 hd)]
    rfl
  unfold State.cachedRead
  dsimp only
  rw [State.scLine_eq_scFind hf, hs, hw]
  rfl

/-- A read of a block that the Scache lacks, without errors. -/
theorem State.cachedRead_miss (w : Want) (keep : Option MissKind) (hf : s.scFhit = false)
    (ht : s.scTagErrors (granule pa) = 0#3) (hs : s.scFind (granule pa) = none) :
    s.cachedRead w keep pa = (s.noteEvent (.scache false false)).bringBlock w keep pa := by
  have hw : s.watch (fun u => (u.scLookup w.scCommand pa [granule pa]).noteEvent (.scache false false)) =
      (false, s.noteEvent (.scache false false)) := by
    refine State.watch_eq ?_ rfl
    rw [State.scLookup_clean (s := { s with mchkPending := false }) _ _ hf ht (List.forall_mem_singleton.2 (State.scBadData_of_none hs))]
    rfl
  unfold State.cachedRead
  dsimp only
  rw [State.scLine_eq_scFind hf, hs, Option.isSome_none, hw]
  simp

/-! ## Room without a Bcache -/

/-- The parities of an entry are right. -/
def ScLine.sound (l : ScLine) : Prop := l.tagError = false ∧ l.sub0.bad = 0#8 ∧ l.sub1.bad = 0#8

theorem State.checkVictim_sound {l : ScLine} (h : l.sound) (s : State) : s.checkVictim l = s := by
  obtain ⟨ht, h0, h1⟩ := h
  have hd : ∀ upper, s.victimBad l upper = 0#8 := by
    intro upper
    unfold State.victimBad ScLine.half
    cases upper <;> simp [h0, h1]
  unfold State.checkVictim
  simp [ht, hd]

theorem State.displaceSub_plain (hb : s.bcEnabled = false) (l : ScLine) (hit upper : Bool) :
    ∃ d, s.displaceSub l hit upper = { s with dcache := d } := by
  unfold State.displaceSub
  rw [hb, Bool.and_false]
  split
  · exact ⟨_, rfl⟩
  · exact ⟨_, rfl⟩

theorem State.victimRoom_of_short (h : s.victims.length < 2) : s.victimRoom = s := by
  unfold State.victimRoom
  split
  · rename_i hv
    rw [hv] at h
    simp only [List.length_cons] at h
    omega
  · rfl

/-- Without a Bcache, room in a set changes the Scache and the Dcache, and the victim buffer if a dirty block leaves. -/
theorem State.scMakeRoom_frame (hb : s.bcEnabled = false)
    (hd : s.scRoomDirty way b = true → s.victims = [] ∧ (scGet way (scIndex b) s.scache).sound) :
    ∃ sc d v y, s.scMakeRoom way b = { s with scache := sc, dcache := d, victims := v, tally := y } ∧
      (s.scRoomDirty way b = false → v = s.victims ∧ y = s.tally) := by
  unfold State.scMakeRoom
  by_cases hsh : s.scSharesEntry way b = true
  · rw [if_pos hsh]
    exact ⟨_, _, _, _, rfl, fun _ => ⟨rfl, rfl⟩⟩
  · rw [if_neg hsh]
    have hr : s.scRoomDirty way b = (scGet way (scIndex b) s.scache).isDirty := by
      rw [State.scRoomDirty, Bool.eq_false_iff.2 hsh]
      rfl
    rw [hr] at hd ⊢
    unfold State.displace
    dsimp only
    generalize scGet way (scIndex b) s.scache = l at hd ⊢
    obtain ⟨d1, h1⟩ := State.displaceSub_plain hb l (s.bcHit (l.block false)) false
    rw [h1]
    obtain ⟨d2, h2⟩ := State.displaceSub_plain (s := { s with dcache := d1 }) hb l (s.bcHit (l.block true)) true
    rw [h2]
    cases hl : l.isDirty
    · exact ⟨_, _, _, _, rfl, fun _ => ⟨rfl, rfl⟩⟩
    · obtain ⟨hv, hsound⟩ := hd hl
      have hroom : ∀ u : State, u.victims = [] → u.pushVictim l = { u with victims := [l] } := by
        intro u hu
        rw [State.pushVictim, State.victimRoom_of_short (by rw [hu]; decide), hu]
        rfl
      refine ⟨scPut l.flushed s.scache, d2, [l], .scVictim :: s.tally, ?_, nofun⟩
      rw [if_pos rfl, if_neg (by rw [hb]; decide), State.checkVictim_sound hsound, hroom]
      · rfl
      · exact hv

/-- The Scache takes a block where nothing dirty has to leave. -/
theorem State.scFill_frame (hb : s.bcEnabled = false) (hd : s.scRoomDirty way b = false) (data : Block → Hexword)
    (shared dirty : Bool) : ∃ sc d, s.scFill way b data shared dirty =
      { s with scache := sc, dcache := d, lockFlag := s.lockFlag && s.pins.systemLockFlag } := by
  obtain ⟨sc, d, v, y, h, hv⟩ := State.scMakeRoom_frame (s := s) (way := way) (b := b) hb (by rw [hd]; nofun)
  obtain ⟨rfl, rfl⟩ := hv hd
  unfold State.scFill
  rw [h]
  exact ⟨_, _, rfl⟩

/-! ## Sets that may be filled -/

theorem State.scWayOn_scSet (h : s.cbox.scCtl.extractLsb' 13 3 ≠ 0#3) : s.scWayOn s.scSet = true := by
  unfold State.scWayOn State.scSet
  cases h0 : s.cbox.scCtl.getLsbD 13
  · cases h1 : s.cbox.scCtl.getLsbD 14
    · have h2 : s.cbox.scCtl.getLsbD 15 = true := by
        by_contra h2
        refine h (BitVec.eq_of_getLsbD_eq fun i hi => ?_)
        rw [BitVec.getLsbD_extractLsb', BitVec.getLsbD_zero]
        match i, hi with
        | 0, _ => exact h0
        | 1, _ => exact h1
        | 2, _ => exact Bool.eq_false_iff.2 h2
      simp [h2]
    · simp [h1]
  · simp [h0]

/-- The set that a fill goes to is enabled, if one is. -/
theorem State.scWayOn_scVictimWay (h : s.cbox.scCtl.extractLsb' 13 3 ≠ 0#3) (b : Block) : s.scWayOn (s.scVictimWay b) = true := by
  have hrest : s.scWayOn (if s.cbox.scCtl.extractLsb' 13 3 != 7#3 then s.scSet
      else if !s.bcEnabled && s.bcSize == 1 then 0 else if !s.bcEnabled && s.bcSize == 2 then 1
      else if !s.bcEnabled && s.bcSize == 4 then 2 else Config.scacheVictim s.freeCount) = true := by
    by_cases h7 : s.cbox.scCtl.extractLsb' 13 3 = 7#3
    · unfold State.scWayOn
      rw [h7]
      rfl
    · rw [if_pos (by simpa using h7)]
      exact State.scWayOn_scSet h
  unfold State.scVictimWay
  dsimp only
  split
  · rename_i l hl
    split at hl
    · cases hl
    · have := List.find?_some hl
      rw [Bool.and_eq_true] at this
      exact this.2
  · exact hrest

/-! ## A miss goes to the system -/

/-- The command of a miss without a Bcache. -/
def State.missCommand (s : State) (w : Want) (pa : PAddr) : BusEvent :=
  w.command s.missRegister (s.scVictimWay (granule pa)) (s.scRoomDirty (s.scVictimWay (granule pa)) (granule pa)) pa

/-- The state once a miss has been sent without a Bcache. -/
def State.missSent (s : State) (w : Want) (pa : PAddr) : State :=
  (s.scMakeRoom (s.scVictimWay (granule pa)) (granule pa)).drawn.drive (s.missCommand w pa)

theorem State.sendMiss_plain (hb : s.bcEnabled = false) (w : Want) (pa : PAddr) :
    s.sendMiss w pa = (s.scVictimWay (granule pa), s.missSent w pa) := by
  unfold State.sendMiss State.missPlan
  dsimp only
  rw [hb]
  rfl

theorem State.settleVictims_nil (hv : s.victims = []) (b : Block) : s.settleVictims b = s := by
  unfold State.settleVictims
  rw [hv]
  rfl

theorem State.interpose_nil (h : s.before = []) (e : BusEvent) : s.interpose e = s := by
  unfold State.interpose
  rw [h]

theorem State.takeAnswer_nil (h : s.answers = []) (modify : Bool) :
    s.takeAnswer modify = (⟨false, modify, false, false, [], [], false⟩, s) := by
  unfold State.takeAnswer
  rw [h]

theorem State.takeAnswer_cons {a : SysAnswer} {more : List SysAnswer} (h : s.answers = a :: more) (modify : Bool) :
    s.takeAnswer modify = (a, { s with answers := more }) := by
  unfold State.takeAnswer
  rw [h]

/-- A block that the Scache lacks, without a Bcache, is asked for by one READ MISS. -/
theorem State.bringBlock_plain (hb : s.bcEnabled = false) (hv : s.victims = []) (hn : s.before = []) (w : Want)
    (keep : Option MissKind) (pa : PAddr) : s.bringBlock w keep pa =
      let a := (s.missSent w pa).takeAnswer w.modify
      match if a.1.later then keep else none with
      | some kind => ⟨false, false, a.2.holdMiss ⟨pa, kind, s.scVictimWay (granule pa)⟩⟩
      | none =>
        let q := a.2.takeFill w (s.scVictimWay (granule pa)) a.1 pa
        ⟨true, q.1, q.2⟩ := by
  unfold State.bringBlock
  dsimp only
  rw [State.settleVictims_nil hv, hb, Bool.false_and, if_neg Bool.false_ne_true, if_neg Bool.false_ne_true]
  dsimp only
  rw [State.interpose_nil hn, State.sendMiss_plain hb]
  simp only [Bool.false_or] <;> rfl

/-! ## Octawords as main memory gives them -/

theorem cat_extract {m n : Nat} (x : BitVec (m + n)) : x.extractLsb' n m ++ x.extractLsb' 0 n = x := by
  refine BitVec.eq_of_getLsbD_eq fun i hi => ?_
  rw [BitVec.getLsbD_append, BitVec.getLsbD_extractLsb', BitVec.getLsbD_extractLsb']
  split
  · rename_i h; simp [h]
  · rename_i h; simp [show i - n < m by omega, show n + (i - n) = i by omega]

theorem hexOct_cat (h : Hexword) : hexOct h 1 ++ hexOct h 0 = h := cat_extract (m := 128) (n := 128) h

theorem eccCorrect_right (d : Word) : eccCorrect d (eccOf d) = some d := by
  have h : eccSyndrome d (eccOf d) = 0#8 := BitVec.xor_self
  unfold eccCorrect
  rw [h]
  rfl

/-- An octaword with the check bits that belong to it is taken as it is. -/
theorem correctBeat_right (ecc : Bool) (d : BitVec 128) (n : Bool) : correctBeat ecc ⟨d, checkOf ecc d, n⟩ = d := by
  have hc : fillCorrect ecc d (checkOf ecc d) = some d := by
    unfold fillCorrect
    cases ecc
    · have h : fillSyndrome false d (checkOf false d) = 0#16 := BitVec.xor_self
      rw [h]
      rfl
    · have hhi : (checkOf true d).extractLsb' 8 8 = eccOf (d.extractLsb' 64 64) :=
        (extract_cat_hi _ _ 8 8 (by omega)).trans (extract_all _)
      have hlo : (checkOf true d).extractLsb' 0 8 = eccOf (d.extractLsb' 0 64) :=
        (extract_cat_lo _ _ 0 8 (by omega)).trans (extract_all _)
      rw [hhi, hlo, eccCorrect_right, eccCorrect_right]
      exact congrArg some (cat_extract (m := 64) (n := 64) d)
  unfold correctBeat
  dsimp only
  rw [hc]
  cases n <;> rfl

theorem State.checkBeat_right (s : State) (m i : Bool) (pa : PAddr) (d : BitVec 128) (n : Bool) :
    s.checkBeat m i pa ⟨d, checkOf s.eccMode d, n⟩ = s := by
  have h : beatSyndrome s.eccMode ⟨d, checkOf s.eccMode d, n⟩ = 0#16 := BitVec.xor_self
  unfold State.checkBeat
  dsimp only
  rw [h]
  simp

/-! ## The fill that main memory gives -/

theorem State.checkFill_plain {a : SysAnswer} (hbeats : a.beats = []) (herr : a.fillError = false) (s : State) (i : Bool)
    (pa : PAddr) : s.checkFill a i pa = s := by
  unfold State.checkFill State.fillBeat
  rw [hbeats, herr, Bool.or_false]
  exact List.foldl_fixed' (fun j => s.checkBeat_right true i _ _ false) _

theorem State.octGranule_octNumber (s : State) (b : Block) {k : Nat} (hk : k < 2) :
    s.octGranule b (s.octNumber b k) = b ∧ s.octNumber b k % 2 = k := by
  unfold State.octGranule State.octNumber
  cases s.bigBlocks
  · exact ⟨rfl, Nat.mod_eq_of_lt hk⟩
  · cases hb : b.getLsbD 0
    · exact ⟨(if_pos hk).trans (clearBit_of_even hb), Nat.mod_eq_of_lt hk⟩
    · exact ⟨(if_neg (show ¬ 2 + k < 2 by omega)).trans (setBit_of_odd hb), show (2 + k) % 2 = k by omega⟩

theorem State.fillOct_plain {a : SysAnswer} (hbeats : a.beats = []) (s : State) (pa : PAddr) {k : Nat} (hk : k < 2) :
    s.fillOct a pa (granule pa) k =
      ⟨hexOct (s.mem.readBlock (granule pa)) k, checkOf s.eccMode (hexOct (s.mem.readBlock (granule pa)) k), false⟩ := by
  obtain ⟨h1, h2⟩ := s.octGranule_octNumber (granule pa) hk
  unfold State.fillOct State.fillBeat
  rw [hbeats, Nat.xor_xor_cancel_left]
  dsimp only [List.getElem?_nil]
  rw [h1, h2]

/-- Where the system gives no octawords, the block comes as main memory has it. -/
theorem State.fillData_plain {a : SysAnswer} (hbeats : a.beats = []) (s : State) (pa : PAddr) :
    s.fillData a pa (granule pa) = s.mem.readBlock (granule pa) := by
  unfold State.fillData
  rw [State.fillOct_plain hbeats s pa (by omega), State.fillOct_plain hbeats s pa (by omega), correctBeat_right, correctBeat_right,
    hexOct_cat]

theorem State.takeFill_plain {a : SysAnswer} (hbeats : a.beats = []) (herr : a.fillError = false) (hb : s.bcEnabled = false)
    (w : Want) (way : Fin 3) (pa : PAddr) : s.takeFill w way a pa =
      (false, s.scFill way (granule pa) (s.fillData a pa) a.shared (w.modify && !a.shared)) := by
  have hw : s.watch (fun u => u.checkFill a w.istream pa) = (false, s) :=
    State.watch_eq (State.checkFill_plain hbeats herr ..) rfl
  unfold State.takeFill
  dsimp only
  rw [hw, hb]
  rfl

/-- A block that the Scache lacks, without a Bcache and with nothing dirty in its way, where the system gives the fill later: a miss
register holds the request. -/
theorem State.bringBlock_later {a : SysAnswer} {more : List SysAnswer} (hb : s.bcEnabled = false) (hv : s.victims = [])
    (hn : s.before = []) (ha : s.answers = a :: more) (hl : a.later = true)
    (hd : s.scRoomDirty (s.scVictimWay (granule pa)) (granule pa) = false) (w : Want) (kind : MissKind) :
    ∃ sc d, s.bringBlock w (some kind) pa = ⟨false, false, State.holdMiss { s with
      scache := sc, dcache := d, freeCount := s.freeCount + 1, busOut := s.missCommand w pa :: s.busOut, answers := more }
      ⟨pa, kind, s.scVictimWay (granule pa)⟩⟩ := by
  obtain ⟨sc, d, v, y, hroom, hvy⟩ := State.scMakeRoom_frame (s := s) (way := s.scVictimWay (granule pa)) (b := granule pa) hb
    (by rw [hd]; nofun)
  obtain ⟨rfl, rfl⟩ := hvy hd
  have hans : (s.missSent w pa).answers = a :: more := by
    unfold State.missSent
    rw [hroom]
    exact ha
  rw [State.bringBlock_plain hb hv hn, State.takeAnswer_cons hans]
  dsimp only
  rw [hl]
  refine ⟨sc, d, ?_⟩
  unfold State.missSent
  rw [hroom]
  rfl

/-- A block that the Scache lacks, without a Bcache and where the environment gives no answer: it comes from main memory, and besides
the caches only the records and the lock flag change. -/
theorem State.bringBlock_answered (hb : s.bcEnabled = false) (hv : s.victims = []) (ha : s.answers = [])
    (hon : s.cbox.scCtl.extractLsb' 13 3 ≠ 0#3) (hs : s.scFind (granule pa) = none)
    (hd : s.scRoomDirty (s.scVictimWay (granule pa)) (granule pa) = true →
      (scGet (s.scVictimWay (granule pa)) (scIndex (granule pa)) s.scache).sound)
    (w : Want) (keep : Option MissKind) :
    ∃ t sc d v y, s.bringBlock w keep pa = ⟨true, false, t⟩ ∧
      t = { s with
        scache := sc, dcache := d, victims := v, tally := y, lockFlag := s.lockFlag && s.pins.systemLockFlag
        busOut := s.missCommand w pa :: s.busOut, freeCount := s.freeCount + 1 } ∧
      (s.scRoomDirty (s.scVictimWay (granule pa)) (granule pa) = false → v = s.victims ∧ y = s.tally) ∧
      ∃ l, t.scFind (granule pa) = some l ∧
        l.sub (granule pa) = ⟨true, false, w.modify, 0#2, s.mem.readBlock (granule pa), s.scForcedBad⟩ := by
  have hn : s.before = [] := by unfold State.before; rw [ha]
  have hway := State.scWayOn_scVictimWay hon (granule pa)
  obtain ⟨sc, d, v, y, hroom, hvy⟩ := State.scMakeRoom_frame hb fun h => ⟨hv, hd h⟩
  have hclean := s.scRoomDirty_scMakeRoom (s.scVictimWay (granule pa)) (granule pa)
  have hlacks := State.scFind_scMakeRoom (way := s.scVictimWay (granule pa)) (b := granule pa) hs
  have hans : (s.missSent w pa).answers = [] := by
    unfold State.missSent
    rw [hroom]
    exact ha
  rw [State.bringBlock_plain hb hv hn, State.takeAnswer_nil hans]
  unfold State.missSent
  rw [hroom] at hclean hlacks ⊢
  generalize hu : (State.drawn { s with scache := sc, dcache := d, victims := v, tally := y }).drive (s.missCommand w pa) = u
  have hub : u.bcEnabled = false := by rw [← hu]; exact hb
  simp only [Bool.false_eq_true, if_false]
  rw [State.takeFill_plain rfl rfl hub]
  have hfind := State.scFind_scFill (s := u) (way := s.scVictimWay (granule pa)) (b := granule pa) (by rw [← hu]; exact hway)
    (by rw [← hu]; exact hlacks) (u.fillData ⟨false, w.modify, false, false, [], [], false⟩ pa) false (w.modify && !false)
  obtain ⟨sc', d', hfill⟩ := State.scFill_frame (s := u) (way := s.scVictimWay (granule pa)) (b := granule pa) hub
    (by rw [← hu]; exact hclean) (u.fillData ⟨false, w.modify, false, false, [], [], false⟩ pa) false (w.modify && !false)
  rw [State.fillData_plain rfl] at hfind
  refine ⟨_, sc', d', v, y, rfl, hfill.trans ?_, hvy, ?_⟩
  · rw [← hu]
    rfl
  · rw [← hu] at hfind ⊢
    rw [show (w.modify && !false) = w.modify from Bool.and_true _] at hfind ⊢
    exact hfind

end Sys2Proof.Machine
end

section
/-! Instruction fetch (O50): an Icache hit, a fill from the Scache and main memory, and a fill from a device. -/

namespace Sys2Proof.Machine

variable {s t : State} {b : Block} {pa : PAddr} {a : Word} {asm : Bool}

/-! ## Nothing outstanding -/

theorem State.awaitMiss_none {register : Bool} (h : s.missOf register = none) : s.awaitMiss register = s := by
  unfold State.awaitMiss
  rw [h]

theorem State.awaitFills_none (h0 : s.miss0 = none) (h1 : s.miss1 = none) : s.awaitFills = s := by
  unfold State.awaitFills
  rw [State.awaitMiss_none (register := false) h0, State.awaitMiss_none (register := true) h1]

theorem State.readyMiss_none (h0 : s.miss0 = none) (h1 : s.miss1 = none) (pa : PAddr) : s.readyMiss pa = s := by
  have hm : ∀ register, s.missFor register pa = false := by
    intro register
    have h : s.missOf register = none := by cases register <;> assumption
    unfold State.missFor
    rw [h]
  unfold State.readyMiss
  rw [State.awaitFills_none h0 h1, ite_self]
  simp [hm, h0]

theorem State.missRegister_none (h0 : s.miss0 = none) : s.missRegister = false := by
  unfold State.missRegister
  rw [h0]
  rfl

/-! ## The parities of the Scache -/

theorem State.scTagErrors_of_sound (h : ∀ l ∈ s.scache, l.tagError = false) (b : Block) : s.scTagErrors b = 0#3 := by
  unfold State.scTagErrors
  suffices ∀ ls : List ScLine, (∀ l ∈ ls, l.tagError = false) → ls.foldl (fun e l =>
      if l.idx == scIndex b && l.tagError && s.scWayOn l.way then e ||| (1#3 <<< l.way.val) else e) 0#3 = 0#3 from this _ h
  intro ls hls
  induction ls with
  | nil => rfl
  | cons l ls ih =>
    rw [List.forall_mem_cons] at hls
    rw [List.foldl_cons, hls.1, Bool.and_false, Bool.false_and]
    exact ih hls.2

theorem ScLine.bad_sub {l : ScLine} (h : l.sound) (b : Block) : (l.sub b).bad = 0#8 := by
  unfold ScLine.sub
  split
  · exact h.2.2
  · exact h.2.1

theorem State.scBadData_of_sound (h : ∀ l ∈ s.scache, l.sound) (b : Block) : s.scBadData b = 0#8 := by
  cases hf : s.scFind b with
  | none => exact State.scBadData_of_none hf
  | some l => rw [State.scBadData_of_scFind hf, ScLine.bad_sub (h l (List.mem_of_find?_eq_some hf))]

/-- Where every entry is sound, a dirty block that leaves is. -/
theorem State.scGet_sound (h : ∀ l ∈ s.scache, l.sound) {way : Fin 3} (hd : s.scRoomDirty way b = true) :
    (scGet way (scIndex b) s.scache).sound := by
  rcases scGet_mem way (scIndex b) s.scache with hm | hu
  · exact h _ hm
  · unfold State.scRoomDirty at hd
    rw [hu, ScLine.isDirty_unlisted, Bool.and_false] at hd
    cases hd

/-! ## What the caches hold -/

theorem State.below_of_scFind {l : ScLine} (hf : s.scFhit = false) (h : s.scFind b = some l) : s.below b = (l.sub b).data := by
  unfold State.below
  rw [State.scLine_eq_scFind hf, h]

theorem State.below_of_none (hf : s.scFhit = false) (h : s.scFind b = none) (hv : s.victims = []) (hb : s.bcEnabled = false) :
    s.below b = s.mem.readBlock b := by
  unfold State.below
  rw [State.scLine_eq_scFind hf, h, hv, hb]
  rfl

/-! ## The Icache -/

theorem icFind_icPut (n : IcLine) (ls : List IcLine) : icFind n.idx (icPut n ls) = some n := by
  induction ls with
  | nil => exact if_pos rfl
  | cons l ls ih =>
    rw [icPut]
    split
    · exact if_pos rfl
    · rename_i h
      rw [icFind, if_neg h, ih]

theorem State.icLookup_absent (h : icFind (field a 5 8).toNat s.icache.lines = none) : s.icLookup a = .miss := by
  unfold State.icLookup
  rw [h]
  exact ite_self _

theorem State.icLookup_hit {l : IcLine} (h : icFind (field a 5 8).toNat s.icache.lines = some l) (hm : s.icsrBit 34 = false)
    (ht : l.tagBad = false) (hd : l.dataBad = false) (hh : l.hits a s.palmode s.ibox.itbAsn = true) :
    s.icLookup a = .insn (insnOf l.insns a) := by
  unfold State.icLookup
  rw [hm, h]
  dsimp only
  rw [ht, hd, hh, Bool.and_false]
  rfl

theorem State.fetchAt_hit {l : IcLine} (h : icFind (field (s.icAddress pa) 5 8).toNat s.icache.lines = some l)
    (hm : s.icsrBit 34 = false) (ht : l.tagBad = false) (hd : l.dataBad = false)
    (hh : l.hits (s.icAddress pa) s.palmode s.ibox.itbAsn = true) :
    s.fetchAt pa asm = .insn (insnOf l.insns (s.icAddress pa)) s := by
  unfold State.fetchAt
  rw [State.icLookup_hit h hm ht hd hh]

theorem State.fillSource_read (hr : refillFind (granule pa) s.icache.refill = none) (h0 : s.miss0 = none) (h1 : s.miss1 = none) :
    s.fillSource pa = s.readBlock pa := by
  have ht : s.refillTake (granule pa) = none := by unfold State.refillTake; rw [hr]; rfl
  unfold State.fillSource
  rw [State.readyMiss_none h0 h1, ht]

/-- A fetch that misses and whose block is read without an error. -/
theorem State.fetchAt_filled {insns : Vector Longword 8} (hi : icFind (field (s.icAddress pa) 5 8).toNat s.icache.lines = none)
    (hs : s.fillSource pa = .block insns false t) (hm : t.mchkPending = false) :
    s.fetchAt pa asm = .insn (insnOf insns (s.icAddress pa)) (t.icFill (s.icLineFor (s.icAddress pa) asm insns)) := by
  unfold State.fetchAt
  rw [State.icLookup_absent (a := s.icAddress pa) hi, hs]
  dsimp only
  rw [hm]
  rfl

/-- Once a block has been filled into the Icache, the same fetch hits it, unless a fill leaves bad parity. -/
theorem State.icLineFor_hits (s : State) (a : Word) (asm : Bool) (insns : Vector Longword 8) (hp : s.palmode = true) :
    (s.icLineFor a asm insns).hits a true s.ibox.itbAsn = true := by
  unfold IcLine.hits IcLine.subValid State.icLineFor
  rw [hp]
  simp

theorem State.icAddress_palmode (hp : s.palmode = true) (pa : PAddr) : s.icAddress pa = pa.setWidth 64 := by
  unfold State.icAddress
  rw [hp]
  rfl

/-- The same fetch in PALmode, in a state whose Icache has taken the block that an earlier one read. -/
theorem State.fetchAt_again {insns : Vector Longword 8} {lines : List IcLine} (u : State) (hp : s.palmode = true)
    (hl : u.icache.lines = icPut (s.icLineFor (s.icAddress pa) asm insns) lines) (hup : u.palmode = true) (hi : u.ibox = s.ibox)
    (h34 : s.icsrBit 34 = false) (h35 : s.icsrBit 35 = false) (h36 : s.icsrBit 36 = false) :
    u.fetchAt pa asm = .insn (insnOf insns (s.icAddress pa)) u := by
  have ha : u.icAddress pa = s.icAddress pa := by rw [State.icAddress_palmode hup, State.icAddress_palmode hp]
  have hm : u.icsrBit 34 = false := by unfold State.icsrBit at h34 ⊢; rw [hi]; exact h34
  have h := State.fetchAt_hit (s := u) (pa := pa) (asm := asm) (l := s.icLineFor (s.icAddress pa) asm insns)
    (by rw [hl, ha]; exact icFind_icPut (s.icLineFor (s.icAddress pa) asm insns) lines) hm h35 h36
    (by rw [hup, hi, ha]; exact s.icLineFor_hits _ _ _ hp)
  rw [ha] at h
  exact h

/-- The instruction of a block is the longword that the address counts. -/
theorem insnOf_insnsOf (h : Hexword) (pa : PAddr) : insnOf (insnsOf h) (pa.setWidth 64) = hexLong h (pa.toNat / 4 % 8) := by
  unfold insnOf insnsOf
  have hk : ((pa.setWidth 64).extractLsb' 2 3).toNat = pa.toNat / 4 % 8 := by
    have := pa.isLt
    rw [BitVec.extractLsb'_toNat, BitVec.toNat_setWidth, Nat.shiftRight_eq_div_pow]
    omega
  exact (Vector.getElem_ofFn _).trans (congrArg (hexLong h) hk)

/-! ## A read from a device -/

/-- A noncached fill in whose data cycles there is nothing to report. -/
theorem State.deviceFill_quiet {a : SysAnswer} (herr : a.fillError = false) (s : State) (i : Bool) (pa : PAddr)
    (hq : ∀ (u : State) addr j, u.eccMode = s.eccMode → u.checkBeat true i addr (s.deviceBeat a j) = u) :
    s.deviceFill a i pa = (false, { s with freeCount := s.freeCount + 4 }) := by
  unfold State.deviceFill
  refine State.watch_eq ?_ rfl
  dsimp only
  rw [herr, hq (j := 0), hq (j := 1)] <;> rfl

theorem State.deviceFill_plain {a : SysAnswer} (hbeats : a.beats = []) (herr : a.fillError = false) (s : State) (i : Bool)
    (pa : PAddr) : s.deviceFill a i pa = (false, { s with freeCount := s.freeCount + 4 }) := by
  refine State.deviceFill_quiet herr s i pa fun u addr j hu => ?_
  unfold State.deviceBeat
  rw [hbeats, ← hu]
  exact u.checkBeat_right ..

/-- A read of a device for the Istream, where the environment gives no answer. -/
theorem State.readBlock_device (hr : regionOf pa = .noncached) (hi : s.pins.idleBc = false) (h0 : s.miss0 = none)
    (ha : s.answers = []) : ∃ insns, s.readBlock pa = .block insns false { s with
      busOut := .readMiss false none false (pa &&& ~~~15#40) 0#4 :: s.busOut, freeCount := s.freeCount + 4 } := by
  have hn : s.before = [] := by unfold State.before; rw [ha]
  unfold State.readBlock
  rw [hr]
  dsimp only
  rw [State.biuHeld, hi, if_neg Bool.false_ne_true]
  unfold State.deviceRead
  dsimp only
  rw [State.interpose_nil hn, State.missRegister_none h0, State.takeAnswer_nil (by exact ha)]
  simp only [ite_self]
  rw [State.deviceFill_plain rfl rfl]
  exact ⟨_, rfl⟩

/-! ## A read from the Scache and main memory -/

/-- A block for the Istream from the Scache over main memory, all parities right: from the Scache at once, or by one READ MISS. -/
theorem State.readBlock_memory (hr : regionOf pa = .memory) (hb : s.bcEnabled = false) (hf : s.scFhit = false)
    (hon : s.cbox.scCtl.extractLsb' 13 3 = 7#3) (hv : s.victims = []) (ha : s.answers = []) (hi : s.pins.idleBc = false)
    (h0 : s.miss0 = none) (hsound : ∀ l ∈ s.scache, l.sound) :
    ∃ sc d v y n, s.readBlock pa = .block (insnsOf (s.below (granule pa))) false { s with
      scache := sc, dcache := d, victims := v, tally := y, freeCount := n
      lockFlag := s.lockFlag && ((s.scFind (granule pa)).isSome || s.pins.systemLockFlag)
      busOut := if (s.scFind (granule pa)).isSome then s.busOut else .readMiss false (some (s.scVictimWay (granule pa)))
        (s.scRoomDirty (s.scVictimWay (granule pa)) (granule pa)) (pa &&& ~~~15#40) 0#4 :: s.busOut } := by
  have ht := State.scTagErrors_of_sound (fun l hl => (hsound l hl).1) (granule pa)
  unfold State.readBlock
  rw [hr]
  dsimp only
  rw [State.biuHeld, hi, Bool.false_and, if_neg Bool.false_ne_true]
  cases hs : s.scFind (granule pa) with
  | some l =>
    rw [State.cachedRead_hit .fetch none hf ht (State.scBadData_of_sound hsound _) (by rw [hs]; rfl)]
    refine ⟨s.scache, s.dcache, s.victims, .scache false true :: s.tally, s.freeCount, ?_⟩
    simp only [Option.isSome_some, Bool.true_or, Bool.and_true, if_true]
    rfl
  | none =>
    rw [State.cachedRead_miss .fetch none hf ht hs]
    obtain ⟨t, sc, d, v, y, hbr, rfl, -, l, hl, hsub⟩ := State.bringBlock_answered (s := s.noteEvent (.scache false false)) hb hv ha
      (by show s.cbox.scCtl.extractLsb' 13 3 ≠ 0#3; rw [hon]; decide) hs (fun h => State.scGet_sound hsound h) .fetch none
    rw [hbr]
    dsimp only
    rw [State.below_of_scFind (by exact hf) hl]
    refine ⟨sc, d, v, y, s.freeCount + 1, ?_⟩
    rw [hsub, State.below_of_none hf hs hv hb]
    simp only [Option.isSome_none, Bool.false_or]
    rw [State.missCommand, State.missRegister_none (by exact h0)]
    rfl

/-- Settles O50: the block for the Icache by `readBlock_memory` or `readBlock_device`, the fill by `fetchAt_filled`, and the same
fetch again by `fetchAt_hit`. -/
theorem instructionFetch : Obligations.InstructionFetch := by
  refine ⟨fun s => ?_, fun s pa asm => ⟨fun l hl hm ht hd hv htag hphys hspace => ?_,
    fun hi hr h0 h1 => ⟨fun hreg => ?_, fun hreg hidle => ?_, fun hreg hidle hans hmchk => ?_⟩⟩⟩
  · intro pa long hit hp hi hr h0 h1 hreg hb hf hon hv ha hidle hmchk hsound
    have hidx : field (s.icAddress pa) 5 8 = pa.extractLsb' 5 8 := by
      refine BitVec.eq_of_toNat_eq ?_
      rw [State.icAddress_palmode hp]
      simp only [field, BitVec.extractLsb'_toNat, BitVec.toNat_setWidth]
      omega
    have hlong : ∀ h, insnOf (insnsOf h) (s.icAddress pa) = hexLong h (pa.toNat / 4 % 8) := fun h => by
      rw [State.icAddress_palmode hp, insnOf_insnsOf]
    obtain ⟨sc, d, v, y, n, hread⟩ := State.readBlock_memory hreg hb hf hon hv ha hidle h0 hsound
    have hfetch := State.fetchAt_filled (s := s) (asm := false) (by rw [hidx]; exact hi)
      ((State.fillSource_read hr h0 h1).trans hread) hmchk
    rw [hlong] at hfetch
    refine ⟨_, (s.fetch_palmode hp).trans hfetch, rfl, rfl, rfl, fun h34 h35 h36 m => ?_⟩
    rw [State.fetch_palmode (by exact hp)]
    refine (State.fetchAt_again (s := s) (insns := insnsOf (s.below (granule pa))) (lines := s.icache.lines) _ hp ?_ ?_ ?_
      h34 h35 h36).trans (congrArg (fun w => Fetched.insn w _) (hlong _))
    · rfl
    · exact hp
    · rfl
  · refine State.fetchAt_hit hl hm ht hd ?_
    show (l.subValid (s.icAddress pa) && l.tag == field (s.icAddress pa) 13 30 && l.phys == s.palmode &&
      (s.palmode || l.asm || l.asn == s.ibox.itbAsn)) = true
    rw [show l.subValid (s.icAddress pa) = true from hv, htag, hphys]
    rcases hspace with h | h | h <;> simp [h, field, State.icAddress]
  · unfold State.fetchAt
    rw [State.icLookup_absent (a := s.icAddress pa) hi, State.fillSource_read hr h0 h1, State.readBlock, hreg]
  · have hread : s.readBlock pa = .waits s := by
      unfold State.readBlock
      rw [hreg]
      dsimp only
      rw [State.biuHeld, hidle, if_pos rfl]
    unfold State.fetchAt
    rw [State.icLookup_absent (a := s.icAddress pa) hi, State.fillSource_read hr h0 h1, hread]
  · obtain ⟨insns, hread⟩ := State.readBlock_device hreg hidle h0 hans
    exact ⟨_, _, State.fetchAt_filled hi ((State.fillSource_read hr h0 h1).trans hread) hmchk, rfl, rfl⟩

end Sys2Proof.Machine
end

section
/-! Load misses (O22): what an entry of the miss address file does when it is served, and what a later fill does. -/

namespace Sys2Proof.Machine

variable {s t : State} {b : Block} {pa : PAddr} {e : MafEntry} {l : MafLoad} {rest : List MafLoad}

/-! ## When an entry is served -/

theorem State.serveMiss_cons (hl : e.loads = l :: rest) (s : State) : s.serveMiss e =
    if s.arbDisabled then (false, s)
    else
      let s1 := if e.locked then s.drainOne else s
      let s2 := (if s1.wbHolds e.block then s1.drainFor e.block else s1).readyMiss l.pa
      if s2.wbHolds e.block || (s2.biuHeld && s2.loadNeedsBiu e l.pa) then (false, s2) else (true, s2.readMaf e l.pa) := by
  unfold State.serveMiss
  rw [hl]

/-- With nothing in the way an entry that is not locked is read at once. -/
theorem State.serveMiss_free (hl : e.loads = l :: rest) (ha : s.arbDisabled = false) (hi : s.pins.idleBc = false)
    (hk : e.locked = false) (hw : s.wbHolds e.block = false) (h0 : s.miss0 = none) (h1 : s.miss1 = none) :
    s.serveMiss e = (true, s.readMaf e l.pa) := by
  rw [State.serveMiss_cons hl, ha, hk, if_neg Bool.false_ne_true]
  dsimp only
  rw [if_neg Bool.false_ne_true, hw, if_neg Bool.false_ne_true, State.readyMiss_none h0 h1, hw, State.biuHeld, hi]
  rfl

/-- The write-buffer entries of the block, and all older ones, go first. -/
theorem State.serveMiss_drains (hl : e.loads = l :: rest) (ha : s.arbDisabled = false) (hk : e.locked = false)
    (hw : s.wbHolds e.block = true) (hd : (s.drainFor e.block).wbHolds e.block = false) :
    s.serveMiss e = (s.drainFor e.block).serveMiss e := by
  have ha' : (s.drainFor e.block).arbDisabled = false := by
    unfold State.arbDisabled at ha ⊢
    rw [(Quiet.drainFor s e.block).mbox]
    exact ha
  rw [State.serveMiss_cons hl, State.serveMiss_cons hl, ha, ha', hk]
  simp only [Bool.false_eq_true, if_false]
  rw [hw, hd]
  rfl

/-! ## Who keeps a request whose fill comes at once -/

theorem State.takeAnswer_later (h : ∀ a ∈ s.answers, a.later = false) (m : Bool) : (s.takeAnswer m).1.later = false := by
  cases ha : s.answers with
  | nil => rw [State.takeAnswer_nil ha]
  | cons a more => rw [State.takeAnswer_cons ha]; exact h a (by rw [ha]; exact List.mem_cons_self ..)

theorem State.before_congr (h : t.answers = s.answers) : t.before = s.before := by
  unfold State.before
  rw [h]

/-- Where no fill comes later, nothing is kept. -/
theorem State.bringBlock_keep (hn : s.before = []) (hl : ∀ a ∈ s.answers, a.later = false) (w : Want)
    (k k' : Option MissKind) (pa : PAddr) : s.bringBlock w k pa = s.bringBlock w k' pa := by
  have hp : CacheWork s (if (s.settleVictims (granule pa)).bcEnabled then
      (s.settleVictims (granule pa)).watch fun u => u.bcProbe w.istream false pa else (false, s.settleVictims (granule pa))).2 :=
    (CacheWork.settleVictims s (granule pa)).trans (.ite_snd (.watch _ fun u => CacheWork.bcProbe ..) (.refl _))
  unfold State.bringBlock
  dsimp only
  split
  · rfl
  · generalize (if (s.settleVictims (granule pa)).bcEnabled then
      (s.settleVictims (granule pa)).watch fun u => u.bcProbe w.istream false pa else (false, s.settleVictims (granule pa))) = p at hp
    have hans : ((p.2.interpose (p.2.missFirst w pa)).sendMiss w pa).2.answers = s.answers := by
      rw [State.interpose_nil ((State.before_congr hp.answers).trans hn)]
      exact (CacheWork.sendMiss ..).answers.trans hp.answers
    rw [State.takeAnswer_later (by rw [hans]; exact hl)]
    rfl

theorem State.cachedRead_keep (hn : s.before = []) (hl : ∀ a ∈ s.answers, a.later = false) (w : Want)
    (k k' : Option MissKind) (pa : PAddr) : s.cachedRead w k pa = s.cachedRead w k' pa := by
  have hw := CacheWork.watch s fun u => (CacheWork.scLookup u w.scCommand pa [granule pa]).trans
    (CacheWork.noteEvent _ (.scache false (s.scLine (granule pa)).isSome))
  unfold State.cachedRead
  dsimp only
  rw [State.bringBlock_keep ((State.before_congr hw.answers).trans hn) (by rw [hw.answers]; exact hl) w k k']

theorem State.deviceRead_keep (hn : s.before = []) (hl : ∀ a ∈ s.answers, a.later = false) (i : Bool)
    (k k' : Option MissKind) (pa : PAddr) (q : BitVec 4) : s.deviceRead i k pa q = s.deviceRead i k' pa q := by
  unfold State.deviceRead
  dsimp only
  rw [State.interpose_nil hn, State.takeAnswer_later (s := s.drive _) (by exact hl)]
  rfl

/-- LDx_L takes the lock and drives LOCK, and then reads as any load does. -/
theorem State.readMaf_locked (hk : e.locked = true) (h0 : s.miss0 = none) (h1 : s.miss1 = none) (hn : s.before = [])
    (hl : ∀ a ∈ s.answers, a.later = false) (pa : PAddr) :
    s.readMaf e pa = State.readMaf { s with
      busOut := if s.eiCmdGrp2 then .lock (s.blockOf pa) :: s.busOut else s.busOut
      lockFlag := true, lockAddr := pa } { e with locked := false } pa := by
  have hlock : (s.driveLock pa).takeLock pa = { s with
      busOut := if s.eiCmdGrp2 then .lock (s.blockOf pa) :: s.busOut else s.busOut
      lockFlag := true, lockAddr := pa } := by
    unfold State.driveLock
    rw [State.awaitFills_none h0 h1]
    cases s.eiCmdGrp2 <;> rfl
  unfold State.readMaf
  rw [hk, if_pos rfl, hlock]
  generalize hu : ({ s with
    busOut := if s.eiCmdGrp2 then .lock (s.blockOf pa) :: s.busOut else s.busOut
    lockFlag := true, lockAddr := pa } : State) = u
  have hun : u.before = [] := by rw [← hu]; exact hn
  have hul : ∀ a ∈ u.answers, a.later = false := by rw [← hu]; exact hl
  dsimp only
  rw [if_neg Bool.false_ne_true, State.deviceRead_keep hun hul false _ (some (.load { e with locked := false })),
    State.cachedRead_keep hun hul .load _ (some (.load { e with locked := false }))]
  rfl

/-! ## What a noncached fill gives -/

theorem wrapStart_two (pa : PAddr) : wrapStart 2 pa = (pa.getLsbD 4).toNat := by
  rw [wrapStart, BitVec.extractLsb'_toNat, BitVec.getLsbD, Nat.toNat_testBit, Nat.shiftRight_eq_div_pow]
  omega

/-- The 32 bytes of two octawords that are not to be checked, that of the address first. -/
theorem State.deviceData_noCheck {a : SysAnswer} {x y : BitVec 128} (h : a.beats = [⟨x, 0#16, true⟩, ⟨y, 0#16, true⟩])
    (s : State) (pa : PAddr) : s.deviceData a pa = if pa.getLsbD 4 then x ++ y else y ++ x := by
  unfold State.deviceData State.deviceBeat
  rw [h, wrapStart_two]
  cases pa.getLsbD 4 <;> rfl

theorem State.deviceFill_noCheck {a : SysAnswer} {x y : BitVec 128} (h : a.beats = [⟨x, 0#16, true⟩, ⟨y, 0#16, true⟩])
    (herr : a.fillError = false) (s : State) (i : Bool) (pa : PAddr) :
    s.deviceFill a i pa = (false, { s with freeCount := s.freeCount + 4 }) := by
  unfold State.deviceFill
  refine State.watch_eq ?_ rfl
  unfold State.deviceBeat
  rw [h, herr]
  rfl

theorem quadsOf_eq (loads : List MafLoad) :
    quadsOf loads = loads.foldr (fun m q => q ||| (1#4 <<< (m.pa.extractLsb' 3 2).toNat)) 0#4 := by
  have h : ∀ (ls : List MafLoad) (q : BitVec 4), ls.foldl (fun q m => q ||| (1#4 <<< (m.pa.extractLsb' 3 2).toNat)) q =
      q ||| ls.foldr (fun m q => q ||| (1#4 <<< (m.pa.extractLsb' 3 2).toNat)) 0#4 := by
    intro ls
    induction ls with
    | nil => intro q; simp
    | cons m ls ih =>
      intro q
      rw [List.foldl_cons, List.foldr_cons, ih, BitVec.or_assoc, BitVec.or_comm (1#4 <<< _)]
  rw [quadsOf, h, BitVec.zero_or]

/-! ## What the arriving data change -/

theorem State.deliverFill_frame (s : State) (bad : Bool) (h : Hexword) (l : MafLoad) :
    ∃ i sh f n, s.deliverFill bad h l = { s with ints := i, shadow := sh, fregs := f, freeCount := n } := by
  unfold State.deliverFill State.deliverAny
  split
  · obtain ⟨i, sh, f, hd⟩ := s.deliver_frame l.target (if l.quad then s.freeNow else (s.freeNow.setWidth 32).setWidth 64)
    rw [hd]
    exact ⟨_, _, _, _, rfl⟩
  · obtain ⟨i, sh, f, hd⟩ := s.deliver_frame l.target (hexDatum l.quad l.pa h)
    rw [hd]
    exact ⟨_, _, _, _, rfl⟩

theorem State.foldl_deliverFill_frame (bad : Bool) (h : Hexword) (ls : List MafLoad) : ∀ s : State,
    ∃ i sh f n, ls.foldl (fun t l => t.deliverFill bad h l) s = { s with ints := i, shadow := sh, fregs := f, freeCount := n } := by
  induction ls with
  | nil => exact fun s => ⟨_, _, _, _, rfl⟩
  | cons l ls ih =>
    intro s
    obtain ⟨i, sh, f, n, h1⟩ := s.deliverFill_frame bad h l
    obtain ⟨i', sh', f', n', h2⟩ := ih (s.deliverFill bad h l)
    rw [List.foldl_cons, h2, h1]
    exact ⟨_, _, _, _, rfl⟩

theorem State.dcFill_frame (s : State) (pa : PAddr) (h : Hexword) : ∃ d, s.dcFill pa h = { s with dcache := d } := by
  unfold State.dcFill
  dsimp only
  split
  · exact ⟨_, rfl⟩
  · exact ⟨_, rfl⟩

/-- The data of a fill change registers, the Dcache, the refill buffer, and nothing of what comes from below. -/
theorem State.arrives_frame (s : State) (kind : MissKind) (pa : PAddr) (bad : Bool) (h : Hexword) :
    ∃ i sh f c d n, s.arrives kind pa bad h =
      { s with ints := i, shadow := sh, fregs := f, icache := c, dcache := d, freeCount := n } := by
  cases kind with
  | prefetch =>
    unfold State.arrives State.ifTaken
    dsimp only
    split
    · split <;> exact ⟨_, _, _, _, _, _, rfl⟩
    · exact ⟨_, _, _, _, _, _, rfl⟩
  | load e =>
    have hd : ∃ d, (if e.conflict || pa.getLsbD 39 then s else s.dcFill pa h) = { s with dcache := d } := by
      split
      · exact ⟨_, rfl⟩
      · exact s.dcFill_frame pa h
    obtain ⟨d, hd⟩ := hd
    unfold State.arrives
    dsimp only
    rw [hd]
    obtain ⟨i, sh, f, n, hf⟩ := State.foldl_deliverFill_frame bad h e.loads { s with dcache := d }
    rw [hf]
    exact ⟨_, _, _, _, _, _, rfl⟩
  | store => exact ⟨_, _, _, _, _, _, rfl⟩

/-! ## The read of an entry that is not locked -/

/-- Every load of an entry gets its datum of 32 bytes. -/
def State.give (s : State) (e : MafEntry) (h : Hexword) : State :=
  e.loads.foldl (fun t m => t.deliver m.target (hexDatum m.quad m.pa h)) s

/-- The READ MISS of a noncached entry (R325). -/
def MafEntry.deviceMiss (e : MafEntry) (pa : PAddr) : BusEvent :=
  .readMiss false none false (pa &&& ~~~15#40) (e.loads.foldr (fun m q => q ||| (1#4 <<< (m.pa.extractLsb' 3 2).toNat)) 0#4)

theorem State.readMaf_device (hk : e.locked = false) (h39 : pa.getLsbD 39 = true) (hn : s.before = []) (h0 : s.miss0 = none) :
    s.readMaf e pa =
      let p := (s.drive (e.deviceMiss pa)).takeAnswer false
      if p.1.later then p.2.holdMiss ⟨pa, .load e, 0⟩
      else (p.2.deviceFill p.1 false pa).2.arrives (.load e) pa (p.2.deviceFill p.1 false pa).1 (p.2.deviceData p.1 pa) := by
  unfold State.readMaf
  rw [hk, if_neg Bool.false_ne_true, h39, if_pos rfl]
  unfold State.deviceRead
  dsimp only
  rw [State.interpose_nil hn, State.missRegister_none h0, quadsOf_eq]
  unfold MafEntry.deviceMiss
  generalize (s.drive _).takeAnswer false = p
  cases p.1.later <;> rfl

theorem State.readMaf_device_later {a : SysAnswer} {more : List SysAnswer} (hk : e.locked = false) (h39 : pa.getLsbD 39 = true)
    (hn : s.before = []) (h0 : s.miss0 = none) (ha : s.answers = a :: more) (hl : a.later = true) :
    s.readMaf e pa = { s with busOut := e.deviceMiss pa :: s.busOut, answers := more, miss0 := some ⟨pa, .load e, 0⟩ } := by
  rw [State.readMaf_device hk h39 hn h0, State.takeAnswer_cons (by exact ha)]
  dsimp only
  rw [hl, if_pos rfl]
  unfold State.holdMiss
  rw [State.missRegister_none (by exact h0)]
  rfl

theorem State.readMaf_device_here {a : SysAnswer} {more : List SysAnswer} {x y : BitVec 128} (hk : e.locked = false)
    (h39 : pa.getLsbD 39 = true) (hn : s.before = []) (h0 : s.miss0 = none) (ha : s.answers = a :: more) (hl : a.later = false)
    (herr : a.fillError = false) (hbeats : a.beats = [⟨x, 0#16, true⟩, ⟨y, 0#16, true⟩]) :
    s.readMaf e pa = State.give { s with busOut := e.deviceMiss pa :: s.busOut, answers := more, freeCount := s.freeCount + 4 } e
      (if pa.getLsbD 4 then x ++ y else y ++ x) := by
  rw [State.readMaf_device hk h39 hn h0, State.takeAnswer_cons (by exact ha)]
  dsimp only
  rw [hl, if_neg Bool.false_ne_true, State.deviceFill_noCheck hbeats herr, State.deviceData_noCheck hbeats]
  unfold State.arrives
  dsimp only
  rw [h39, Bool.or_true]
  rfl

theorem State.readMaf_hit {m : ScLine} (hk : e.locked = false) (h39 : pa.getLsbD 39 = false) (hb : e.block = granule pa)
    (hf : s.scFhit = false) (hm : s.scFind e.block = some m) (ht : s.scTagErrors e.block = 0#3) (hbad : (m.sub e.block).bad = 0#8) :
    s.readMaf e pa =
      State.give (if e.conflict then { s with tally := .scache false true :: s.tally }
        else State.dcFill { s with tally := .scache false true :: s.tally } pa (m.sub e.block).data) e (m.sub e.block).data := by
  unfold State.readMaf
  rw [hk, if_neg Bool.false_ne_true, h39, if_neg Bool.false_ne_true]
  dsimp only
  rw [hb] at hm ht hbad ⊢
  rw [State.cachedRead_hit .load _ hf ht (by rw [State.scBadData_of_scFind hm, hbad]) (by rw [hm]; rfl)]
  dsimp only
  rw [if_pos rfl, State.below_of_scFind (s := s.noteEvent _) hf hm]
  unfold State.arrives
  dsimp only
  rw [h39, Bool.or_false]
  rfl

/-- The READ MISS of an entry of the memory-like region: the quadword of its first load (R426). -/
def State.loadReadMiss (s : State) (pa : PAddr) : BusEvent :=
  .readMiss false (some (s.scVictimWay (granule pa))) false (pa &&& ~~~15#40) (1#4 <<< (pa.extractLsb' 3 2).toNat)

theorem State.missCommand_load (h0 : s.miss0 = none) (hd : s.scRoomDirty (s.scVictimWay (granule pa)) (granule pa) = false) :
    s.missCommand .load pa = s.loadReadMiss pa := by
  unfold State.missCommand
  rw [State.missRegister_none h0, hd]
  rfl

theorem State.readMaf_miss (hk : e.locked = false) (h39 : pa.getLsbD 39 = false) (hf : s.scFhit = false)
    (ht : s.scTagErrors (granule pa) = 0#3) (hs : s.scFind (granule pa) = none) (p : Brought)
    (hp : (s.noteEvent (.scache false false)).bringBlock .load (some (.load e)) pa = p) :
    s.readMaf e pa = if p.here then p.after.arrives (.load e) pa p.bad (p.after.below e.block) else p.after := by
  unfold State.readMaf
  rw [hk, if_neg Bool.false_ne_true, h39, if_neg Bool.false_ne_true]
  dsimp only
  rw [State.cachedRead_miss .load _ hf ht hs, hp]

theorem State.readMaf_miss_later {a : SysAnswer} {more : List SysAnswer} (hk : e.locked = false) (h39 : pa.getLsbD 39 = false)
    (hf : s.scFhit = false) (ht : s.scTagErrors (granule pa) = 0#3) (hs : s.scFind (granule pa) = none) (hb : s.bcEnabled = false)
    (hv : s.victims = []) (hn : s.before = []) (h0 : s.miss0 = none)
    (hd : s.scRoomDirty (s.scVictimWay (granule pa)) (granule pa) = false) (ha : s.answers = a :: more) (hl : a.later = true) :
    ∃ sc d y n, s.readMaf e pa = { s with
      scache := sc, dcache := d, tally := y, freeCount := n, busOut := s.loadReadMiss pa :: s.busOut, answers := more
      miss0 := some ⟨pa, .load e, s.scVictimWay (granule pa)⟩ } := by
  obtain ⟨sc, d, hbr⟩ := State.bringBlock_later (s := s.noteEvent (.scache false false)) (pa := pa) hb hv hn ha hl hd .load (.load e)
  rw [State.readMaf_miss hk h39 hf ht hs _ hbr, if_neg Bool.false_ne_true]
  unfold State.holdMiss
  rw [State.missRegister_none (by exact h0), State.missCommand_load (by exact h0) (by exact hd)]
  exact ⟨_, _, _, _, rfl⟩

/-- Where the environment gives no answer, every load gets its datum as main memory has it, and the Scache has the block. -/
theorem State.readMaf_miss_here (hk : e.locked = false) (h39 : pa.getLsbD 39 = false) (hblock : e.block = granule pa)
    (hf : s.scFhit = false) (ht : s.scTagErrors (granule pa) = 0#3) (hs : s.scFind (granule pa) = none) (hb : s.bcEnabled = false)
    (hv : s.victims = []) (h0 : s.miss0 = none) (hd : s.scRoomDirty (s.scVictimWay (granule pa)) (granule pa) = false)
    (ha : s.answers = []) (hon : s.cbox.scCtl.extractLsb' 13 3 ≠ 0#3) :
    ∃ t, s.readMaf e pa = State.give t e (s.below e.block) ∧ (t.scFind e.block).isSome = true ∧
      ∃ sc d v y n, t = { s with
        scache := sc, dcache := d, victims := v, tally := y, freeCount := n, busOut := s.loadReadMiss pa :: s.busOut
        lockFlag := s.lockFlag && s.pins.systemLockFlag } := by
  obtain ⟨t, sc, d, v, y, hbr, ht', -, l, hl, hsub⟩ := State.bringBlock_answered (s := s.noteEvent (.scache false false)) (pa := pa)
    hb hv ha hon hs (fun h => absurd (h.symm.trans hd) Bool.true_eq_false_eq_False) .load (some (.load e))
  have hbelow : t.below (granule pa) = s.below (granule pa) := by
    rw [State.below_of_scFind (by rw [ht']; exact hf) hl, hsub, State.below_of_none hf hs hv hb]
    rfl
  rw [State.readMaf_miss hk h39 hf ht hs _ hbr, if_pos rfl, hblock]
  dsimp only
  rw [hbelow]
  obtain ⟨d', hd'⟩ : ∃ d', (if e.conflict || pa.getLsbD 39 then t else t.dcFill pa (s.below (granule pa))) = { t with dcache := d' } := by
    split
    · exact ⟨_, rfl⟩
    · exact t.dcFill_frame ..
  have hcommand := State.missCommand_load (s := s.noteEvent (.scache false false)) (pa := pa) h0 hd
  refine ⟨{ t with dcache := d' }, ?_, ?_, sc, d', v, y, s.freeCount + 1, ?_⟩
  · unfold State.arrives
    dsimp only
    rw [hd']
    rfl
  · exact Option.isSome_iff_exists.2 ⟨l, hl⟩
  · rw [ht', hcommand]
    rfl

/-! ## A fill that comes later -/

theorem State.takeFill_scFind {way : Fin 3} (hon : s.scWayOn way = true) (w : Want) (a : SysAnswer) (pa : PAddr) :
    ((s.takeFill w way a pa).2.scFind (granule pa)).isSome = true := by
  obtain ⟨u, d, x, y, hu, he⟩ := s.takeFill_eq_scFill w way a pa
  rw [he]
  exact State.scFind_scFill_isSome (by rw [hu.scWayOn]; exact hon) _ _ _ _

theorem State.takeMiss_some {register : Bool} {m : Miss} (h : s.missOf register = some m) (a : SysAnswer) :
    s.takeMiss register a =
      if regionOf m.pa = .memory then
        State.arrives ((s.clearMiss register).takeFill m.kind.want m.way a m.pa).2 m.kind m.pa
          ((s.clearMiss register).takeFill m.kind.want m.way a m.pa).1 ((s.clearMiss register).fillData a m.pa (granule m.pa))
      else
        State.arrives ((s.clearMiss register).deviceFill a m.kind.want.istream m.pa).2 m.kind m.pa
          ((s.clearMiss register).deviceFill a m.kind.want.istream m.pa).1 ((s.clearMiss register).deviceData a m.pa) := by
  unfold State.takeMiss
  rw [h]

theorem State.missOf_arrives (s : State) (register : Bool) (kind : MissKind) (pa : PAddr) (bad : Bool) (h : Hexword) :
    (s.arrives kind pa bad h).missOf register = s.missOf register := by
  obtain ⟨i, sh, f, c, d, n, hr⟩ := s.arrives_frame kind pa bad h
  rw [hr]
  rfl

theorem State.missOf_clearMiss (s : State) (register : Bool) : (s.clearMiss register).missOf register = none := by
  cases register <;> rfl

theorem CacheWork.missOf (h : CacheWork s t) (register : Bool) : t.missOf register = s.missOf register := by
  unfold State.missOf
  rw [h.miss0, h.miss1]

/-- A fill clears its miss register. -/
theorem State.missOf_takeMiss {register : Bool} {m : Miss} (h : s.missOf register = some m) (a : SysAnswer) :
    (s.takeMiss register a).missOf register = none := by
  rw [State.takeMiss_some h]
  split
  · rw [State.missOf_arrives, (CacheWork.takeFill ..).missOf]
    exact s.missOf_clearMiss register
  · rw [State.missOf_arrives, (CacheWork.deviceFill ..).missOf, State.missOf_clearMiss]

/-- The fill of a block of the memory-like region puts the block into the Scache, and ANDs the lock flag (R362). -/
theorem State.takeMiss_memory {register : Bool} {m : Miss} (h : s.missOf register = some m) (a : SysAnswer)
    (hr : regionOf m.pa = .memory) (hon : s.scWayOn m.way = true) :
    ((s.takeMiss register a).scFind (granule m.pa)).isSome = true ∧
      (s.takeMiss register a).lockFlag = (s.lockFlag && s.pins.systemLockFlag) := by
  have hclear : (s.clearMiss register).lockFlag = s.lockFlag ∧ (s.clearMiss register).pins = s.pins ∧
      (s.clearMiss register).scWayOn m.way = s.scWayOn m.way := by cases register <;> exact ⟨rfl, rfl, rfl⟩
  obtain ⟨hlock, hpins, hway⟩ := hclear
  rw [State.takeMiss_some h, if_pos hr]
  have hfind := State.takeFill_scFind (hway.trans hon) m.kind.want a m.pa
  have hw := CacheWork.takeFill (s.clearMiss register) m.kind.want m.way a m.pa
  obtain ⟨i, sh, f, c, d, n, hframe⟩ := State.arrives_frame ((s.clearMiss register).takeFill m.kind.want m.way a m.pa).2 m.kind m.pa
    ((s.clearMiss register).takeFill m.kind.want m.way a m.pa).1 ((s.clearMiss register).fillData a m.pa (granule m.pa))
  rw [hframe]
  refine ⟨hfind, hw.lockFlag.trans ?_⟩
  unfold State.andLock
  rw [hlock, hpins]

/-- Settles O22: each way to serve an entry by its `readMaf` lemma, behind `serveMiss_free`; a later fill by `takeMiss_some`. -/
theorem loadsServed : Obligations.LoadsServed := by
  refine ⟨fun s e l rest hl => ⟨fun ha => ?_, fun ha hk hw hd => State.serveMiss_drains hl ha hk hw hd, fun ha hk => ?_,
    fun ha hi hk hw h0 h1 hn hb => ?_⟩, fun s register a m hm => ?_⟩
  · rw [State.serveMiss_cons hl]
    exact if_pos ha
  · intro u hua hui huw hu0 hu1 hun hul
    rw [State.serveMiss_free (s := { u with
      busOut := if u.eiCmdGrp2 then .lock (u.blockOf l.pa) :: u.busOut else u.busOut, lockFlag := true, lockAddr := l.pa })
      (e := { e with locked := false }) hl hua hui rfl huw hu0 hu1, ← State.readMaf_locked hk hu0 hu1 hun hul]
    rw [State.serveMiss_cons hl, show s.arbDisabled = false from ha, hk, if_neg Bool.false_ne_true]
    simp only [if_true]
    rw [huw, if_neg Bool.false_ne_true, State.readyMiss_none hu0 hu1, huw, State.biuHeld, hui]
    rfl
  · have hserve := State.serveMiss_free hl ha hi hk hw h0 h1
    rw [hserve]
    refine ⟨fun h39 => ⟨fun a more hans hlater => ?_, fun a more x y hans hlater herr hbeats => ?_⟩,
      fun m h39 hf hm ht hbad => ?_, fun h39 hf hs ht hbc hv hd => ?_⟩
    · rw [State.readMaf_device_later hk h39 hn h0 hans hlater]
      rfl
    · rw [State.readMaf_device_here hk h39 hn h0 hans hlater herr hbeats]
      rfl
    · rw [State.readMaf_hit hk h39 hb hf hm ht hbad]
      rfl
    · rw [hb] at hs ht hd
      refine ⟨fun a more hans hlater => ?_, fun hans hon => ?_⟩
      · obtain ⟨sc, d, y, n, hr⟩ := State.readMaf_miss_later (e := e) hk h39 hf ht hs hbc hv hn h0 hd hans hlater
        refine ⟨_, congrArg (Prod.mk true) hr, ?_⟩
        rw [hb]
        exact ⟨rfl, rfl, rfl, rfl, rfl, rfl⟩
      · obtain ⟨t, hr, hfind, sc, d, v, y, n, rfl⟩ := State.readMaf_miss_here (e := e) hk h39 hb hf ht hs hbc hv h0 hd hans hon
        refine ⟨_, congrArg (Prod.mk true) hr, ?_, hfind, rfl, rfl, rfl, rfl, rfl⟩
        rw [hb]
        rfl
  · have hof : s.missOf register = some m := hm
    refine ⟨State.missOf_takeMiss hof a, State.takeMiss_memory hof a, fun e x y hr hk herr hbeats => ?_⟩
    have h39 := regionOf_noncached hr
    rw [State.takeMiss_some hof, if_neg (by rw [hr]; decide), State.deviceFill_noCheck hbeats herr,
      State.deviceData_noCheck hbeats, hk]
    unfold State.arrives
    dsimp only
    rw [h39, Bool.or_true]
    cases register <;> rfl

end Sys2Proof.Machine
end

section
/-! Write-buffer entries (O21): when the oldest is sent, what one of the noncached region drives, and how the write of a block of the
memory-like region ends. -/

namespace Sys2Proof.Machine

variable {s t : State} {b g : Block} {e : WbEntry} {w : Want}

/-! ## The subblock that the Scache holds of 32 bytes -/

/-- The subblock in which the Scache holds 32 bytes, if it holds them. -/
def State.scSub (s : State) (b : Block) : Option ScSub := (s.scFind b).map (·.sub b)

theorem State.scSub_eq_some {x : ScSub} : s.scSub b = some x ↔ ∃ l, s.scFind b = some l ∧ l.sub b = x := Option.map_eq_some_iff

theorem State.below_of_scSub {x : ScSub} (hf : s.scFhit = false) (h : s.scSub b = some x) : s.below b = x.data := by
  obtain ⟨l, hl, rfl⟩ := State.scSub_eq_some.1 h
  exact State.below_of_scFind hf hl

/-- Two blocks of one region with the same place in the Scache are the same. -/
theorem block_eq_of_place (hi : scIndex g = scIndex b) (ht : scTag g = scTag b) (h0 : g.getLsbD 0 = b.getLsbD 0)
    (h34 : g.getLsbD 34 = b.getLsbD 34) : g = b := by
  have h0' := congrArg Bool.toNat h0
  have h34' := congrArg Bool.toNat h34
  have ht' := congrArg BitVec.toNat ht
  have hg := g.isLt
  have hb := b.isLt
  apply BitVec.eq_of_toNat_eq
  simp only [scIndex, scTag, BitVec.extractLsb'_toNat, BitVec.getLsbD, Nat.toNat_testBit, Nat.shiftRight_eq_div_pow] at hi ht' h0' h34'
  omega

/-- A change of one subblock that leaves it valid: that subblock changes, and no other of its region. -/
theorem State.scSub_scUpdate {f : ScSub → ScSub} (hv : ∀ x, (f x).valid = x.valid) (h34 : g.getLsbD 34 = b.getLsbD 34) :
    (s.scUpdate g f).scSub b = if g = b then (s.scSub b).map f else s.scSub b := by
  have hkeep : ∀ l : ScLine, (if l.holds g && s.scWayOn l.way then l.setSub g (f (l.sub g)) else l).holds b = l.holds b ∧
      (if l.holds g && s.scWayOn l.way then l.setSub g (f (l.sub g)) else l).way = l.way := by
    intro l
    split
    · refine ⟨?_, ScLine.setSub_way ..⟩
      unfold ScLine.holds
      rw [ScLine.sub_setSub, ScLine.setSub_idx, ScLine.setSub_tag]
      split
      · rename_i h0
        rw [hv, ScLine.sub, ScLine.sub, h0]
      · rfl
    · exact ⟨rfl, rfl⟩
  have hfind : (s.scUpdate g f).scFind b =
      (s.scFind b).map fun l => if l.holds g && s.scWayOn l.way then l.setSub g (f (l.sub g)) else l := by
    show List.find? _ (s.scache.map _) = _
    rw [List.find?_map]
    congr 1
    refine List.find?_congr fun l _ => ?_
    show (ScLine.holds _ b && s.scWayOn _) = _
    rw [(hkeep l).1, (hkeep l).2]
  unfold State.scSub
  rw [hfind]
  cases hs : s.scFind b with
  | none => simp
  | some l =>
    have hp := List.find?_some hs
    rw [Bool.and_eq_true] at hp
    obtain ⟨hb, hon⟩ := hp
    rw [Option.map_some, Option.map_some, hon, Bool.and_true]
    by_cases hgb : g = b
    · subst hgb
      rw [hb, if_pos rfl, if_pos rfl, Option.map_some, ScLine.sub_setSub, if_pos rfl, Option.map_some]
    · rw [if_neg hgb]
      congr 1
      split
      · rename_i hg
        rw [ScLine.sub_setSub, if_neg]
        intro h0
        simp only [ScLine.holds, Bool.and_eq_true, beq_iff_eq] at hg hb
        exact hgb (block_eq_of_place (hg.1.1.symm.trans hb.1.1) (hg.1.2.symm.trans hb.1.2) h0.symm h34)
      · rfl

/-- One change for each 32 bytes of a cache block: what becomes of the subblock of one of them. -/
theorem State.scSub_foldl {step : State → Block → State} {f : Block → ScSub → ScSub} (b : Block)
    (hw : ∀ t g, CacheWork s t → CacheWork s (step t g))
    (hs : ∀ t g, CacheWork s t → g.getLsbD 34 = b.getLsbD 34 →
      (step t g).scSub b = if g = b then (t.scSub b).map (f g) else t.scSub b) :
    ((s.blockGranules b).foldl step s).scSub b = (s.scSub b).map (f b) := by
  have hself : ∀ t, CacheWork s t → (step t b).scSub b = (t.scSub b).map (f b) := fun t ht => by
    rw [hs t b ht rfl, if_pos rfl]
  rcases s.blockGranules_cases b with h | ⟨c, h0, h34, hc⟩
  · rw [h]
    exact hself s (.refl s)
  · have hne : c ≠ b := by
      rintro rfl
      simp at h0
    have hother : ∀ t, CacheWork s t → (step t c).scSub b = t.scSub b := fun t ht => by
      rw [hs t c ht h34, if_neg hne]
    rcases hc with h | h
    · rw [h]
      exact (hother _ (hw _ _ (.refl s))).trans (hself s (.refl s))
    · rw [h]
      exact (hself _ (hw _ _ (.refl s))).trans (congrArg _ (hother s (.refl s)))

/-! ## A write to a block that is not shared -/

theorem CacheWork.scForcedBad (h : CacheWork s t) : t.scForcedBad = s.scForcedBad := by
  unfold State.scForcedBad
  rw [h.scCtl]

theorem State.scSub_writeOwned (s : State) (e : WbEntry) : (s.writeOwned e).scSub e.block =
    (s.scSub e.block).map fun x => { x.written s.scForcedBad e.mask e.data with dirty := true } := by
  refine (State.scSub_foldl (f := fun g x => if g = e.block then { x.written s.scForcedBad e.mask e.data with dirty := true }
    else { x with dirty := true }) e.block (fun t g ht => ht.trans (CacheWork.scUpdate ..)) fun t g ht h34 => ?_).trans ?_
  · rw [State.scSub_scUpdate _ h34, ht.scForcedBad]
    intro x
    split <;> rfl
  · simp only [if_true]

theorem State.writeOwned_frame (s : State) (e : WbEntry) : ∃ sc, s.writeOwned e = { s with scache := sc } := by
  have h : ∀ (f : Block → State → ScSub → ScSub) (gs : List Block) (t : State),
      ∃ sc, gs.foldl (fun t g => t.scUpdate g (f g t)) t = { t with scache := sc } := by
    intro f gs
    induction gs with
    | nil => exact fun t => ⟨_, rfl⟩
    | cons g gs ih =>
      intro t
      obtain ⟨sc, hsc⟩ := ih (t.scUpdate g (f g t))
      exact ⟨sc, hsc⟩
  exact h _ _ s

/-- A write to a block that the Scache holds leaves there what it held with the longwords of the entry. -/
theorem State.below_writeOwned {x : ScSub} (hf : s.scFhit = false) (h : s.scSub e.block = some x) :
    (s.writeOwned e).below e.block = mergeHex x.data e.data e.mask := by
  obtain ⟨sc, hsc⟩ := s.writeOwned_frame e
  have hs := s.scSub_writeOwned e
  rw [h, Option.map_some] at hs
  rw [State.below_of_scSub (by rw [hsc]; exact hf) hs]
  rfl

/-! ## A write to a shared block -/

/-- A subblock once a WRITE BLOCK has written it through (R350, R429). -/
def ScSub.throughWritten (x : ScSub) (e : WbEntry) (forcedBad : BitVec 8) (shared : Bool) (new : Block → Hexword) (g : Block) : ScSub :=
  { x.written forcedBad (if g = e.block then e.mask else 0#8) (new g) with shared := shared, dirty := false, modified := 0#2 }

/-- What a WRITE BLOCK of a shared block does to 32 bytes in the Scache, an enabled Bcache and main memory (R350, R429). -/
def State.sharedStep (e : WbEntry) (shared : Bool) (new : Block → Hexword) (t : State) (g : Block) : State :=
  let t1 := t.scUpdate g fun x => x.throughWritten e t.scForcedBad shared new g
  let t2 := if t1.bcEnabled then t1.bcWrite g 3#2 (new g) shared false else t1
  t2.writeMem g 0xFF#8 (new g)

theorem State.bcWrite_frame (s : State) (b : Block) (o : BitVec 2) (d : Hexword) (x y : Bool) :
    ∃ tg dt, s.bcWrite b o d x y = { s with bcTags := tg, bcDatas := dt } := by
  unfold State.bcWrite State.bcStoreData
  split
  · obtain ⟨tg, h⟩ := State.bcWriteTag_arrays { s with bcDatas := bcDataPut (s.bcFilled (s.bcDataAt b) o d) s.bcDatas } b true x y
    exact ⟨tg, _, h⟩
  · obtain ⟨tg, h⟩ := State.bcWriteTag_arrays s b true x y
    exact ⟨tg, s.bcDatas, h⟩

/-- An enabled Bcache takes the block, and one that is not enabled does not. -/
theorem State.bcWriteIf_frame (s : State) (b : Block) (o : BitVec 2) (d : Hexword) (x y : Bool) :
    ∃ tg dt, (if s.bcEnabled then s.bcWrite b o d x y else s) = { s with bcTags := tg, bcDatas := dt } ∧
      (s.bcEnabled = false → tg = s.bcTags ∧ dt = s.bcDatas) := by
  cases hb : s.bcEnabled
  · exact ⟨_, _, rfl, fun _ => ⟨rfl, rfl⟩⟩
  · obtain ⟨tg, dt, h⟩ := s.bcWrite_frame b o d x y
    exact ⟨tg, dt, h, nofun⟩

theorem State.sharedStep_frame (e : WbEntry) (shared : Bool) (new : Block → Hexword) (t : State) (g : Block) :
    ∃ tg dt, State.sharedStep e shared new t g = { (t.scUpdate g fun x => x.throughWritten e t.scForcedBad shared new g) with
        bcTags := tg, bcDatas := dt, mem := t.mem.writeBlock g 0xFF#8 (new g) } ∧
      (t.bcEnabled = false → tg = t.bcTags ∧ dt = t.bcDatas) := by
  obtain ⟨tg, dt, h, hb⟩ := State.bcWriteIf_frame (t.scUpdate g fun x => x.throughWritten e t.scForcedBad shared new g) g 3#2 (new g)
    shared false
  refine ⟨tg, dt, ?_, hb⟩
  unfold State.sharedStep
  dsimp only
  rw [h]
  rfl

theorem CacheWork.sharedStep (e : WbEntry) (shared : Bool) (new : Block → Hexword) (t : State) (g : Block) :
    CacheWork t (t.sharedStep e shared new g) := by
  obtain ⟨tg, dt, h, -⟩ := State.sharedStep_frame e shared new t g
  rw [h]
  exact ⟨rfl⟩

theorem State.foldl_sharedStep_frame (e : WbEntry) (shared : Bool) (new : Block → Hexword) (gs : List Block) : ∀ t : State,
    ∃ sc tg dt, gs.foldl (State.sharedStep e shared new) t = { t with
      scache := sc, bcTags := tg, bcDatas := dt, mem := gs.foldl (fun m g => m.writeBlock g 0xFF#8 (new g)) t.mem } ∧
      (t.bcEnabled = false → tg = t.bcTags ∧ dt = t.bcDatas) := by
  induction gs with
  | nil => exact fun t => ⟨_, _, _, rfl, fun _ => ⟨rfl, rfl⟩⟩
  | cons g gs ih =>
    intro t
    obtain ⟨tg, dt, h1, hb1⟩ := State.sharedStep_frame e shared new t g
    obtain ⟨sc, tg', dt', h2, hb2⟩ := ih (State.sharedStep e shared new t g)
    rw [List.foldl_cons, h2]
    rw [h1] at hb2 ⊢
    exact ⟨sc, tg', dt', rfl, fun hf => ⟨(hb2 hf).1.trans (hb1 hf).1, (hb2 hf).2.trans (hb1 hf).2⟩⟩

theorem State.scSub_foldl_sharedStep (e : WbEntry) (shared : Bool) (new : Block → Hexword) (s : State) :
    ((s.blockGranules e.block).foldl (State.sharedStep e shared new) s).scSub e.block =
      (s.scSub e.block).map fun x => x.throughWritten e s.scForcedBad shared new e.block := by
  refine State.scSub_foldl (f := fun g x => x.throughWritten e s.scForcedBad shared new g) e.block
    (fun t g ht => ht.trans (CacheWork.sharedStep ..)) fun t g ht h34 => ?_
  obtain ⟨tg, dt, h, -⟩ := State.sharedStep_frame e shared new t g
  rw [h, ← ht.scForcedBad]
  exact State.scSub_scUpdate (s := t) (f := fun x => x.throughWritten e t.scForcedBad shared new g) (fun _ => rfl) h34

theorem mergeHex_self (old new : Hexword) (mask : BitVec 8) : mergeHex old (mergeHex old new mask) mask = mergeHex old new mask := by
  refine BitVec.eq_of_getLsbD_eq fun i hi => ?_
  simp only [mergeHex_bit _ _ _ _ hi]
  split <;> rfl

/-! ## One attempt -/

theorem WbEntry.granule_address (h : e.mask ≠ 0#8) : granule e.address = e.block := by
  have hk : (List.range 8).findIdx (fun k => e.mask.getLsbD k) < 8 := by
    refine List.findIdx_lt_length_of_exists (xs := List.range 8) ?_
    by_contra hn
    refine h (BitVec.eq_of_getLsbD_eq fun i hi => ?_)
    rw [BitVec.getLsbD_zero]
    exact Bool.eq_false_iff.2 fun hg => hn ⟨i, List.mem_range.2 hi, hg⟩
  have hb := e.block.isLt
  apply BitVec.eq_of_toNat_eq
  rw [granule_toNat, WbEntry.address, BitVec.toNat_add, granuleAddr_toNat, BitVec.toNat_ofNat]
  omega

/-- The attempt to write a block that the Scache holds, all that is read being without errors. -/
theorem State.tryWrite_held {l : ScLine} (hm : e.mask ≠ 0#8) (hf : s.scFhit = false) (ht : s.scTagErrors e.block = 0#3)
    (hl : s.scFind e.block = some l)
    (hbad : ∀ g ∈ if (l.sub e.block).shared then s.blockGranules e.block else [e.block], s.scBadData g = 0#8) :
    s.tryWrite w e =
      if (l.sub e.block).shared then (s.noteEvent (.scache true true)).writeShared w e
      else if (l.sub e.block).dirty || !s.eiCmdGrp2 then .done true ((s.noteEvent (.scache true true)).writeOwned e)
      else (s.noteEvent (.scache true true)).writeClean e := by
  unfold State.tryWrite
  rw [hl]
  dsimp only
  rw [State.scLookup_clean .dwrite e.address hf (by rw [WbEntry.granule_address hm]; exact ht) hbad]

theorem State.tryWrite_absent (hm : e.mask ≠ 0#8) (hf : s.scFhit = false) (ht : s.scTagErrors e.block = 0#3)
    (hl : s.scFind e.block = none) {p : Brought}
    (hp : (s.noteEvent (.scache true false)).bringBlock w (if w = .store then some .store else none) e.address = p) :
    s.tryWrite w e = if p.here then .again p.after else .waits p.after := by
  unfold State.tryWrite
  rw [hl]
  dsimp only
  rw [State.scLookup_clean .dwrite e.address hf (by rw [WbEntry.granule_address hm]; exact ht) (by simp), hp]

theorem State.takeAnswer_snd (s : State) (m : Bool) : (s.takeAnswer m).2 = { s with answers := s.answers.tail } := by
  cases h : s.answers with
  | nil => rw [State.takeAnswer_nil h, List.tail_nil, ← h]
  | cons a more => rw [State.takeAnswer_cons h, List.tail_cons]

theorem State.takeAnswer_cfail (s : State) (m : Bool) :
    (s.takeAnswer m).1.cfail = true ↔ s.answers.head?.map (·.cfail) = some true := by
  cases h : s.answers with
  | nil => rw [State.takeAnswer_nil h]; simp
  | cons a more => rw [State.takeAnswer_cons h]; simp

theorem State.takeAnswer_shared (s : State) (m : Bool) : (s.takeAnswer m).1.shared = (s.answers.head?.map (·.shared)).getD false := by
  cases h : s.answers with
  | nil => rw [State.takeAnswer_nil h]; rfl
  | cons a more => rw [State.takeAnswer_cons h]; rfl

theorem State.writeClean_plain (h0 : s.miss0 = none) (h1 : s.miss1 = none) (hn : s.before = []) (e : WbEntry) :
    s.writeClean e = .done true (State.writeOwned { s with
      busOut := .setDirty (s.blockOf (granuleAddr e.block)) :: s.busOut, answers := s.answers.tail } e) := by
  unfold State.writeClean
  rw [State.awaitFills_none h0 h1]
  dsimp only
  rw [hn, if_neg (by simp), State.takeAnswer_snd]
  rfl

/-- Only 32 bytes of the block change with an entry. -/
theorem State.newData_eq (s : State) (e : WbEntry) :
    s.newData e = fun g => if g = e.block then mergeHex (s.below e.block) e.data e.mask else s.below g := by
  funext g
  unfold State.newData
  by_cases hg : g = e.block
  · rw [if_pos hg, if_pos hg, hg]
  · rw [if_neg hg, if_neg hg]

theorem cyclesOf_all (h : Hexword) : cyclesOf 0xFF#8 h = [(0xF#4, h.extractLsb' 0 128), (0xF#4, h.extractLsb' 128 128)] := rfl

/-- WRITE BLOCK drives all longwords of the cache block as the entry leaves them (R429). -/
theorem State.blockWrite_eq (s : State) (e : WbEntry) : s.blockWrite e =
    .writeBlock (s.blockOf (granuleAddr e.block)) ((s.blockGranules e.block).flatMap fun g =>
      [(0xF#4, (s.newData e g).extractLsb' 0 128), (0xF#4, (s.newData e g).extractLsb' 128 128)]) := by
  unfold State.blockWrite
  simp only [cyclesOf_all]

/-- The state once WRITE BLOCK of a shared block has been driven and acknowledged. -/
def State.writeSent (s : State) (e : WbEntry) : State :=
  { s with tally := .sharedWrite :: s.tally, busOut := s.blockWrite e :: s.busOut, answers := s.answers.tail }

theorem State.writeShared_plain (h0 : s.miss0 = none) (h1 : s.miss1 = none) (hn : s.before = []) (hv : s.victims.length < 2)
    (w : Want) (e : WbEntry) : s.writeShared w e =
      if w = .cond ∧ s.answers.head?.map (·.cfail) = some true then .done false (s.writeSent e)
      else .done true ((s.blockGranules e.block).foldl
        (State.sharedStep e ((s.answers.head?.map (·.shared)).getD false) (s.newData e)) (s.writeSent e)) := by
  unfold State.writeShared
  rw [State.awaitFills_none h0 h1, State.victimRoom_of_short hv]
  dsimp only
  rw [hn, if_neg (by simp), State.takeAnswer_snd, State.takeAnswer_shared]
  simp only [State.takeAnswer_cfail]
  rfl

/-! ## The attempts of an entry -/

theorem State.writeScache_eq (hf : s.scFhit = false) (h0 : s.miss0 = none) (h1 : s.miss1 = none) (w : Want) (e : WbEntry) :
    s.writeScache w e = State.writeLoop (2 * s.answers.length + 3) s w e := by
  unfold State.writeScache
  rw [hf, if_neg Bool.false_ne_true, State.readyMiss_none h0 h1]

/-- An STx_C whose lock flag is clear when its turn comes fails at once. -/
theorem State.writeLoop_unlocked (n : Nat) (hl : s.lockFlag = false) (e : WbEntry) :
    State.writeLoop (n + 1) s .cond e = .done false s := by
  rw [State.writeLoop, if_pos ⟨rfl, hl⟩]

theorem State.writeLoop_done {n : Nat} (hw : ¬ (w = .cond ∧ s.lockFlag = false)) {ok : Bool} (h : s.tryWrite w e = .done ok t) :
    State.writeLoop (n + 1) s w e = .done ok t := by
  rw [State.writeLoop, if_neg hw, h]

theorem State.writeLoop_waits {n : Nat} (hw : ¬ (w = .cond ∧ s.lockFlag = false)) (h : s.tryWrite w e = .waits t) :
    State.writeLoop (n + 1) s w e = .waits t := by
  rw [State.writeLoop, if_neg hw, h]

theorem State.writeLoop_again {n : Nat} (hw : ¬ (w = .cond ∧ s.lockFlag = false)) (h : s.tryWrite w e = .again t) :
    State.writeLoop (n + 1) s w e = State.writeLoop n t w e := by
  rw [State.writeLoop, if_neg hw, h]

/-- An entry whose turn has come, with nothing in its way: a store, or an STx_C with the lock flag set; not in force-hit mode, no fill
outstanding, no command of the system before its answer, and the tag parities right. -/
structure State.turnOf (s : State) (w : Want) (e : WbEntry) : Prop where
  want : w = .store ∨ w = .cond ∧ s.lockFlag = true
  mask : e.mask ≠ 0#8
  fhit : s.scFhit = false
  miss0 : s.miss0 = none
  miss1 : s.miss1 = none
  before : s.before = []
  tags : s.scTagErrors e.block = 0#3

theorem State.turnOf.locked (h : s.turnOf w e) : ¬ (w = .cond ∧ s.lockFlag = false) := by
  rintro ⟨hw, hl⟩
  rcases h.want with hs | ⟨-, ht⟩
  · rw [hw] at hs
    cases hs
  · rw [hl] at ht
    cases ht

theorem State.turnOf.done (h : s.turnOf w e) {ok : Bool} (ht : s.tryWrite w e = .done ok t) : s.writeScache w e = .done ok t := by
  rw [State.writeScache_eq h.fhit h.miss0 h.miss1]
  exact State.writeLoop_done h.locked ht

/-- An unshared block that is dirty, or needs no SET DIRTY. -/
theorem State.turnOf.owned {l : ScLine} (h : s.turnOf w e) (hl : s.scFind e.block = some l) (hbad : (l.sub e.block).bad = 0#8)
    (hs : (l.sub e.block).shared = false) (hd : (l.sub e.block).dirty = true ∨ s.eiCmdGrp2 = false) :
    s.writeScache w e = .done true ((s.noteEvent (.scache true true)).writeOwned e) := by
  refine h.done ?_
  rw [State.tryWrite_held h.mask h.fhit h.tags hl (by
    rw [hs]
    exact List.forall_mem_singleton.2 ((State.scBadData_of_scFind hl).trans hbad)), hs]
  rcases hd with hd | hd <;> simp [hd]

/-- An unshared clean block where SET DIRTY is enabled. -/
theorem State.turnOf.clean {l : ScLine} (h : s.turnOf w e) (hl : s.scFind e.block = some l) (hbad : (l.sub e.block).bad = 0#8)
    (hs : (l.sub e.block).shared = false) (hd : (l.sub e.block).dirty = false) (hg : s.eiCmdGrp2 = true) :
    s.writeScache w e = .done true (State.writeOwned { s with
      tally := .scache true true :: s.tally, busOut := .setDirty (s.blockOf (granuleAddr e.block)) :: s.busOut
      answers := s.answers.tail } e) := by
  refine h.done ?_
  rw [State.tryWrite_held h.mask h.fhit h.tags hl (by
    rw [hs]
    exact List.forall_mem_singleton.2 ((State.scBadData_of_scFind hl).trans hbad)), hs, hd, hg]
  exact State.writeClean_plain (s := s.noteEvent (.scache true true)) h.miss0 h.miss1 h.before e

/-- A shared block. -/
theorem State.turnOf.shared {l : ScLine} (h : s.turnOf w e) (hl : s.scFind e.block = some l)
    (hs : (l.sub e.block).shared = true) (hv : s.victims.length < 2) (hbad : ∀ g ∈ s.blockGranules e.block, s.scBadData g = 0#8) :
    s.writeScache w e =
      if w = .cond ∧ s.answers.head?.map (·.cfail) = some true then .done false ((s.noteEvent (.scache true true)).writeSent e)
      else .done true ((s.blockGranules e.block).foldl
        (State.sharedStep e ((s.answers.head?.map (·.shared)).getD false) (s.newData e))
        ((s.noteEvent (.scache true true)).writeSent e)) := by
  have ht : s.tryWrite w e = _ := (State.tryWrite_held h.mask h.fhit h.tags hl (by rw [hs]; exact hbad)).trans
    ((if_pos hs).trans (State.writeShared_plain (s := s.noteEvent (.scache true true)) h.miss0 h.miss1 h.before hv w e))
  split at ht
  · rename_i hc
    exact (h.done ht).trans (if_pos hc).symm
  · rename_i hc
    exact (h.done ht).trans (if_neg hc).symm

/-- What a WRITE BLOCK that succeeds leaves behind of the block: not dirty, shared as answered. -/
theorem State.below_writtenThrough {x : ScSub} (hf : t.scFhit = false) (h : t.scSub e.block = some x) (shared : Bool)
    (new : Block → Hexword) :
    ((t.blockGranules e.block).foldl (State.sharedStep e shared new) t).below e.block = mergeHex x.data (new e.block) e.mask ∧
      ∃ m, ((t.blockGranules e.block).foldl (State.sharedStep e shared new) t).scFind e.block = some m ∧
        (m.sub e.block).dirty = false ∧ (m.sub e.block).shared = shared := by
  have hsub := State.scSub_foldl_sharedStep e shared new t
  rw [h, Option.map_some] at hsub
  obtain ⟨sc, tg, dt, hv, -⟩ := State.foldl_sharedStep_frame e shared new (t.blockGranules e.block) t
  obtain ⟨m, hm, hms⟩ := State.scSub_eq_some.1 hsub
  refine ⟨?_, m, hm, by rw [hms]; rfl, by rw [hms]; rfl⟩
  rw [State.below_of_scSub (by rw [hv]; exact hf) hsub]
  unfold ScSub.throughWritten ScSub.written
  rw [if_pos rfl]

/-! ## A block that is absent -/

/-- The READ MISS MOD of a store, and that of an STx_C (R363). -/
def State.writeMiss (s : State) (w : Want) (e : WbEntry) : BusEvent :=
  if w = .store then .readMissMod false (s.scVictimWay e.block) false (e.address &&& ~~~15#40)
  else .readMissModStc false (s.scVictimWay e.block) false (e.address &&& ~~~15#40)

theorem State.turnOf.missCommand (h : s.turnOf w e) (hd : s.scRoomDirty (s.scVictimWay e.block) e.block = false) :
    s.missCommand w e.address = s.writeMiss w e := by
  unfold State.missCommand State.writeMiss
  rw [State.missRegister_none h.miss0, WbEntry.granule_address h.mask, hd]
  rcases h.want with rfl | ⟨rfl, -⟩ <;> rfl

/-- The fill of a store is to come later: the entry waits. -/
theorem State.turnOf.waits {a : SysAnswer} {more : List SysAnswer} (h : s.turnOf .store e) (hl : s.scFind e.block = none)
    (hb : s.bcEnabled = false) (hv : s.victims = []) (hd : s.scRoomDirty (s.scVictimWay e.block) e.block = false)
    (ha : s.answers = a :: more) (hlater : a.later = true) :
    ∃ sc d y n, s.writeScache .store e = .waits { s with
      scache := sc, dcache := d, tally := y, freeCount := n, busOut := s.writeMiss .store e :: s.busOut, answers := more
      miss0 := some ⟨e.address, .store, s.scVictimWay e.block⟩ } := by
  have hg := WbEntry.granule_address h.mask
  obtain ⟨sc, d, hbr⟩ := State.bringBlock_later (s := s.noteEvent (.scache true false)) (pa := e.address) hb hv h.before ha hlater
    (by rw [hg]; exact hd) .store .store
  have ht := State.tryWrite_absent (w := .store) h.mask h.fhit h.tags hl hbr
  rw [if_neg Bool.false_ne_true] at ht
  have hw := State.writeLoop_waits (n := 2 * s.answers.length + 2) h.locked ht
  rw [← State.writeScache_eq h.fhit h.miss0 h.miss1] at hw
  rw [hw]
  unfold State.holdMiss
  rw [State.missRegister_none (by exact h.miss0), hg,
    show (s.noteEvent (.scache true false)).missCommand .store e.address = s.writeMiss .store e from h.missCommand hd]
  exact ⟨sc, d, _, _, rfl⟩

/-- Where the environment gives no answer the block comes from main memory and is written, unless that clears the lock flag of an
STx_C. -/
theorem State.turnOf.absent (h : s.turnOf w e) (hl : s.scFind e.block = none) (hb : s.bcEnabled = false) (hv : s.victims = [])
    (hon : s.cbox.scCtl.extractLsb' 13 3 ≠ 0#3) (hd : s.scRoomDirty (s.scVictimWay e.block) e.block = false) (ha : s.answers = []) :
    ∃ t, s.writeScache w e = .done (decide (w = .store ∨ s.pins.systemLockFlag = true)) t ∧
      t.busOut = s.writeMiss w e :: s.busOut ∧ t.lockFlag = (s.lockFlag && s.pins.systemLockFlag) ∧ t.mem = s.mem ∧
      t.below e.block = if w = .store ∨ s.pins.systemLockFlag = true then mergeHex (s.below e.block) e.data e.mask
        else s.below e.block := by
  have hg := WbEntry.granule_address h.mask
  obtain ⟨u, sc, d, v, y, hbr, hu, -, l, hfind, hsub⟩ := State.bringBlock_answered (s := s.noteEvent (.scache true false))
    (pa := e.address) hb hv ha hon (by rw [hg]; exact hl)
    (by rw [hg]; exact fun hx => absurd (hx.symm.trans hd) Bool.true_eq_false_eq_False) w (if w = .store then some .store else none)
  rw [show (s.noteEvent (.scache true false)).missCommand w e.address = s.writeMiss w e from h.missCommand hd] at hu
  rw [hg] at hfind hsub
  have hmodify : w.modify = true := by rcases h.want with rfl | ⟨rfl, -⟩ <;> rfl
  rw [hmodify] at hsub
  have hbelow : s.below e.block = s.mem.readBlock e.block := State.below_of_none h.fhit hl hv hb
  have huf : u.scFhit = false := by rw [hu]; exact h.fhit
  have ht := State.tryWrite_absent (w := w) h.mask h.fhit h.tags hl hbr
  rw [if_pos rfl] at ht
  have hw := State.writeLoop_again (n := 2 * s.answers.length + 2) h.locked ht
  rw [← State.writeScache_eq h.fhit h.miss0 h.miss1] at hw
  rw [hw, hbelow]
  by_cases hdone : w = .store ∨ s.pins.systemLockFlag = true
  · have hlock : ¬ (w = .cond ∧ u.lockFlag = false) := by
      rintro ⟨rfl, hx⟩
      rw [hu] at hx
      rcases h.want with hs | ⟨-, hs⟩
      · cases hs
      · rcases hdone with hp | hp
        · cases hp
        · rw [show (s.noteEvent (.scache true false)).lockFlag = s.lockFlag from rfl, hs] at hx
          exact absurd (hx.symm.trans hp) Bool.false_ne_true
    obtain ⟨k, m, hk⟩ : ∃ k m, u.scLookup .dwrite e.address [e.block] = { u with cbox := k, mchkPending := m } := by
      unfold State.scLookup
      rw [if_neg (by rw [huf]; decide)]
      dsimp only
      split
      · exact State.scError_frame ..
      · split
        · exact ⟨_, _, rfl⟩
        · exact State.scError_frame ..
    have hkw := CacheWork.scLookup u .dwrite e.address [e.block]
    rw [hk] at hkw
    have hattempt : u.tryWrite w e =
        .done true (State.writeOwned (State.noteEvent { u with cbox := k, mchkPending := m } (.scache true true)) e) := by
      unfold State.tryWrite
      rw [hfind]
      dsimp only
      rw [hsub]
      dsimp only
      rw [if_neg Bool.false_ne_true, if_neg Bool.false_ne_true, Bool.true_or, if_pos rfl, hk]
    have hheld : State.scSub (State.noteEvent { u with cbox := k, mchkPending := m } (.scache true true)) e.block =
        some (l.sub e.block) := by
      refine State.scSub_eq_some.2 ⟨l, ?_, rfl⟩
      exact (State.scFind_congr (s := u) (t := State.noteEvent { u with cbox := k, mchkPending := m } (.scache true true)) rfl
        hkw.scCtl e.block).trans hfind
    refine ⟨_, (State.writeLoop_done (n := 2 * s.answers.length + 1) hlock hattempt).trans (by rw [decide_eq_true hdone]), ?_⟩
    obtain ⟨sc', hsc'⟩ := State.writeOwned_frame (State.noteEvent { u with cbox := k, mchkPending := m } (.scache true true)) e
    have hkf : State.scFhit (State.noteEvent { u with cbox := k, mchkPending := m } (.scache true true)) = false := by
      unfold State.scFhit at huf ⊢
      rw [← huf]
      exact congrArg (BitVec.getLsbD · 0) hkw.scCtl
    rw [State.below_writeOwned hkf hheld, hsub, if_pos hdone, hsc', hu]
    exact ⟨rfl, rfl, rfl, rfl⟩
  · obtain ⟨hstore, hpin⟩ := not_or.1 hdone
    have hcond : w = .cond := h.want.resolve_left hstore |>.1
    have hlock : u.lockFlag = false := by
      rw [hu, show (s.noteEvent (.scache true false)).pins = s.pins from rfl, Bool.eq_false_iff.2 hpin, Bool.and_false]
    subst hcond
    refine ⟨u, (State.writeLoop_unlocked (2 * s.answers.length + 1) hlock e).trans (by rw [decide_eq_false hdone]), ?_⟩
    rw [State.below_of_scFind huf hfind, hsub, if_neg hdone, hu]
    exact ⟨rfl, rfl, rfl, rfl⟩

/-! ## Sending -/

/-- The oldest entry is sent first. -/
theorem State.drainOne_append {l : List WbEntry} (h : s.wb = l ++ [e]) : s.drainOne =
    if s.entryHeld e then s
    else
      let p := State.sendEntry { s with wb := l } e
      if p.1 then p.2 else { p.2 with wb := p.2.wb ++ [e] } := by
  unfold State.drainOne
  rw [h, List.getLast?_concat, List.dropLast_concat]

theorem State.storeMiss_eq_false (h : ∀ m, s.miss0 = some m ∨ s.miss1 = some m → m.kind ≠ .store) (register : Bool) :
    s.storeMiss register = false := by
  unfold State.storeMiss
  split
  · rename_i m hm
    refine beq_eq_false_iff_ne.2 (h m ?_)
    cases register
    · exact .inl hm
    · exact .inr hm
  · rfl

theorem State.sendEntry_store_done {ok : Bool} (hk : e.kind = .store) (hn : e.noncached = false)
    (ht : s.writeScache .store e = .done ok t) : s.sendEntry e = (true, t) := by
  unfold State.sendEntry
  rw [hk]
  dsimp only
  rw [hn, if_neg Bool.false_ne_true, ht]

theorem State.sendEntry_store_waits (hk : e.kind = .store) (hn : e.noncached = false)
    (ht : s.writeScache .store e = .waits t) : s.sendEntry e = (false, t) := by
  unfold State.sendEntry
  rw [hk]
  dsimp only
  rw [hn, if_neg Bool.false_ne_true, ht]

theorem State.sendEntry_cond_done {dest : IntSlot} {ok : Bool} (hk : e.kind = .cond dest) (hn : e.noncached = false)
    (hm : e.mask ≠ 0#8) (ht : s.writeScache .cond e = .done ok t) :
    s.sendEntry e = (true, t.dropLock.writeSlot dest (ofBool64 ok)) := by
  unfold State.sendEntry
  rw [hk]
  dsimp only
  rw [hn, if_neg Bool.false_ne_true, if_neg hm, ht]

theorem State.sendEntry_cond_empty {dest : IntSlot} (hk : e.kind = .cond dest) (hn : e.noncached = false) (hm : e.mask = 0#8)
    (s : State) : s.sendEntry e = (true, s.dropLock.writeSlot dest 0#64) := by
  unfold State.sendEntry
  rw [hk]
  dsimp only
  rw [hn, if_neg Bool.false_ne_true, if_pos hm]

theorem State.writeDevice_plain (hn : s.awaitFills.before = []) (c : BusEvent) : s.writeDevice c = s.awaitFills.drive c := by
  unfold State.writeDevice
  rw [State.interpose_nil hn]

theorem State.sendEntry_store_device (hk : e.kind = .store) (hn : e.noncached = true) (hb : s.awaitFills.before = []) :
    s.sendEntry e = (true, { s.awaitFills with
      busOut := .writeBlock (granuleAddr e.block) (cyclesOf e.mask e.data) :: s.awaitFills.busOut
      answers := s.awaitFills.answers.tail }) := by
  unfold State.sendEntry
  rw [hk]
  dsimp only
  rw [hn, if_pos rfl, State.writeDevice_plain hb, State.takeAnswer_snd]
  rfl

theorem State.sendEntry_cond_device {dest : IntSlot} (hk : e.kind = .cond dest) (hn : e.noncached = true)
    (hb : s.awaitFills.before = []) :
    let v := s.awaitFills.drive (.writeBlockLock (granuleAddr e.block) (cyclesOf e.mask e.data))
    (v.answers = [] → s.sendEntry e = (true, v)) ∧
      ∀ a rest, v.answers = a :: rest → s.sendEntry e =
        (true, State.writeSlot { v with answers := rest } dest (ofBool64 (!a.cfail))) := by
  intro v
  unfold State.sendEntry
  rw [hk]
  dsimp only
  rw [hn, if_pos rfl, State.writeDevice_plain hb]
  refine ⟨fun h => ?_, fun a rest h => ?_⟩
  · rw [show (s.awaitFills.drive (.writeBlockLock (granuleAddr e.block) (cyclesOf e.mask e.data))).answers = [] from h]
  · rw [show (s.awaitFills.drive (.writeBlockLock (granuleAddr e.block) (cyclesOf e.mask e.data))).answers = a :: rest from h]

/-- Settles O21: the choice of the entry by `drainOne_append`, what it drives by `sendEntry`, and the write of a block by the lemmas
about an entry whose turn has come. -/
theorem entriesSent : Obligations.EntriesSent := by
  intro s e cycles base u after
  refine ⟨fun l hwb => ⟨fun ha => ?_, fun ha hi hm => ?_⟩, State.awaitFills_none, fun hnc hb => ⟨fun hk => ?_, fun dest hk => ?_⟩,
    fun hk => ?_, fun hk => ?_, fun hmem => ?_, fun w hw hmask hf h0 h1 hbefore htags => ?_⟩
  · rw [State.drainOne_append hwb, State.entryHeld, show s.arbDisabled = true from ha]
    rfl
  · have hheld : s.entryHeld e = false := by
      rw [State.entryHeld, show s.arbDisabled = false from ha, State.biuHeld, hi, State.storeMiss_eq_false hm,
        State.storeMiss_eq_false hm]
      rfl
    rw [State.drainOne_append hwb, hheld]
    rfl
  · exact State.sendEntry_store_device hk hnc hb
  · obtain ⟨hnil, hcons⟩ := State.sendEntry_cond_device hk hnc hb
    refine ⟨hnil, fun a rest ha => (hcons a rest ha).trans ?_⟩
    cases a.cfail <;> rfl
  · unfold State.sendEntry
    rw [hk]
    rfl
  · unfold State.sendEntry
    rw [hk]
    rfl
  · have hnc : e.noncached = false := hmem
    refine ⟨fun ok t ht hk => State.sendEntry_store_done hk hnc ht, fun t ht hk => State.sendEntry_store_waits hk hnc ht,
      fun dest hk => ⟨fun ok t ht hm => State.sendEntry_cond_done hk hnc hm ht, fun h => ?_⟩⟩
    by_cases hm : e.mask = 0#8
    · exact State.sendEntry_cond_empty hk hnc hm s
    · obtain ⟨hlock, hf, h0, h1⟩ := h.resolve_left hm
      exact State.sendEntry_cond_done hk hnc hm ((State.writeScache_eq hf h0 h1 ..).trans (State.writeLoop_unlocked _ hlock e))
  · have hturn : s.turnOf w e := ⟨hw, hmask, hf, h0, h1, hbefore, htags⟩
    refine ⟨fun l hl hbad => ?_, fun hl hb hv hon hd => ⟨fun a rest ha hlater hws => ?_, fun ha hbad => ?_⟩⟩
    · have hsub : s.scSub e.block = some (l.sub e.block) := State.scSub_eq_some.2 ⟨l, hl, rfl⟩
      have hafter : after = mergeHex (l.sub e.block).data e.data e.mask := by
        rw [← State.below_of_scFind hf hl]
      refine ⟨fun hs hd => ⟨_, hturn.owned hl hbad hs hd, ?_, ?_⟩, fun hs hd hg => ⟨_, hturn.clean hl hbad hs hd hg, ?_⟩,
        fun hs hv hall => ?_⟩
      · exact (State.below_writeOwned (s := s.noteEvent _) hf hsub).trans hafter.symm
      · obtain ⟨sc, hsc⟩ := State.writeOwned_frame (s.noteEvent (.scache true true)) e
        rw [hsc]
        rfl
      · refine ⟨(State.below_writeOwned (by exact hf) (by exact hsub)).trans hafter.symm, ?_⟩
        obtain ⟨sc, hsc⟩ := State.writeOwned_frame { s with
          tally := .scache true true :: s.tally, busOut := .setDirty (s.blockOf (granuleAddr e.block)) :: s.busOut
          answers := s.answers.tail } e
        rw [hsc]
        exact ⟨rfl, rfl, rfl⟩
      · intro new fails
        have hshared := hturn.shared hl hs hv hall
        have hnew : s.newData e = new := s.newData_eq e
        have hbus : ((s.noteEvent (.scache true true)).writeSent e).busOut = .writeBlock (s.blockOf base)
            ((s.blockGranules e.block).flatMap fun g => [(0xF#4, (new g).extractLsb' 0 128), (0xF#4, (new g).extractLsb' 128 128)]) ::
              s.busOut := by
          rw [← hnew]
          exact congrArg (· :: s.busOut) (State.blockWrite_eq (s.noteEvent (.scache true true)) e)
        by_cases hfail : fails
        · rw [if_pos hfail] at hshared
          refine ⟨_, hshared.trans (congrArg (fun ok => Attempt.done ok _) (decide_eq_false (not_not_intro hfail)).symm), hbus, rfl,
            fun _ => rfl, fun hn => absurd hfail hn⟩
        · rw [if_neg hfail] at hshared
          obtain ⟨hbelow, hfind⟩ := State.below_writtenThrough (t := (s.noteEvent (.scache true true)).writeSent e) (e := e)
            (by exact hf) (by exact hsub) ((s.answers.head?.map (·.shared)).getD false) (s.newData e)
          obtain ⟨sc, tg, dt, hframe, hbc⟩ := State.foldl_sharedStep_frame e ((s.answers.head?.map (·.shared)).getD false) (s.newData e)
            (s.blockGranules e.block) ((s.noteEvent (.scache true true)).writeSent e)
          have hmerge : mergeHex (l.sub e.block).data (s.newData e e.block) e.mask = after := by
            rw [hafter, State.newData, if_pos rfl, State.below_of_scFind hf hl, mergeHex_self]
          refine ⟨_, hshared.trans (congrArg (fun ok => Attempt.done ok _) (decide_eq_true hfail).symm), ?_, ?_, fun h => absurd h hfail,
            fun _ => ⟨hbelow.trans hmerge, ?_, hfind, ?_, fun hb => ?_⟩⟩
          · rw [hframe]
            exact hbus
          · rw [hframe]
            rfl
          · rw [hframe, hnew]
            rfl
          · rw [hframe]
            rfl
          · rw [hframe]
            exact hbc hb
    · subst hws
      obtain ⟨sc, d, y, n, ht⟩ := hturn.waits hl hb hv hd ha hlater
      exact ⟨_, ht, rfl, rfl, rfl, h1⟩
    · exact hturn.absent hl hb hv hon hd ha

end Sys2Proof.Machine
end

section
/-! The round trip of 30_encoding.md: from an instruction to its word, to the four bytes in memory, and back. -/

namespace Sys2Proof.Laws.RoundTrip

/-- Decoding undoes encoding for every instruction: the lemma named after its constructor, in the order of `Instr`. -/
theorem decode_encode (i : Instr) : Statement i :=
  i.casesOn (motive := Statement)
    -- Memory format (R482)
    lda ldah ldl ldq ldqU ldlL ldqL stl stq stqU stlC stqC ldf ldg lds ldt stf stg sts stt
    -- Branch format (R485)
    br bsr beq bne blt ble bgt bge blbc blbs fbeq fbne fblt fble fbgt fbge
    -- Jumps (R484)
    jmp jsr ret jsrCoroutine
    -- Operate format (R486)
    addl addlV addq addqV s4addl s4addq s8addl s8addq subl sublV subq subqV s4subl s4subq s8subl s8subq cmpeq cmplt cmple
    cmpult cmpule mull mullV mulq mulqV umulh and bic bis ornot xor eqv cmoveq cmovne cmovlt cmovge cmovle cmovgt cmovlbs
    cmovlbc sll srl sra cmpbge extbl extwl extll extql extwh extlh extqh insbl inswl insll insql inswh inslh insqh mskbl
    mskwl mskll mskql mskwh msklh mskqh zap zapnot
    -- PALcode format (R488, R687)
    callPal callPalHalt callPalDraina callPalImb
    -- Memory format with function code (R483, R497)
    mb wmb excb trapb fetch fetchM rpcc rc rs
    -- The five PALcode-reserved opcodes (R489 to R491)
    hwMfpr hwLd hwMtpr hwRei hwSt
    -- The thirteen reserved opcodes (R688)
    opc01 opc02 opc03 opc04 opc05 opc06 opc07 opc0a opc0c opc0d opc0e opc14 opc1c
    -- Floating-point operates (R487, R499 to R501)
    cpys cpysn cpyse cvtlq cvtql cvtqlV cvtqlSv fcmoveq fcmovne fcmovlt fcmovge fcmovle fcmovgt mtFpcr mfFpcr adds addsC
    addsM addsD addsU addsUc addsUm addsUd addsSu addsSuc addsSum addsSud addsSui addsSuic addsSuim addsSuid addt addtC
    addtM addtD addtU addtUc addtUm addtUd addtSu addtSuc addtSum addtSud addtSui addtSuic addtSuim addtSuid subs subsC
    subsM subsD subsU subsUc subsUm subsUd subsSu subsSuc subsSum subsSud subsSui subsSuic subsSuim subsSuid subt subtC
    subtM subtD subtU subtUc subtUm subtUd subtSu subtSuc subtSum subtSud subtSui subtSuic subtSuim subtSuid muls mulsC
    mulsM mulsD mulsU mulsUc mulsUm mulsUd mulsSu mulsSuc mulsSum mulsSud mulsSui mulsSuic mulsSuim mulsSuid mult multC
    multM multD multU multUc multUm multUd multSu multSuc multSum multSud multSui multSuic multSuim multSuid divs divsC
    divsM divsD divsU divsUc divsUm divsUd divsSu divsSuc divsSum divsSud divsSui divsSuic divsSuim divsSuid divt divtC
    divtM divtD divtU divtUc divtUm divtUd divtSu divtSuc divtSum divtSud divtSui divtSuic divtSuim divtSuid cmpteq
    cmpteqSu cmptlt cmptltSu cmptle cmptleSu cmptun cmptunSu cvtqs cvtqsC cvtqsM cvtqsD cvtqsSui cvtqsSuic cvtqsSuim
    cvtqsSuid cvtqt cvtqtC cvtqtM cvtqtD cvtqtSui cvtqtSuic cvtqtSuim cvtqtSuid cvtts cvttsC cvttsM cvttsD cvttsU cvttsUc
    cvttsUm cvttsUd cvttsSu cvttsSuc cvttsSum cvttsSud cvttsSui cvttsSuic cvttsSuim cvttsSuid cvtst cvtstS cvttq cvttqC
    cvttqV cvttqVc cvttqSv cvttqSvc cvttqSvi cvttqSvic cvttqD cvttqVd cvttqSvd cvttqSvid cvttqM cvttqVm cvttqSvm cvttqSvim
    addf addfC addfU addfUc addfS addfSc addfSu addfSuc addg addgC addgU addgUc addgS addgSc addgSu addgSuc subf subfC
    subfU subfUc subfS subfSc subfSu subfSuc subg subgC subgU subgUc subgS subgSc subgSu subgSuc mulf mulfC mulfU mulfUc
    mulfS mulfSc mulfSu mulfSuc mulg mulgC mulgU mulgUc mulgS mulgSc mulgSu mulgSuc divf divfC divfU divfUc divfS divfSc
    divfSu divfSuc divg divgC divgU divgUc divgS divgSc divgSu divgSuc cmpgeq cmpgeqS cmpglt cmpgltS cmpgle cmpgleS cvtgf
    cvtgfC cvtgfU cvtgfUc cvtgfS cvtgfSc cvtgfSu cvtgfSuc cvtgd cvtgdC cvtgdU cvtgdUc cvtgdS cvtgdSc cvtgdSu cvtgdSuc
    cvtqf cvtqfC cvtqg cvtqgC cvtdg cvtdgC cvtdgU cvtdgUc cvtdgS cvtdgSc cvtdgSu cvtdgSuc cvtgq cvtgqC cvtgqV cvtgqVc
    cvtgqS cvtgqSc cvtgqSv cvtgqSvc

end Sys2Proof.Laws.RoundTrip

namespace Sys2Proof

/-- The decoder reads the four bytes of a word as that word and leaves the bytes that follow (R480). -/
theorem decodeBytes_wordBytes (w : Longword) (rest : List Byte) :
    decodeBytes (wordBytes w ++ rest) = some (decode w, rest) :=
  congrArg (fun v => some (decode v, rest)) (bytesWord_wordBytes w)

/-- Settles O59: the bytes give the word by `decodeBytes_wordBytes`, the word the instruction by `decode_encode`. -/
theorem decodeEncode : Obligations.DecodeEncode := by
  intro i rest hwf
  rw [decodeBytes_wordBytes, Laws.RoundTrip.decode_encode i hwf]

end Sys2Proof
end

section
/-! LDA and LDAH, and the register and memory forms of F, S and G data as fields (R521, R522, R533 to R539). -/

namespace Sys2Proof.Machine

/-! ## Address computations (R521, R522) -/

/-- LDA's address is the exact sum, modulo 2^64. -/
theorem add_signExtend_eq_ofInt (b : Word) (disp : BitVec 16) :
    b + disp.signExtend 64 = BitVec.ofInt 64 (b.toInt + disp.toInt * 1) := by
  rw [Int.mul_one, BitVec.ofInt_add, BitVec.ofInt_toInt, BitVec.signExtend]

/-- LDAH's is the same with the displacement times 2^16. -/
theorem add_signExtend_shiftLeft_eq_ofInt (b : Word) (disp : BitVec 16) :
    b + (disp.signExtend 64 <<< 16) = BitVec.ofInt 64 (b.toInt + disp.toInt * 65536) := by
  rw [BitVec.ofInt_add, BitVec.ofInt_mul, BitVec.ofInt_toInt, BitVec.shiftLeft_eq_mul_twoPow, BitVec.signExtend]
  rfl

/-- Settles O10: both write the sum of `Rbv` and the displacement, which is the exact one modulo 2^64. -/
theorem loadAddress : Obligations.LoadAddress := by
  unfold Obligations.LoadAddress
  rw [List.forall_mem_cons, List.forall_mem_singleton]
  refine ⟨fun ra rb disp s => ⟨decode_encMem _ _ _ rfl _, ?lda⟩, fun ra rb disp s => ⟨decode_encMem _ _ _ rfl _, ?ldah⟩⟩
  case lda =>
    rw [← add_signExtend_eq_ofInt]
    exact ⟨_, rfl, onlyInt_writeInt s ra _⟩
  case ldah =>
    rw [← add_signExtend_shiftLeft_eq_ofInt]
    exact ⟨_, rfl, onlyInt_writeInt s ra _⟩

/-! ## Fields side by side -/

/-- Two neighbouring fields are one field. -/
theorem field_append (v : Word) {hi lo m n : Nat} (h : hi = lo + n) : field v hi m ++ field v lo n = field v lo (m + n) :=
  BitVec.extractLsb'_append_extractLsb'_eq_extractLsb' h

/-- A field of a field. -/
theorem field_extract (v : Word) {lo n i k : Nat} (h : i + k ≤ n) : (field v lo n).extractLsb' i k = field v (lo + i) k := by
  apply BitVec.eq_of_getLsbD_eq
  intro j hj
  simp only [field, BitVec.getLsbD_extractLsb', hj, show i + j < n by omega, decide_true, Bool.true_and, Nat.add_assoc]

/-! ## The expanded exponent (R533, R535) -/

/-- MAP_F adds the difference of the biases, 1023 and 127, but to an exponent of zero. -/
theorem mapF_toNat (e : BitVec 8) : (mapF e).toNat = if e.toNat = 0 then 0 else e.toNat + 896 := by
  revert e; decide

/-- MAP_S does the same, but for the exponent of infinities and NaNs. -/
theorem mapS_toNat (e : BitVec 8) :
    (mapS e).toNat = if e.toNat = 0 then 0 else if e.toNat = 255 then 2047 else e.toNat + 896 := by
  revert e; decide

/-- Either map keeps the highest bit of the exponent and its seven lowest. -/
theorem mapF_keeps (e : BitVec 8) :
    (mapF e).extractLsb' 10 1 = e.extractLsb' 7 1 ∧ (mapF e).extractLsb' 0 7 = e.extractLsb' 0 7 := by
  revert e; decide

theorem mapS_keeps (e : BitVec 8) :
    (mapS e).extractLsb' 10 1 = e.extractLsb' 7 1 ∧ (mapS e).extractLsb' 0 7 = e.extractLsb' 0 7 := by
  revert e; decide

/-! ## A register as sign, exponent and fraction -/

section
variable (sign : BitVec 1) (e : BitVec 11) (f : BitVec 52)

theorem register_sign : (sign ++ (e ++ f)).getLsbD 63 = sign.getLsbD 0 := bit_cat_hi _ _ _ (by decide)

theorem register_fraction : (sign ++ (e ++ f)).extractLsb' 0 52 = f := by
  rw [extract_cat_lo _ _ _ _ (by decide), extract_cat_lo _ _ _ _ (by decide), extract_all]

theorem register_exponent : (sign ++ (e ++ f)).extractLsb' 52 11 = e := by
  rw [extract_cat_lo _ _ _ _ (by decide), extract_cat_hi _ _ _ _ (by decide), extract_all]

/-- The fields that STF and STS take of such a register. -/
theorem register_fields : field (sign ++ (e ++ f)) 63 1 = sign ∧ field (sign ++ (e ++ f)) 62 1 = e.extractLsb' 10 1 ∧
    field (sign ++ (e ++ f)) 52 7 = e.extractLsb' 0 7 ∧
    ∀ lo n, lo + n ≤ 52 → field (sign ++ (e ++ f)) lo n = f.extractLsb' lo n := by
  refine ⟨?_, ?_, ?_, fun lo n h => ?_⟩
  · rw [field, extract_cat_hi _ _ _ _ (by decide), extract_all]
  · rw [field, extract_cat_lo _ _ _ _ (by decide), extract_cat_hi _ _ _ _ (by decide)]
  · rw [field, extract_cat_lo _ _ _ _ (by decide), extract_cat_hi _ _ _ _ (by decide)]
  · rw [field, extract_cat_lo _ _ _ _ (by omega), extract_cat_lo _ _ _ _ h]

end

/-! ## Stores (R537, R539) -/

/-- The fields of STF that are neighbours in the register, and its zero upper half. -/
theorem toMemF_eq (v : Word) :
    toMemF v = 0#32 ++ (v.extractLsb' 29 16 ++ (v.extractLsb' 62 2 ++ v.extractLsb' 45 14)) := by
  have hjoin : field v 63 1 ++ (field v 62 1 ++ (field v 52 7 ++ field v 45 7)) = field v 62 2 ++ field v 45 14 := by
    rw [field_append v (hi := 52) (lo := 45) rfl, ← field_append v (hi := 63) (lo := 62) (m := 1) (n := 1) rfl]
    exact BitVec.append_assoc.symm
  rw [toMemF, hjoin, BitVec.setWidth_eq_append (by decide)]
  rfl

theorem toMemS_eq (v : Word) : toMemS v = 0#32 ++ (v.extractLsb' 62 2 ++ v.extractLsb' 29 30) :=
  BitVec.setWidth_eq_append (by decide)

/-- What a store gives back is the low longword. -/
theorem setWidth_field (m : Word) : (field m 0 32).setWidth 64 = (m.setWidth 32).setWidth 64 := by
  rw [field, ← BitVec.setWidth_eq_extractLsb' (by decide)]

/-- STF undoes LDF (R533, R537). -/
theorem toMemF_fromMemF (m : Word) : toMemF (fromMemF m) = (m.setWidth 32).setWidth 64 := by
  obtain ⟨hsign, htop, hlow, hfrac⟩ :=
    register_fields (field m 15 1) (mapF (field m 7 8)) (field m 0 7 ++ (field m 16 16 ++ 0#29))
  obtain ⟨hkeep, hkeep'⟩ := mapF_keeps (field m 7 8)
  rw [← setWidth_field, toMemF, fromMemF, hfrac 29 16 (by decide), hfrac 45 7 (by decide), hsign, htop, hlow, hkeep, hkeep',
    field_extract m (by decide), field_extract m (by decide), extract_cat_lo _ _ 29 16 (by decide),
    extract_cat_hi _ _ 29 16 (by decide), extract_all, extract_cat_hi _ _ 45 7 (by decide), extract_all,
    field_append m (hi := 7) (lo := 0) rfl, field_append m (hi := 14) (lo := 0) rfl,
    field_append m (hi := 15) (lo := 0) rfl, field_append m (hi := 16) (lo := 0) rfl]

/-- STS undoes LDS (R535, R539). -/
theorem toMemS_fromMemS (m : Word) : toMemS (fromMemS m) = (m.setWidth 32).setWidth 64 := by
  obtain ⟨hsign, htop, hlow, hfrac⟩ := register_fields (field m 31 1) (mapS (field m 23 8)) (field m 0 23 ++ 0#29)
  obtain ⟨hkeep, hkeep'⟩ := mapS_keeps (field m 23 8)
  rw [← setWidth_field, toMemS, ← field_append _ (hi := 63) (lo := 62) (m := 1) (n := 1) rfl,
    ← field_append _ (hi := 52) (lo := 29) (m := 7) (n := 23) rfl, fromMemS, hfrac 29 23 (by decide), hsign, htop, hlow, hkeep,
    hkeep', field_extract m (by decide), field_extract m (by decide), extract_cat_hi _ _ 29 23 (by decide), extract_all,
    field_append m (hi := 31) (lo := 30) rfl, field_append m (hi := 23) (lo := 0) rfl, field_append m (hi := 30) (lo := 0) rfl]

/-! ## The four words reversed (R534) -/

theorem swapWords_fields (m : Word) : field (swapWords m) 0 16 = field m 48 16 ∧ field (swapWords m) 16 16 = field m 32 16 ∧
    field (swapWords m) 32 16 = field m 16 16 ∧ field (swapWords m) 48 16 = field m 0 16 := by
  simp (disch := decide) only [swapWords, field, extract_cat_lo, extract_cat_hi]
  exact ⟨extract_all _, extract_all _, extract_all _, extract_all _⟩

theorem swapWords_swapWords (m : Word) : swapWords (swapWords m) = m := by
  obtain ⟨h0, h1, h2, h3⟩ := swapWords_fields m
  rw [swapWords, h0, h1, h2, h3, field_append m (hi := 16) (lo := 0) rfl, field_append m (hi := 32) (lo := 0) rfl,
    field_append m (hi := 48) (lo := 0) rfl]
  exact extract_all m

/-- Settles O15: the loaded forms as sign, exponent and fraction, and the stored forms as fields of the register. -/
theorem floatMemoryForms : Obligations.FloatMemoryForms := by
  intro m
  have hbit (k : Nat) : (field m k 1).getLsbD 0 = m.getLsbD k := by simp [field]
  obtain ⟨hword, hword', -, -⟩ := swapWords_fields m
  refine ⟨⟨?_, register_fraction .., ?_, toMemF_fromMemF m⟩, ⟨?_, register_fraction .., ?_, toMemS_fromMemS m⟩, toMemF_eq m,
    toMemS_eq m, swapWords_swapWords m, hword, hword'⟩
  · exact (register_sign ..).trans (hbit 15)
  · exact (congrArg BitVec.toNat (register_exponent ..)).trans (mapF_toNat _)
  · exact (register_sign ..).trans (hbit 31)
  · exact (congrArg BitVec.toNat (register_exponent ..)).trans (mapS_toNat _)

end Sys2Proof.Machine
end

section
/-! The loads and stores of chapter 40 that reach the memory-like region: what the access of Laws/Access.lean leaves in the register,
the lock, the buffers and the Dcache (R322, R323, R340, R360, R363). -/

namespace Sys2Proof.Machine

variable {s : State} {r : Ref} {a : PAddr}

/-! ## Registers -/

/-- What delivers to the slot of `ra` writes `ra`: a longword sign-extended (R523). -/
theorem State.deliver_int {u : State} {ra : RegNum} (quad : Bool) (v : Word) (hp : u.palmode = s.palmode) (hi : u.ibox = s.ibox) :
    u.deliver (.int (s.intSlot ra) (!quad)) v = u.writeInt ra (if quad then v else (v.setWidth 32).signExtend 64) := by
  rw [State.writeInt, State.intSlot_congr ra (State.shadowOn_congr hp (congrArg Ibox.icsr hi))]
  cases quad <;> rfl

/-- A Dcache that answers plainly is not in force-hit mode. -/
theorem State.dcForced_of_steady {quad write : Bool} (h : s.dcSteady quad write a) : s.dcForced = false := by
  obtain ⟨-, -, hfhit⟩ := h
  rw [State.dcForced, hfhit, Bool.and_false]

theorem State.writeFp_eq_registers (u : State) (n : RegNum) (v : Word) : ∃ f, u.writeFp n v = { u with fregs := f } := by
  rw [State.writeFp]
  split <;> exact ⟨_, rfl⟩

/-! ## Loads (R322, R360) -/

/-- `s` after a load from the memory-like region, but for the register that the load writes: its entry in the miss address file, if it
gets one, and the lock of an LDx_L. -/
def State.memoryLoaded (s : State) (hit : Option (Fin 64)) (locked quad : Bool) (a : PAddr) (t : LoadTarget) : State :=
  { s.touchDtb hit with
    maf := s.mafAfter locked quad a t
    lockFlag := locked || s.lockFlag
    lockAddr := if locked then a else s.lockAddr
    pc := s.pc + 4#64
    afterMb := false }

/-- A load into an integer register: an LDx_L in any case, another where the Dcache answers plainly. -/
theorem State.loadInt_reaches {locked : Bool} (h : s.reaches r a) (hf : s.dcForced = false)
    (hp : locked = true ∨ s.dcSteady r.quad false a) :
    ∃ hit v t i sh, s.loadInt r locked = .next t ∧ s.datum locked r.quad a v ∧
      s.intWrite t r.ra (if r.quad then v else (v.setWidth 32).signExtend 64) ∧
      t = { s.memoryLoaded hit locked r.quad a (.int (s.intSlot r.ra) (!r.quad)) with ints := i, shadow := sh } := by
  obtain ⟨hit, v, hv, hl⟩ := State.load_reaches locked (.int (s.intSlot r.ra) (!r.quad)) h hf hp
  rw [State.deliver_int r.quad v (by cases hit <;> rfl) (by cases hit <;> rfl)] at hl
  generalize hu : ({ s.touchDtb hit with maf := _, lockFlag := _, lockAddr := _ } : State) = u at hl
  have hw := intWrite_of_same s (u := u) r.ra (if r.quad then v else (v.setWidth 32).signExtend 64)
    (by subst hu; cases hit <;> rfl) (by subst hu; cases hit <;> rfl) (by subst hu; cases hit <;> rfl)
    (by subst hu; cases hit <;> rfl)
  obtain ⟨i, sh, hframe⟩ := u.writeInt_eq_registers r.ra (if r.quad then v else (v.setWidth 32).signExtend 64)
  refine ⟨hit, v, _, i, sh, hl, hv, State.intWrite_congr hw rfl rfl rfl rfl, ?_⟩
  rw [hframe, ← hu]
  cases hit <;> rfl

/-- A load into a floating-point register, where the Dcache answers plainly. -/
theorem State.loadFp_reaches {res : Res State} {form : FpForm} (hres : res = s.loadFp r form) (h : s.reachesPlainly r a)
    (hw : r.write = false) :
    ∃ t v, res = .next t ∧ s.datum false r.quad a v ∧ s.fpWrite t r.ra (form.load v) ∧ t.pc = s.pc + 4#64 ∧
      t.maf = s.mafAfter false r.quad a (.fp r.ra form) ∧ s.sameBut { t with fregs := s.fregs, pc := s.pc, maf := s.maf } := by
  obtain ⟨hreach, hsteady⟩ := h
  rw [hw] at hsteady
  obtain ⟨hit, v, hv, hl⟩ := State.load_reaches false (.fp r.ra form) hreach (State.dcForced_of_steady hsteady) (.inr hsteady)
  generalize hu : ({ s.touchDtb hit with maf := _, lockFlag := _, lockAddr := _ } : State) = u at hl
  have hwrite := fpWrite_of_same s (u := u) r.ra (form.load v) (by subst hu; cases hit <;> rfl)
  obtain ⟨f, hframe⟩ := u.writeFp_eq_registers r.ra (form.load v)
  have hdone : (u.deliver (.fp r.ra form) v).accessDone =
      { s.memoryLoaded hit false r.quad a (.fp r.ra form) with fregs := f } := by
    rw [State.deliver, hframe, ← hu]
    cases hit <;> rfl
  refine ⟨_, v, hres.trans hl, hv, State.fpWrite_congr hwrite rfl, ?_⟩
  rw [hdone]
  exact ⟨rfl, rfl, State.sameBut_touch hit (by cases hit <;> rfl) rfl⟩

/-- A load other than LDx_L into an integer register, where the Dcache answers plainly. -/
theorem State.loadInt_plain {res : Res State} (hres : res = s.loadInt r false) (h : s.reachesPlainly r a)
    (hw : r.write = false) :
    ∃ t v, res = .next t ∧ s.datum false r.quad a v ∧
      s.intWrite t r.ra (if r.quad then v else (v.setWidth 32).signExtend 64) ∧ t.pc = s.pc + 4#64 ∧
      t.maf = s.mafAfter false r.quad a (.int (s.intSlot r.ra) (!r.quad)) ∧
      s.sameBut { t with ints := s.ints, shadow := s.shadow, pc := s.pc, maf := s.maf } := by
  obtain ⟨hreach, hsteady⟩ := h
  rw [hw] at hsteady
  obtain ⟨hit, v, t, i, sh, ht, hv, hwrite, rfl⟩ :=
    State.loadInt_reaches hreach (State.dcForced_of_steady hsteady) (.inr hsteady)
  exact ⟨_, v, hres.trans ht, hv, hwrite, rfl, rfl, State.sameBut_touch hit (by cases hit <;> rfl) rfl⟩

/-- An LDx_L, the Dcache not in force-hit mode. -/
theorem State.loadInt_locked {res : Res State} (hres : res = s.loadInt r true) (h : s.reaches r a)
    (hf : s.mbox.dcMode.extractLsb' 0 2 ≠ 3#2) :
    ∃ t v, res = .next t ∧ s.datum true r.quad a v ∧
      s.intWrite t r.ra (if r.quad then v else (v.setWidth 32).signExtend 64) ∧ t.pc = s.pc + 4#64 ∧
      t.lockFlag = true ∧ t.lockAddr = a ∧
      t.maf = s.maf ++ [⟨granule a, [⟨a, r.quad, .int (s.intSlot r.ra) (!r.quad)⟩], true, s.wbHolds (granule a)⟩] ∧
      s.sameBut { t with
        ints := s.ints, shadow := s.shadow, pc := s.pc, lockFlag := s.lockFlag, lockAddr := s.lockAddr, maf := s.maf } := by
  obtain ⟨hit, v, t, i, sh, ht, hv, hwrite, rfl⟩ :=
    State.loadInt_reaches h (Bool.eq_false_iff.2 (mt State.dcForced_iff.1 hf)) (.inl rfl)
  exact ⟨_, v, hres.trans ht, hv, hwrite, rfl, rfl, rfl, rfl, State.sameBut_touch hit (by cases hit <;> rfl) rfl⟩

/-! ## Stores (R323, R340) -/

theorem State.store_plain {res : Res State} {v : Word} (hres : res = s.store r v) (h : s.reachesPlainly r a)
    (hw : r.write = true) :
    ∃ t, res = .next t ∧ s.stored t r.quad a v ∧ t.pc = s.pc + 4#64 ∧
      s.sameBut { t with dcache := s.dcache, wb := s.wb, wbFence := s.wbFence, pc := s.pc } :=
  hres ▸ State.store_reaches v h hw

/-! ## Store-conditionals (R241, R363, R366) -/

/-- In a force-hit mode of the Scache or the Bcache a store-conditional of the memory-like region is refused (R241 (g)). -/
theorem State.storeCond_forced {v : Word} (h : s.reaches r a) (hf : s.scFhit = true ∨ s.bcFhit = true) :
    s.storeCond r v = .refused .conditionalInForceHit := by
  obtain ⟨pa, hit, htr, rfl, hreg, ho⟩ := h
  have hfhit : ((s.touchDtb hit).scFhit || (s.touchDtb hit).bcFhit) = true := by
    cases hit <;> exact Bool.or_eq_true_iff.2 hf
  rw [State.storeCond, State.dstream_ok htr ho]
  simp only [State.condAt, State.touchDtb_accessAddress, hreg, hfhit, if_true]
  rfl

/-- The state in which a store-conditional writes Ra: the Dcache without the block, and the entry that waits. -/
def State.condWaiting (s : State) (r : Ref) (a : PAddr) (v : Word) : State :=
  (s.dcInvalidate a).wbAllocate (granule a) (.cond (s.intSlot r.ra)) (if s.lockFlag then longsOf r.quad a else 0#8)
    (blockData r.quad a v)

theorem State.condMemory_eq (s : State) (r : Ref) (a : PAddr) (v : Word) :
    s.condMemory r a v = (s.condWaiting r a v).writeInt r.ra (if s.lockFlag then 1#64 else 0#64) := rfl

theorem State.condWaiting_wb (s : State) (r : Ref) (a : PAddr) (v : Word) :
    ∃ e, e.block = granule a ∧ e.kind = .cond (s.intSlot r.ra) ∧ (s.condWaiting r a v).wb = e :: s.wb :=
  ⟨⟨granule a, .cond (s.intSlot r.ra), _, _, _, _⟩, rfl, rfl, rfl⟩

/-- Outside those modes the entry waits, the Dcache loses the block, and Ra holds the lock flag. -/
theorem State.storeCond_stored {v : Word} (h : s.reaches r a) (hs : s.scFhit = false) (hb : s.bcFhit = false) :
    ∃ t, s.storeCond r v = .next t ∧ s.condStored t r.quad a r.ra v := by
  obtain ⟨t, hit, ht, htdone, hbyte, hdc⟩ := State.storeCond_reaches v h hs hb
  have hflag : (s.touchDtb hit).lockFlag = s.lockFlag := by cases hit <;> rfl
  rw [State.condMemory_eq, hflag] at htdone
  have hwrite := intWrite_of_same s (u := (s.touchDtb hit).condWaiting r a v) r.ra (if s.lockFlag then 1#64 else 0#64)
    (by cases hit <;> rfl) (by cases hit <;> rfl) (by cases hit <;> rfl) (by cases hit <;> rfl)
  obtain ⟨i, sh, hframe⟩ :=
    ((s.touchDtb hit).condWaiting r a v).writeInt_eq_registers r.ra (if s.lockFlag then 1#64 else 0#64)
  rw [hframe] at htdone hwrite
  have hwb : t.wb = ((s.touchDtb hit).condWaiting r a v).wb := by rw [htdone]; rfl
  refine ⟨t, ht, ?pc, ?register, hbyte, hdc, ?entry, ?frame⟩
  case pc => rw [htdone]; cases hit <;> rfl
  case register => rw [htdone]; exact State.intWrite_congr hwrite rfl rfl rfl rfl
  case entry =>
    rw [hwb]
    cases hit <;> exact State.condWaiting_wb ..
  case frame => rw [htdone]; exact State.sameBut_touch hit (by cases hit <;> rfl) rfl

/-! ## The statements -/

/-- Settles O11: each of the three is one reference, and LDQ_U to R31 none. -/
theorem integerLoads : Obligations.IntegerLoads := by
  refine ⟨?_, fun rb disp s => rfl⟩
  rw [List.forall_mem_cons, List.forall_mem_cons, List.forall_mem_singleton]
  refine ⟨fun ra rb disp a s => ⟨decode_encMem _ _ _ rfl _, fun h _ => ?ldl⟩,
    fun ra rb disp a s => ⟨decode_encMem _ _ _ rfl _, fun h _ => ?ldq⟩,
    fun ra rb disp a s => ⟨decode_encMem _ _ _ rfl _, fun h hra => ?ldqU⟩⟩
  case ldl => exact State.loadInt_plain exec_ldl h rfl
  case ldq => exact State.loadInt_plain exec_ldq h rfl
  case ldqU => exact State.loadInt_plain (exec_ldqU (hra rfl)) h rfl

/-- Settles O12: each of the four is one reference, and its form the one that `FpForm.load` delivers. -/
theorem floatLoads : Obligations.FloatLoads := by
  unfold Obligations.FloatLoads
  rw [List.forall_mem_cons, List.forall_mem_cons, List.forall_mem_cons, List.forall_mem_singleton]
  refine ⟨fun ra rb disp a s => ⟨decode_encMem _ _ _ rfl _, fun hfpe h => ?ldf⟩,
    fun ra rb disp a s => ⟨decode_encMem _ _ _ rfl _, fun hfpe h => ?ldg⟩,
    fun ra rb disp a s => ⟨decode_encMem _ _ _ rfl _, fun hfpe h => ?lds⟩,
    fun ra rb disp a s => ⟨decode_encMem _ _ _ rfl _, fun hfpe h => ?ldt⟩⟩
  case ldf => exact State.loadFp_reaches (exec_ldf hfpe) h rfl
  case ldg => exact State.loadFp_reaches (exec_ldg hfpe) h rfl
  case lds => exact State.loadFp_reaches (exec_lds hfpe) h rfl
  case ldt => exact State.loadFp_reaches (exec_ldt hfpe) h rfl

/-- Settles O13: each of the three is one reference with the bytes of Rav. -/
theorem integerStores : Obligations.IntegerStores := by
  unfold Obligations.IntegerStores
  rw [List.forall_mem_cons, List.forall_mem_cons, List.forall_mem_singleton]
  refine ⟨fun ra rb disp a s => ⟨decode_encMem _ _ _ rfl _, fun h => ?stl⟩,
    fun ra rb disp a s => ⟨decode_encMem _ _ _ rfl _, fun h => ?stq⟩,
    fun ra rb disp a s => ⟨decode_encMem _ _ _ rfl _, fun h => ?stqU⟩⟩
  case stl => exact State.store_plain exec_stl h rfl
  case stq => exact State.store_plain exec_stq h rfl
  case stqU => exact State.store_plain exec_stqU h rfl

/-- Settles O14: each of the four is one reference with the bytes of Fav's memory form. -/
theorem floatStores : Obligations.FloatStores := by
  unfold Obligations.FloatStores
  rw [List.forall_mem_cons, List.forall_mem_cons, List.forall_mem_cons, List.forall_mem_singleton]
  refine ⟨fun ra rb disp a s => ⟨decode_encMem _ _ _ rfl _, fun hfpe h => ?stf⟩,
    fun ra rb disp a s => ⟨decode_encMem _ _ _ rfl _, fun hfpe h => ?stg⟩,
    fun ra rb disp a s => ⟨decode_encMem _ _ _ rfl _, fun hfpe h => ?sts⟩,
    fun ra rb disp a s => ⟨decode_encMem _ _ _ rfl _, fun hfpe h => ?stt⟩⟩
  case stf => exact State.store_plain (exec_stf hfpe) h rfl
  case stg => exact State.store_plain (exec_stg hfpe) h rfl
  case sts => exact State.store_plain (exec_sts hfpe) h rfl
  case stt => exact State.store_plain (exec_stt hfpe) h rfl

/-- Settles O16: both are one locked reference. -/
theorem loadLocked : Obligations.LoadLocked := by
  unfold Obligations.LoadLocked
  rw [List.forall_mem_cons, List.forall_mem_singleton]
  refine ⟨fun ra rb disp a s => ⟨decode_encMem _ _ _ rfl _, fun h hmode => ?ldlL⟩,
    fun ra rb disp a s => ⟨decode_encMem _ _ _ rfl _, fun h hmode => ?ldqL⟩⟩
  case ldlL => exact State.loadInt_locked exec_ldlL h hmode
  case ldqL => exact State.loadInt_locked exec_ldqL h hmode

/-- Settles O17: both are one conditional reference, which a force-hit mode refuses. No premise on Dcache parity is used: that a
store-conditional checks none is the model's choice (log 13). -/
theorem storeConditional : Obligations.StoreConditional := by
  unfold Obligations.StoreConditional
  rw [List.forall_mem_cons, List.forall_mem_singleton]
  exact ⟨fun ra rb disp a s => ⟨decode_encMem _ _ _ rfl _, fun h => ⟨State.storeCond_stored h, State.storeCond_forced h⟩⟩,
    fun ra rb disp a s => ⟨decode_encMem _ _ _ rfl _, fun h => ⟨State.storeCond_stored h, State.storeCond_forced h⟩⟩⟩

end Sys2Proof.Machine
end

section
/-! The branches and jumps of chapter 41: their targets, their conditions, and the state that a branch or a link leaves. -/

namespace Sys2Proof.Machine

/-! ## Targets (R546, R567) -/

/-- Clearing the bits of a mask is taking them away. -/
theorem and_not_eq_sub (a m : Word) : a &&& ~~~m = a - (a &&& m) := by
  have hdisjoint : (a &&& ~~~m) &&& (a &&& m) = 0#64 := by
    ext i hi
    cases h : m[i] <;> simp [h]
  have hsplit : (a &&& ~~~m) + (a &&& m) = a := by
    rw [BitVec.add_eq_or_of_and_eq_zero _ _ hdisjoint]
    ext i hi
    cases h : m[i] <;> simp [h]
  exact eq_sub_of_add_eq hsplit

theorem and_not_of_aligned {a : Word} (h : a &&& 3#64 = 0#64) : a &&& ~~~3#64 = a := by
  rw [and_not_eq_sub, h, BitVec.sub_zero]

theorem aligned_iff (a : Word) : a &&& 3#64 = 0#64 ↔ a.toNat % 4 = 0 := by
  rw [← BitVec.toNat_inj, BitVec.toNat_and]
  exact Eq.congr_left (Nat.and_two_pow_sub_one_eq_mod a.toNat 2)

theorem add_aligned {a b : Word} (ha : a &&& 3#64 = 0#64) (hb : b &&& 3#64 = 0#64) : (a + b) &&& 3#64 = 0#64 := by
  rw [aligned_iff] at *
  rw [BitVec.toNat_add]
  omega

theorem shiftLeft_two_aligned (a : Word) : (a <<< 2) &&& 3#64 = 0#64 := by
  rw [aligned_iff, BitVec.toNat_shiftLeft, Nat.shiftLeft_eq]
  omega

/-- The distance of a branch is four times its signed displacement. -/
theorem signExtend_shiftLeft_eq_ofInt (disp : BitVec 21) :
    disp.signExtend 64 <<< 2 = BitVec.ofInt 64 (4 * disp.toInt) := by
  rw [BitVec.shiftLeft_eq_mul_twoPow, BitVec.mul_comm, BitVec.ofInt_mul, BitVec.signExtend]
  rfl

theorem State.branchTarget_eq (s : State) (disp : BitVec 21) :
    s.branchTarget disp = s.pc + 4#64 + BitVec.ofInt 64 (4 * disp.toInt) := by
  rw [State.branchTarget, State.nextPc, signExtend_shiftLeft_eq_ofInt]

/-- From an aligned PC a branch has an aligned target, so that going there clears nothing. -/
theorem State.branchTarget_clear {s : State} (h : s.pc &&& 3#64 = 0#64) (disp : BitVec 21) :
    s.branchTarget disp &&& ~~~3#64 = s.pc + 4#64 + BitVec.ofInt 64 (4 * disp.toInt) := by
  have haligned : s.branchTarget disp &&& 3#64 = 0#64 := add_aligned (add4_aligned h) (shiftLeft_two_aligned _)
  rw [and_not_of_aligned haligned, State.branchTarget_eq]

/-! ## Integer conditions (R549 to R556) -/

theorem eqZero_iff (a : Word) : (a == 0#64) = true ↔ a.toInt = 0 := by
  rw [beq_iff_eq, ← BitVec.toInt_inj, BitVec.toInt_zero]

theorem neZero_iff (a : Word) : (a != 0#64) = true ↔ a.toInt ≠ 0 := by
  rw [bne, Bool.not_eq_true', ← Bool.not_eq_true, eqZero_iff]

theorem msb_iff_neg (a : Word) : a.msb = true ↔ a.toInt < 0 := by
  rw [BitVec.msb_eq_toInt, decide_eq_true_iff]

theorem not_msb_iff_nonneg (a : Word) : (!a.msb) = true ↔ 0 ≤ a.toInt := by
  rw [Bool.not_eq_true', ← Bool.not_eq_true, msb_iff_neg, Int.not_lt]

theorem msb_or_eqZero_iff_nonpos (a : Word) : (a.msb || a == 0#64) = true ↔ a.toInt ≤ 0 := by
  rw [Bool.or_eq_true, msb_iff_neg, eqZero_iff, ← Int.le_iff_lt_or_eq]

theorem not_msb_and_neZero_iff_pos (a : Word) : (!a.msb && a != 0#64) = true ↔ 0 < a.toInt := by
  rw [Bool.and_eq_true, not_msb_iff_nonneg, neZero_iff]
  omega

theorem lowBit_iff_odd (a : Word) : a.getLsbD 0 = true ↔ a.toNat % 2 = 1 := by
  rw [BitVec.getLsbD, Nat.testBit_zero, decide_eq_true_iff]

theorem not_lowBit_iff_even (a : Word) : (!a.getLsbD 0) = true ↔ a.toNat % 2 = 0 := by
  rw [Bool.not_eq_true', ← Bool.not_eq_true, lowBit_iff_odd, Nat.mod_two_not_eq_one]

/-! ## Floating-point conditions (R557 to R562) -/

theorem fpSign_eq_msb (a : Word) : fpSign a = a.msb := (BitVec.msb_eq_getLsbD_last a).symm

theorem fpEq_iff (a : Word) : fpEq a = true ↔ a.extractLsb' 0 63 = 0#63 := beq_iff_eq

theorem fpNe_iff (a : Word) : fpNe a = true ↔ a.extractLsb' 0 63 ≠ 0#63 := by
  rw [fpNe, Bool.not_eq_true', ← Bool.not_eq_true]
  exact not_congr (fpEq_iff a)

theorem fpLt_iff (a : Word) : fpLt a = true ↔ a.msb = true ∧ a.extractLsb' 0 63 ≠ 0#63 := by
  rw [← fpSign_eq_msb, ← fpNe_iff]
  exact Bool.and_eq_true_iff

theorem fpLe_iff (a : Word) : fpLe a = true ↔ a.msb = true ∨ a.extractLsb' 0 63 = 0#63 := by
  rw [← fpSign_eq_msb, ← fpEq_iff]
  exact Bool.or_eq_true_iff

theorem fpGt_iff (a : Word) : fpGt a = true ↔ a.msb = false ∧ a.extractLsb' 0 63 ≠ 0#63 := by
  rw [← fpSign_eq_msb, ← fpNe_iff, ← Bool.not_eq_true']
  exact Bool.and_eq_true_iff

theorem fpGe_iff (a : Word) : fpGe a = true ↔ a.msb = false ∨ a.extractLsb' 0 63 = 0#63 := by
  rw [← fpSign_eq_msb, ← fpEq_iff, ← Bool.not_eq_true']
  exact Bool.or_eq_true_iff

/-! ## Conditional branches -/

/-- `r` is what a branch of `s` on the condition `c` gives: only the PC changes, to the target or to the next instruction. -/
def State.branchesOn (s : State) (c : Prop) (disp : BitVec 21) (r : Res State) : Prop :=
  (c → r = .next { s with pc := s.pc + 4#64 + BitVec.ofInt 64 (4 * disp.toInt) }) ∧
  (¬ c → r = .next { s with pc := s.pc + 4#64 })

theorem State.branchesOn_branchIf {s : State} {taken : Bool} {c : Prop} (hc : taken = true ↔ c)
    (h : s.pc &&& 3#64 = 0#64) (disp : BitVec 21) : s.branchesOn c disp (.next (s.branchIf taken disp)) := by
  refine ⟨fun htaken => ?taken, fun hnot => ?next⟩
  case taken => rw [State.branchIf, if_pos (hc.2 htaken), State.jumpTo, State.branchTarget_clear h]
  case next => rw [State.branchIf, if_neg (mt hc.1 hnot)]; rfl

/-- One row of the integer branches: its opcode, and its test for its condition. -/
theorem intBranch_row {op : BitVec 6} {mk : MkBra} {test : Word → Bool} {c : Word → Prop} (hop : opClass op = .bra mk)
    (hc : ∀ a, test a = true ↔ c a)
    (hexec : ∀ ra disp (s : State), exec (mk ra disp) s = .next (s.branchIf (test (s.readInt ra)) disp)) :
    ∀ ra disp (s : State), decode (encBra op ra disp) = .ok (mk ra disp) ∧
      (s.pc &&& 3#64 = 0#64 → s.branchesOn (c (s.readInt ra)) disp (exec (mk ra disp) s)) := by
  intro ra disp s
  rw [hexec]
  exact ⟨decode_encBra op ra hop disp, fun h => State.branchesOn_branchIf (hc _) h disp⟩

/-- One row of the floating-point branches: the same behind the gate of ICSR<FPE> (R569). -/
theorem fpBranch_row {op : BitVec 6} {mk : MkBra} {test : Word → Bool} {c : Word → Prop} (hop : opClass op = .bra mk)
    (hc : ∀ a, test a = true ↔ c a)
    (hexec : ∀ ra disp (s : State), exec (mk ra disp) s =
      s.fpGate fun s => .next (s.branchIf (test (s.readFp ra)) disp)) :
    ∀ ra disp (s : State), decode (encBra op ra disp) = .ok (mk ra disp) ∧
      (s.fpe = true → s.pc &&& 3#64 = 0#64 → s.branchesOn (c (s.readFp ra)) disp (exec (mk ra disp) s)) := by
  intro ra disp s
  refine ⟨decode_encBra op ra hop disp, fun hfpe h => ?_⟩
  rw [hexec, fpGate_on hfpe]
  exact State.branchesOn_branchIf (hc _) h disp

/-- Settles O8: each row by its opcode and its condition. -/
theorem conditionalBranches : Obligations.ConditionalBranches := by
  refine ⟨?integer, ?floating⟩
  case integer =>
    rw [List.forall_mem_cons, List.forall_mem_cons, List.forall_mem_cons, List.forall_mem_cons, List.forall_mem_cons,
      List.forall_mem_cons, List.forall_mem_cons, List.forall_mem_singleton]
    exact ⟨intBranch_row rfl eqZero_iff fun _ _ _ => rfl, intBranch_row rfl neZero_iff fun _ _ _ => rfl,
      intBranch_row rfl msb_iff_neg fun _ _ _ => rfl, intBranch_row rfl msb_or_eqZero_iff_nonpos fun _ _ _ => rfl,
      intBranch_row rfl not_msb_and_neZero_iff_pos fun _ _ _ => rfl, intBranch_row rfl not_msb_iff_nonneg fun _ _ _ => rfl,
      intBranch_row rfl not_lowBit_iff_even fun _ _ _ => rfl, intBranch_row rfl lowBit_iff_odd fun _ _ _ => rfl⟩
  case floating =>
    rw [List.forall_mem_cons, List.forall_mem_cons, List.forall_mem_cons, List.forall_mem_cons, List.forall_mem_cons,
      List.forall_mem_singleton]
    exact ⟨fpBranch_row rfl fpEq_iff fun _ _ _ => rfl, fpBranch_row rfl fpNe_iff fun _ _ _ => rfl,
      fpBranch_row rfl fpLt_iff fun _ _ _ => rfl, fpBranch_row rfl fpLe_iff fun _ _ _ => rfl,
      fpBranch_row rfl fpGt_iff fun _ _ _ => rfl, fpBranch_row rfl fpGe_iff fun _ _ _ => rfl⟩

/-! ## Branches and jumps that link -/

/-- `t` is `s` after an instruction that writes the link to `ra` and continues at `target`. -/
def State.linksTo (s t : State) (ra : RegNum) (target : Word) : Prop :=
  s.intWrite t ra ((s.pc + 4#64) ||| ofBool64 s.palmode) ∧ t.pc = target ∧
    { t with ints := s.ints, shadow := s.shadow, pc := s.pc } = s

/-- At an aligned PC the link is the next address itself, with the PALmode flag (D2). -/
theorem State.link_eq {s : State} (h : s.pc &&& 3#64 = 0#64) (ra : RegNum) :
    s.link ra = s.writeInt ra ((s.pc + 4#64) ||| ofBool64 s.palmode) := by
  rw [State.link, State.pcView, State.nextPc, and_not_of_aligned (add4_aligned h)]

theorem State.linksTo_jumpTo {s : State} (h : s.pc &&& 3#64 = 0#64) (ra : RegNum) (target : Word) :
    s.linksTo ((s.link ra).jumpTo target) ra (target &&& ~~~3#64) := by
  obtain ⟨ints, shadow, hlink⟩ := s.writeInt_eq_registers ra ((s.pc + 4#64) ||| ofBool64 s.palmode)
  refine ⟨?link, rfl, ?frame⟩
  case link =>
    rw [State.link_eq h]
    exact State.intWrite_congr (intWrite_writeInt s ra _) rfl rfl rfl rfl
  case frame => rw [State.link_eq h, hlink]; rfl

theorem State.linksTo_branchLink {s : State} (h : s.pc &&& 3#64 = 0#64) (ra : RegNum) (disp : BitVec 21) :
    s.linksTo (s.branchLink ra disp) ra (s.pc + 4#64 + BitVec.ofInt 64 (4 * disp.toInt)) := by
  rw [← State.branchTarget_clear h]
  exact State.linksTo_jumpTo h ra _

/-- The target is Rbv before the link is written (R563), also where `ra` and `rb` are the same register. -/
theorem State.linksTo_jumpLink {s : State} (h : s.pc &&& 3#64 = 0#64) (ra rb : RegNum) :
    s.linksTo (s.jumpLink ra rb) ra (s.readInt rb - (s.readInt rb &&& 3#64)) := by
  rw [← and_not_eq_sub]
  exact State.linksTo_jumpTo h ra _

/-- One row of the jumps: its selector, and the hint that changes nothing. -/
theorem jump_row {sel : BitVec 2} {mk : RegNum → RegNum → BitVec 14 → Instr} (hsel : lookup sel jumpTable = some mk)
    (hexec : ∀ ra rb hint (s : State), exec (mk ra rb hint) s = .next (s.jumpLink ra rb)) :
    ∀ ra rb hint (s : State), decode (encJump ra rb sel hint) = .ok (mk ra rb hint) ∧
      (s.pc &&& 3#64 = 0#64 →
        ∃ t, exec (mk ra rb hint) s = .next t ∧ s.linksTo t ra (s.readInt rb - (s.readInt rb &&& 3#64))) :=
  fun ra rb hint _ => ⟨decode_encJump ra rb hsel hint, fun h => ⟨_, hexec .., State.linksTo_jumpLink h ra rb⟩⟩

/-- Settles O9: BR and BSR by their opcodes, the jumps by their selectors. -/
theorem unconditionalJumps : Obligations.UnconditionalJumps := by
  refine ⟨?branches, ?jumps⟩
  case branches =>
    rw [List.forall_mem_cons, List.forall_mem_singleton]
    exact ⟨fun ra disp _ => ⟨decode_encBra _ _ rfl _, fun h => ⟨_, rfl, State.linksTo_branchLink h ra disp⟩⟩,
      fun ra disp _ => ⟨decode_encBra _ _ rfl _, fun h => ⟨_, rfl, State.linksTo_branchLink h ra disp⟩⟩⟩
  case jumps =>
    rw [List.forall_mem_cons, List.forall_mem_cons, List.forall_mem_cons, List.forall_mem_singleton]
    exact ⟨jump_row rfl fun _ _ _ _ => rfl, jump_row rfl fun _ _ _ _ => rfl, jump_row rfl fun _ _ _ _ => rfl,
      jump_row rfl fun _ _ _ _ => rfl⟩

end Sys2Proof.Machine
end

section
/-! Integer operates (R570, R597): what an instruction of the shape `R[rc] <- f(Rav, Rbv)` and its /V form leave, for every row of
an Operate table, and the arithmetic of chapter 42 as numbers. -/

namespace Sys2Proof.Machine

/-! ## Rows of the Operate tables (R570) -/

section

variable {op : BitVec 6} {fn : BitVec 7} {mk : MkOpr} {table : List (BitVec 7 × MkOpr)}

theorem OprRow.encoded_of_lookup {α : Type} (hop : opClass op = .opr table) (hfn : lookup fn table = some mk) (what : α)
    (ra : RegNum) (rb : RegOrLit) (rc : RegNum) : (OprRow.mk op fn mk what).encoded ra rb rc :=
  decode_encOpr op ra rc hop hfn rb

/-- One row of the operates that cannot trap: its codes, and the rule's value. -/
theorem intOp_row {f value : Word → Word → Word} (hop : opClass op = .opr table) (hfn : lookup fn table = some mk)
    (hexec : ∀ ra rb rc (s : State), exec (mk ra rb rc) s = .next (s.intOp f ra rb rc))
    (hvalue : ∀ a b, f a b = value a b) :
    ∀ ra rb rc (s : State), (OprRow.mk op fn mk value).encoded ra rb rc ∧
      ∃ t, exec (mk ra rb rc) s = .next t ∧ s.onlyInt t rc (value (s.readInt ra) (s.operand rb)) :=
  fun ra rb rc s => ⟨OprRow.encoded_of_lookup hop hfn value ra rb rc, _, hexec .., onlyInt_intOp s rc (hvalue ..)⟩

/-! ## Integer overflow (R113, R597, R704) -/

/-- `r` is what an instruction of `s` answers that writes `v` to `rc` and reports integer overflow: ARITH is taken in `u`. -/
def State.reportsOverflow (s : State) (r : Res State) (rc : RegNum) (v : Word) : Prop :=
  ∃ u t : State, r = .next t ∧ s.intWrite u rc v ∧
    u.ibox.excSum = s.ibox.excSum ||| 0x40#7 ∧ u.ibox.excMask = s.ibox.excMask ||| (1#64 <<< rc.toNat) ∧
    { u with
      ints := s.ints, shadow := s.shadow
      ibox := { u.ibox with excSum := s.ibox.excSum, excMask := s.ibox.excMask } } = s ∧
    u.trapped t 0x0500#14 (s.pc + 4#64)

theorem reportsOverflow_finishInt (s : State) (rc : RegNum) (v : Word) :
    s.reportsOverflow (.next (s.finishInt rc v true)) rc v := by
  have hwrite := intWrite_writeInt s rc v
  have hnext : (s.writeInt rc v).nextPc = s.pc + 4#64 := by rw [State.nextPc, State.writeInt_pc]
  obtain ⟨ints, shadow, hframe⟩ := s.writeInt_eq_registers rc v
  refine ⟨(s.writeInt rc v).recordSum Conds.iov rc.toNat, _, rfl, State.intWrite_congr hwrite rfl rfl rfl rfl, ?sum, ?mask,
    ?frame, ?trap⟩
  case sum => rw [hframe]; rfl
  case mask => rw [hframe]; rfl
  case frame => rw [hframe]; rfl
  case trap => rw [← hnext]; exact trapped_trap _ .arith _

theorem reportsOverflow_intOpV (s : State) {f : Word → Word → Word} {ovf : Word → Word → Bool} {ra : RegNum} {rb : RegOrLit}
    {v : Word} (rc : RegNum) (hovf : ovf (s.readInt ra) (s.operand rb) = true) (h : f (s.readInt ra) (s.operand rb) = v) :
    s.reportsOverflow (.next (s.intOpV f ovf ra rb rc)) rc v := by
  rw [State.intOpV, hovf, h]
  exact reportsOverflow_finishInt s rc v

/-! ## Numbers in words -/

theorem setWidth_ofInt {v w : Nat} (h : v ≤ w) (n : Int) : (BitVec.ofInt w n).setWidth v = BitVec.ofInt v n := by
  have hlow : n % 2 ^ w % 2 ^ v = n % 2 ^ v := Int.emod_emod_of_dvd n (pow_dvd_pow 2 h)
  have hnonneg (k : Nat) : 0 ≤ n % 2 ^ k := Int.emod_nonneg n (by positivity)
  apply BitVec.eq_of_toNat_eq
  rw [BitVec.toNat_setWidth, BitVec.toNat_ofInt, BitVec.toNat_ofInt, ← Int.ofNat_inj]
  push_cast
  rw [Int.toNat_of_nonneg (hnonneg w), Int.toNat_of_nonneg (hnonneg v), hlow]

/-- A number inside the range of a width survives truncation to it and sign extension. -/
theorem signExtend_setWidth_ofInt {w : Nat} {n : Int} (hpos : 0 < w) (hle : w ≤ 64) (hlow : -(2 ^ (w - 1)) ≤ n)
    (hhigh : n < 2 ^ (w - 1)) : ((BitVec.ofInt 64 n).setWidth w).signExtend 64 = BitVec.ofInt 64 n := by
  rw [setWidth_ofInt hle, BitVec.signExtend, BitVec.toInt_ofInt_eq_self hpos hlow hhigh]

/-- `r` is what an instruction of `s` answers whose exact result is `n`, for the range of `w` bits. -/
def State.deliversExact (s : State) (r : Res State) (rc : RegNum) (n : Int) (w : Nat) : Prop :=
  (-(2 ^ (w - 1)) ≤ n → n < 2 ^ (w - 1) → ∃ t, r = .next t ∧ s.onlyInt t rc (BitVec.ofInt 64 n)) ∧
  ((n < -(2 ^ (w - 1)) ∨ 2 ^ (w - 1) ≤ n) →
    s.reportsOverflow r rc (((BitVec.ofInt 64 n).setWidth w).signExtend 64))

theorem deliversExact_intOpV (s : State) {f : Word → Word → Word} {ovf : Word → Word → Bool} {ra : RegNum} {rb : RegOrLit}
    {n : Int} {w : Nat} (rc : RegNum) (hpos : 0 < w) (hle : w ≤ 64)
    (hvalue : f (s.readInt ra) (s.operand rb) = ((BitVec.ofInt 64 n).setWidth w).signExtend 64)
    (hovf : ovf (s.readInt ra) (s.operand rb) = true ↔ n < -(2 ^ (w - 1)) ∨ 2 ^ (w - 1) ≤ n) :
    s.deliversExact (.next (s.intOpV f ovf ra rb rc)) rc n w := by
  refine ⟨fun hlow hhigh => ⟨_, rfl, ?inside⟩, fun hout => reportsOverflow_intOpV s rc (hovf.2 hout) hvalue⟩
  case inside =>
    have hfits : ¬ (n < -(2 ^ (w - 1)) ∨ 2 ^ (w - 1) ≤ n) := not_or.2 ⟨not_lt.2 hlow, not_le.2 hhigh⟩
    exact onlyInt_intOpV s rc (Bool.eq_false_iff.2 (mt hovf.1 hfits))
      (hvalue.trans (signExtend_setWidth_ofInt hpos hle hlow hhigh))

/-- One row of the /V forms: its codes, its exact result, and the range of its width. -/
theorem intOpV_row {f : Word → Word → Word} {ovf : Word → Word → Bool} {result : Word → Word → Int} {w : Nat}
    (hop : opClass op = .opr table) (hfn : lookup fn table = some mk)
    (hexec : ∀ ra rb rc (s : State), exec (mk ra rb rc) s = .next (s.intOpV f ovf ra rb rc))
    (hpos : 0 < w) (hle : w ≤ 64)
    (hvalue : ∀ a b, f a b = ((BitVec.ofInt 64 (result a b)).setWidth w).signExtend 64)
    (hovf : ∀ a b, ovf a b = true ↔ result a b < -(2 ^ (w - 1)) ∨ 2 ^ (w - 1) ≤ result a b) :
    ∀ ra rb rc (s : State), (OprRow.mk op fn mk (result, w)).encoded ra rb rc ∧
      s.deliversExact (exec (mk ra rb rc) s) rc (result (s.readInt ra) (s.operand rb)) w := by
  intro ra rb rc s
  rw [hexec]
  exact ⟨OprRow.encoded_of_lookup hop hfn _ ra rb rc, deliversExact_intOpV s rc hpos hle (hvalue ..) (hovf ..)⟩

end

/-! ## Sums and differences (R571 to R586) -/

theorem addLong_zero (a b : Word) : addLong 0 a b = sextLong (a + b) := by rw [addLong, BitVec.shiftLeft_zero]
theorem addQuad_zero (a b : Word) : addQuad 0 a b = a + b := by rw [addQuad, BitVec.shiftLeft_zero]
theorem subLong_zero (a b : Word) : subLong 0 a b = sextLong (a - b) := by rw [subLong, BitVec.shiftLeft_zero]
theorem subQuad_zero (a b : Word) : subQuad 0 a b = a - b := by rw [subQuad, BitVec.shiftLeft_zero]

/-- Settles O1: each row by its codes; an unscaled operand is one shifted by 0. -/
theorem addSubtract : Obligations.AddSubtract := by
  simp only [Obligations.AddSubtract, List.forall_mem_cons]
  exact ⟨intOp_row rfl rfl (fun _ _ _ _ => rfl) addLong_zero, intOp_row rfl rfl (fun _ _ _ _ => rfl) addQuad_zero,
    intOp_row rfl rfl (fun _ _ _ _ => rfl) fun _ _ => rfl, intOp_row rfl rfl (fun _ _ _ _ => rfl) fun _ _ => rfl,
    intOp_row rfl rfl (fun _ _ _ _ => rfl) fun _ _ => rfl, intOp_row rfl rfl (fun _ _ _ _ => rfl) fun _ _ => rfl,
    intOp_row rfl rfl (fun _ _ _ _ => rfl) subLong_zero, intOp_row rfl rfl (fun _ _ _ _ => rfl) subQuad_zero,
    intOp_row rfl rfl (fun _ _ _ _ => rfl) fun _ _ => rfl, intOp_row rfl rfl (fun _ _ _ _ => rfl) fun _ _ => rfl,
    intOp_row rfl rfl (fun _ _ _ _ => rfl) fun _ _ => rfl, intOp_row rfl rfl (fun _ _ _ _ => rfl) fun _ _ => rfl,
    List.forall_mem_nil _⟩

/-! ## Compares and products (R587 to R596) -/

theorem ofBool64_eq_ite {test : Bool} {c : Prop} [Decidable c] (h : test = true ↔ c) :
    ofBool64 test = if c then 1#64 else 0#64 := if_congr h rfl rfl

theorem beq_iff_toInt_eq (a b : Word) : (a == b) = true ↔ a.toInt = b.toInt :=
  beq_iff_eq.trans BitVec.toInt_inj.symm

theorem mulLong_eq (a b : Word) : mulLong a b = (a.setWidth 32 * b.setWidth 32).signExtend 64 := by
  rw [mulLong, sextLong, BitVec.setWidth_mul _ _ (by decide)]

theorem mul_eq_ofInt (a b : Word) : a * b = BitVec.ofInt 64 (a.toInt * b.toInt) := by
  rw [BitVec.ofInt_mul, BitVec.ofInt_toInt, BitVec.ofInt_toInt]

/-- In 128 bits the product of two quadwords is exact. -/
theorem mulHigh_eq (a b : Word) : mulHigh a b = BitVec.ofNat 64 (a.toNat * b.toNat / 2 ^ 64) := by
  have hexact : (a.setWidth 128 * b.setWidth 128).toNat = a.toNat * b.toNat := by
    have hlt : a.toNat * b.toNat < 2 ^ 64 * 2 ^ 64 := Nat.mul_lt_mul'' a.isLt b.isLt
    rw [BitVec.toNat_mul, BitVec.toNat_setWidth_of_le (by decide), BitVec.toNat_setWidth_of_le (by decide)]
    exact Nat.mod_eq_of_lt hlt
  apply BitVec.eq_of_toNat_eq
  rw [mulHigh, BitVec.toNat_setWidth, BitVec.toNat_ushiftRight, hexact, Nat.shiftRight_eq_div_pow, BitVec.toNat_ofNat]

/-- Settles O2: each row by its codes, the compares by what their test decides. -/
theorem compareMultiply : Obligations.CompareMultiply := by
  simp only [Obligations.CompareMultiply, List.forall_mem_cons]
  exact ⟨intOp_row rfl rfl (fun _ _ _ _ => rfl) fun a b => ofBool64_eq_ite (beq_iff_toInt_eq a b),
    intOp_row rfl rfl (fun _ _ _ _ => rfl) fun _ _ => ofBool64_eq_ite BitVec.slt_iff_toInt_lt,
    intOp_row rfl rfl (fun _ _ _ _ => rfl) fun _ _ => ofBool64_eq_ite BitVec.sle_iff_toInt_le,
    intOp_row rfl rfl (fun _ _ _ _ => rfl) fun _ _ => ofBool64_eq_ite BitVec.ult_iff_toNat_lt,
    intOp_row rfl rfl (fun _ _ _ _ => rfl) fun _ _ => ofBool64_eq_ite BitVec.ule_iff_toNat_le,
    intOp_row rfl rfl (fun _ _ _ _ => rfl) mulLong_eq, intOp_row rfl rfl (fun _ _ _ _ => rfl) mul_eq_ofInt,
    intOp_row rfl rfl (fun _ _ _ _ => rfl) mulHigh_eq, List.forall_mem_nil _⟩

/-! ## The /V forms: the exact result (R572, R574, R580, R582, R593, R595) -/

theorem ofInt_sub (w : Nat) (m n : Int) : BitVec.ofInt w (m - n) = BitVec.ofInt w m - BitVec.ofInt w n := by
  rw [Int.sub_eq_add_neg, BitVec.ofInt_add, BitVec.ofInt_neg, BitVec.sub_eq_add_neg]

theorem ofInt_longInt (a : Word) : BitVec.ofInt 32 (longInt a) = a.setWidth 32 := BitVec.ofInt_toInt

/-- A longword result is that of a number with the same low longword. -/
theorem sextLong_eq_of_setWidth {v : Word} {n : Int} (h : v.setWidth 32 = BitVec.ofInt 32 n) :
    sextLong v = ((BitVec.ofInt 64 n).setWidth 32).signExtend 64 := by
  rw [sextLong, h, setWidth_ofInt (by decide)]

theorem addLong_exact (a b : Word) :
    addLong 0 a b = ((BitVec.ofInt 64 (longInt a + longInt b)).setWidth 32).signExtend 64 := by
  rw [addLong_zero]
  apply sextLong_eq_of_setWidth
  rw [BitVec.setWidth_add _ _ (by decide), BitVec.ofInt_add, ofInt_longInt, ofInt_longInt]

theorem subLong_exact (a b : Word) :
    subLong 0 a b = ((BitVec.ofInt 64 (longInt a - longInt b)).setWidth 32).signExtend 64 := by
  rw [subLong_zero]
  apply sextLong_eq_of_setWidth
  rw [BitVec.sub_eq_add_neg, BitVec.setWidth_add _ _ (by decide), BitVec.setWidth_neg_of_le (by decide),
    ← BitVec.sub_eq_add_neg, ofInt_sub, ofInt_longInt, ofInt_longInt]

theorem mulLong_exact (a b : Word) :
    mulLong a b = ((BitVec.ofInt 64 (longInt a * longInt b)).setWidth 32).signExtend 64 := by
  apply sextLong_eq_of_setWidth
  rw [BitVec.setWidth_mul _ _ (by decide), BitVec.ofInt_mul, ofInt_longInt, ofInt_longInt]

/-- A quadword is neither truncated nor extended. -/
theorem quad_signExtend_setWidth (v : Word) : (v.setWidth 64).signExtend 64 = v := by
  rw [BitVec.setWidth_eq, BitVec.signExtend_eq]

theorem addQuad_exact (a b : Word) :
    addQuad 0 a b = ((BitVec.ofInt 64 (a.toInt + b.toInt)).setWidth 64).signExtend 64 := by
  rw [addQuad_zero, quad_signExtend_setWidth, BitVec.ofInt_add, BitVec.ofInt_toInt, BitVec.ofInt_toInt]

theorem subQuad_exact (a b : Word) :
    subQuad 0 a b = ((BitVec.ofInt 64 (a.toInt - b.toInt)).setWidth 64).signExtend 64 := by
  rw [subQuad_zero, quad_signExtend_setWidth, ofInt_sub, BitVec.ofInt_toInt, BitVec.ofInt_toInt]

theorem mulQuad_exact (a b : Word) :
    a * b = ((BitVec.ofInt 64 (a.toInt * b.toInt)).setWidth 64).signExtend 64 := by
  rw [quad_signExtend_setWidth, mul_eq_ofInt]

/-! ## The /V forms: the range -/

theorem outsideLong_iff (n : Int) : outsideLong n = true ↔ n < -(2 ^ (32 - 1)) ∨ 2 ^ (32 - 1) ≤ n := by
  rw [outsideLong, Bool.or_eq_true, decide_eq_true_iff, decide_eq_true_iff]

theorem outsideQuad_iff (n : Int) : outsideQuad n = true ↔ n < -(2 ^ (64 - 1)) ∨ 2 ^ (64 - 1) ≤ n := by
  rw [outsideQuad, Bool.or_eq_true, decide_eq_true_iff, decide_eq_true_iff]

/-- R574's signs say that the exact sum is out of range. -/
theorem addQuadOvf_eq_outsideQuad (a b : Word) : addQuadOvf a b = outsideQuad (a.toInt + b.toInt) := by
  have hsigns : addQuadOvf a b = a.saddOverflow b := (BitVec.saddOverflow_eq a b).symm
  rw [hsigns, BitVec.saddOverflow, Bool.or_comm]
  rfl

/-- R582's signs say that the exact difference is out of range. -/
theorem subQuadOvf_eq_outsideQuad (a b : Word) : subQuadOvf a b = outsideQuad (a.toInt - b.toInt) := by
  have hsigns : subQuadOvf a b = a.ssubOverflow b := by
    rw [BitVec.ssubOverflow_eq, subQuadOvf]
    cases a.msb <;> cases b.msb <;> cases (a - b).msb <;> rfl
  rw [hsigns, BitVec.ssubOverflow, Bool.or_comm]
  rfl

/-- Settles O3: each row by its codes, its exact result, and the side of the range that its condition decides. -/
theorem overflowForms : Obligations.OverflowForms := by
  simp only [Obligations.OverflowForms, List.forall_mem_cons]
  exact ⟨intOpV_row rfl rfl (fun _ _ _ _ => rfl) (by decide) (by decide) addLong_exact fun _ _ => outsideLong_iff _,
    intOpV_row rfl rfl (fun _ _ _ _ => rfl) (by decide) (by decide) addQuad_exact fun a b =>
      addQuadOvf_eq_outsideQuad a b ▸ outsideQuad_iff _,
    intOpV_row rfl rfl (fun _ _ _ _ => rfl) (by decide) (by decide) subLong_exact fun _ _ => outsideLong_iff _,
    intOpV_row rfl rfl (fun _ _ _ _ => rfl) (by decide) (by decide) subQuad_exact fun a b =>
      subQuadOvf_eq_outsideQuad a b ▸ outsideQuad_iff _,
    intOpV_row rfl rfl (fun _ _ _ _ => rfl) (by decide) (by decide) mulLong_exact fun _ _ => outsideLong_iff _,
    intOpV_row rfl rfl (fun _ _ _ _ => rfl) (by decide) (by decide) mulQuad_exact fun _ _ => outsideQuad_iff _,
    List.forall_mem_nil _⟩

end Sys2Proof.Machine
end

section
/-! The logical instructions, the shifts and the conditional moves of chapter 43: the shifts as arithmetic (R615 to R617), and what
a move leaves on either side of its condition. -/

namespace Sys2Proof.Machine

/-! ## Logical functions and shifts (R601 to R606, R615 to R617) -/

theorem shiftCount_eq_mod (b : Word) : shiftCount b = b.toNat % 64 := BitVec.toNat_setWidth 6 b

theorem ushiftRight_eq_ofNat {w : Nat} (x : BitVec w) (n : Nat) : x >>> n = BitVec.ofNat w (x.toNat / 2 ^ n) := by
  rw [← Nat.shiftRight_eq_div_pow, ← BitVec.toNat_ushiftRight, BitVec.ofNat_toNat, BitVec.setWidth_eq]

theorem sshiftRight_eq_ofInt {w : Nat} (x : BitVec w) (n : Nat) : x.sshiftRight n = BitVec.ofInt w (x.toInt / 2 ^ n) := by
  rw [BitVec.sshiftRight, Int.shiftRight_eq_div_pow]
  norm_cast

/-- Settles O4: each row by its codes; a shift by `n` is a product or a quotient by 2 to the power `n`, and EQV complements an
operand where its rule complements the result. -/
theorem logicalShift : Obligations.LogicalShift := by
  simp only [Obligations.LogicalShift, List.forall_mem_cons]
  exact ⟨intOp_row rfl rfl (fun _ _ _ _ => rfl) fun _ _ => rfl, intOp_row rfl rfl (fun _ _ _ _ => rfl) fun _ _ => rfl,
    intOp_row rfl rfl (fun _ _ _ _ => rfl) fun _ _ => rfl, intOp_row rfl rfl (fun _ _ _ _ => rfl) fun _ _ => rfl,
    intOp_row rfl rfl (fun _ _ _ _ => rfl) fun _ _ => rfl,
    intOp_row rfl rfl (fun _ _ _ _ => rfl) fun _ _ => BitVec.not_xor_right.symm,
    intOp_row rfl rfl (fun _ _ _ _ => rfl) fun a b => shiftCount_eq_mod b ▸ bitVec_shiftLeft_eq_ofNat a _,
    intOp_row rfl rfl (fun _ _ _ _ => rfl) fun a b => shiftCount_eq_mod b ▸ ushiftRight_eq_ofNat a _,
    intOp_row rfl rfl (fun _ _ _ _ => rfl) fun a b => shiftCount_eq_mod b ▸ sshiftRight_eq_ofInt a _,
    List.forall_mem_nil _⟩

/-! ## Conditional moves (R607 to R614) -/

theorem State.cmov_of_true (s : State) {test : Word → Bool} {ra : RegNum} (h : test (s.readInt ra) = true) (rb : RegOrLit)
    (rc : RegNum) : s.cmov test ra rb rc = (s.writeInt rc (s.operand rb)).advance := if_pos h

theorem State.cmov_of_not (s : State) {test : Word → Bool} {ra : RegNum} (h : ¬ test (s.readInt ra) = true) (rb : RegOrLit)
    (rc : RegNum) : s.cmov test ra rb rc = { s with pc := s.pc + 4#64 } := if_neg h

/-- One row of the conditional moves: its codes, and its test for its condition. -/
theorem cmov_row {op : BitVec 6} {fn : BitVec 7} {mk : MkOpr} {table : List (BitVec 7 × MkOpr)} {test : Word → Bool}
    {c : Word → Prop} (hop : opClass op = .opr table) (hfn : lookup fn table = some mk) (hc : ∀ a, test a = true ↔ c a)
    (hexec : ∀ ra rb rc (s : State), exec (mk ra rb rc) s = .next (s.cmov test ra rb rc)) :
    ∀ ra rb rc (s : State), (OprRow.mk op fn mk c).encoded ra rb rc ∧
      (c (s.readInt ra) → ∃ t, exec (mk ra rb rc) s = .next t ∧ s.onlyInt t rc (s.operand rb)) ∧
      (¬ c (s.readInt ra) → exec (mk ra rb rc) s = .next { s with pc := s.pc + 4#64 }) := by
  intro ra rb rc s
  rw [hexec]
  refine ⟨OprRow.encoded_of_lookup hop hfn c ra rb rc, fun hmove => ⟨_, rfl, ?moves⟩, fun hnot => ?keeps⟩
  case moves => rw [s.cmov_of_true ((hc _).2 hmove)]; exact onlyInt_writeInt s rc _
  case keeps => rw [s.cmov_of_not (mt (hc _).1 hnot)]

/-- Settles O5: each row by its codes and its condition, which is that of the branch of the same name. -/
theorem conditionalMoves : Obligations.ConditionalMoves := by
  simp only [Obligations.ConditionalMoves, List.forall_mem_cons]
  exact ⟨cmov_row rfl rfl eqZero_iff fun _ _ _ _ => rfl, cmov_row rfl rfl neZero_iff fun _ _ _ _ => rfl,
    cmov_row rfl rfl msb_iff_neg fun _ _ _ _ => rfl, cmov_row rfl rfl not_msb_iff_nonneg fun _ _ _ _ => rfl,
    cmov_row rfl rfl msb_or_eqZero_iff_nonpos fun _ _ _ _ => rfl,
    cmov_row rfl rfl not_msb_and_neZero_iff_pos fun _ _ _ _ => rfl, cmov_row rfl rfl lowBit_iff_odd fun _ _ _ _ => rfl,
    cmov_row rfl rfl not_lowBit_iff_even fun _ _ _ _ => rfl, List.forall_mem_nil _⟩

end Sys2Proof.Machine
end

section
/-! The byte instructions of chapter 44 (R630 to R655): the bits of the masks and the bytes of a shifted quadword, and from them the
bytes that each form leaves. -/

namespace Sys2Proof.Machine

/-! ## Words made bit by bit -/

/-- A bit of the OR of the words `v i` that a test selects. -/
theorem getLsbD_foldl_or {w : Nat} (test : Nat → Bool) (v : Nat → BitVec w) (k : Nat) (l : List Nat) :
    ∀ acc : BitVec w, (l.foldl (fun r i => if test i then r ||| v i else r) acc).getLsbD k =
      (acc.getLsbD k || l.any fun i => test i && (v i).getLsbD k) := by
  induction l with
  | nil => intro acc; exact (Bool.or_false _).symm
  | cons i l ih =>
    intro acc
    rw [List.foldl_cons, ih, List.any_cons, ← Bool.or_assoc]
    cases test i with
    | true => simp
    | false => simp

/-- One of the numbers below `n` is `k` and passes the test. -/
theorem any_range_eq (test : Nat → Bool) (n k : Nat) :
    ((List.range n).any fun i => test i && decide (i = k)) = (decide (k < n) && test k) := by
  rw [Bool.eq_iff_iff]
  simp [and_comm]

theorem byteMask_bit (m : BitVec 8) {k : Nat} (hk : k < 64) : (byteMask m).getLsbD k = m.getLsbD (k / 8) := by
  have hbyte (i : Nat) : (0xFF#64 <<< (8 * i)).getLsbD k = decide (i = k / 8) := by
    have hones (j : Nat) : (0xFF#64).getLsbD j = decide (j < 8) := by
      rw [show 0xFF#64 = (BitVec.allOnes 8).setWidth 64 from rfl, BitVec.getLsbD_setWidth, BitVec.getLsbD_allOnes,
        Bool.and_eq_right_iff_imp]
      simp only [decide_eq_true_iff]
      omega
    rw [BitVec.getLsbD_shiftLeft, hones, Bool.eq_iff_iff]
    simp only [Bool.and_eq_true, Bool.not_eq_true', decide_eq_true_iff, decide_eq_false_iff_not]
    omega
  simp only [byteMask, getLsbD_foldl_or, hbyte, any_range_eq, BitVec.getLsbD_zero, Bool.false_or]
  rw [decide_eq_true (by omega : k / 8 < 8), Bool.true_and]

theorem cmpBytes_bit (a b : Word) (k : Nat) :
    (cmpBytes a b).getLsbD k = (decide (k < 8) && (byteOf b k).ule (byteOf a k)) := by
  have hbit (i : Nat) (hi : i < 8) : (1#64 <<< i).getLsbD k = decide (i = k) := by
    rw [BitVec.getLsbD_shiftLeft, BitVec.getLsbD_one, Bool.eq_iff_iff]
    simp only [Bool.and_eq_true, Bool.not_eq_true', decide_eq_true_iff, decide_eq_false_iff_not]
    omega
  have hany := any_range_eq (fun i => (byteOf b i).ule (byteOf a i)) 8 k
  rw [← hany, cmpBytes, getLsbD_foldl_or, BitVec.getLsbD_zero, Bool.false_or, Bool.eq_iff_iff, List.any_eq_true,
    List.any_eq_true]
  refine exists_congr fun i => and_congr_right fun hi => ?_
  rw [hbit i (List.mem_range.1 hi)]

/-! ## Bytes of a quadword -/

/-- Past the quadword there is nothing. -/
theorem byteOf_of_le (a : Word) {i : Nat} (hi : 8 ≤ i) : byteOf a i = 0#8 := by
  apply BitVec.eq_of_getLsbD_eq
  intro j hj
  rw [byteOf_bit a i j hj, BitVec.getLsbD_zero]
  exact BitVec.getLsbD_of_ge a _ (by omega)

theorem byteOf_ushiftRight (a : Word) (o i : Nat) : byteOf (a >>> (8 * o)) i = byteOf a (i + o) := by
  apply BitVec.eq_of_getLsbD_eq
  intro j hj
  rw [byteOf_bit _ i j hj, byteOf_bit a (i + o) j hj, BitVec.getLsbD_ushiftRight]
  congr 1
  omega

theorem byteOf_shiftLeft (a : Word) (o : Nat) {i : Nat} (hi : i < 8) :
    byteOf (a <<< (8 * o)) i = if o ≤ i then byteOf a (i - o) else 0#8 := by
  apply BitVec.eq_of_getLsbD_eq
  intro j hj
  have hin : 8 * i + j < 64 := by omega
  rw [byteOf_bit _ i j hj, BitVec.getLsbD_shiftLeft, decide_eq_true hin, Bool.true_and]
  by_cases ho : o ≤ i
  · have hkept : ¬ 8 * i + j < 8 * o := by omega
    rw [if_pos ho, byteOf_bit a (i - o) j hj, decide_eq_false hkept, Bool.not_false, Bool.true_and]
    congr 1
    omega
  · have hshifted : 8 * i + j < 8 * o := by omega
    rw [if_neg ho, decide_eq_true hshifted, Bool.not_true, Bool.false_and, BitVec.getLsbD_zero]

/-- BYTE_ZAP, byte by byte, where `c` says which bytes the mask names (R630). -/
theorem byteOf_byteZap (v : Word) {m : BitVec 8} {i : Nat} {c : Prop} [Decidable c] (hc : m.getLsbD i = true ↔ c) (hi : i < 8) :
    byteOf (byteZap v m) i = if c then 0#8 else byteOf v i := by
  refine Eq.trans ?_ (if_congr hc rfl rfl)
  apply BitVec.eq_of_getLsbD_eq
  intro j hj
  have hin : 8 * i + j < 64 := by omega
  have hbyte : (8 * i + j) / 8 = i := by omega
  rw [byteOf_bit _ i j hj, byteZap, BitVec.getLsbD_and, BitVec.getLsbD_not, byteMask_bit m hin, hbyte, decide_eq_true hin,
    Bool.true_and]
  cases m.getLsbD i with
  | true => simp
  | false => simp [byteOf_bit v i j hj]

/-- BYTE_ZAP of a complement keeps the bytes that the mask names. -/
theorem byteOf_byteZap_not (v : Word) {m : BitVec 8} {i : Nat} {c : Prop} [Decidable c] (hc : m.getLsbD i = true ↔ c)
    (hi : i < 8) : byteOf (byteZap v (~~~m)) i = if c then byteOf v i else 0#8 := by
  have hnot : (~~~m).getLsbD i = true ↔ ¬ c := by
    rw [BitVec.getLsbD_not, decide_eq_true hi, Bool.true_and, Bool.not_eq_true', ← Bool.not_eq_true, hc]
  rw [byteOf_byteZap v hnot hi, ite_not]

/-! ## Compare and zap (R631, R653, R654) -/

/-- One row of the operates that cannot trap, whose rule says what holds of the value. -/
theorem intOp_row_of {op : BitVec 6} {fn : BitVec 7} {mk : MkOpr} {table : List (BitVec 7 × MkOpr)} {f : Word → Word → Word}
    {what : Word → Word → Word → Prop} (hop : opClass op = .opr table) (hfn : lookup fn table = some mk)
    (hexec : ∀ ra rb rc (s : State), exec (mk ra rb rc) s = .next (s.intOp f ra rb rc))
    (hvalue : ∀ a b, what a b (f a b)) :
    ∀ ra rb rc (s : State), (OprRow.mk op fn mk what).encoded ra rb rc ∧
      ∃ t r, exec (mk ra rb rc) s = .next t ∧ what (s.readInt ra) (s.operand rb) r ∧ s.onlyInt t rc r :=
  fun ra rb rc s => ⟨OprRow.encoded_of_lookup hop hfn what ra rb rc, _, _, hexec .., hvalue .., onlyInt_intOp s rc rfl⟩

/-- The bits of CMPBGE's result are the compares of the bytes. -/
theorem cmpBytes_spec (a b : Word) :
    (∀ i < 8, (cmpBytes a b).getLsbD i = decide ((byteOf b i).toNat ≤ (byteOf a i).toNat)) ∧ (cmpBytes a b).toNat < 256 := by
  constructor
  · intro i hi
    rw [cmpBytes_bit, decide_eq_true hi, Bool.true_and, BitVec.ule_eq_decide]
  · apply Nat.lt_pow_two_of_testBit (n := 8)
    intro k hk
    rw [BitVec.testBit_toNat, cmpBytes_bit, decide_eq_false (not_lt.2 hk), Bool.false_and]

/-- The zap instructions use the low byte of Rbv. -/
theorem lowByte_bit (b : Word) {i : Nat} (hi : i < 8) : (b.setWidth 8).getLsbD i = true ↔ b.getLsbD i = true := by
  rw [BitVec.getLsbD_setWidth, decide_eq_true hi, Bool.true_and]

/-- Settles O6: each row by its codes and the bits or bytes of its result. -/
theorem byteCompareZap : Obligations.ByteCompareZap := by
  simp only [Obligations.ByteCompareZap, List.forall_mem_cons]
  exact ⟨intOp_row_of rfl rfl (fun _ _ _ _ => rfl) cmpBytes_spec,
    intOp_row_of rfl rfl (fun _ _ _ _ => rfl) fun a b i hi => byteOf_byteZap a (lowByte_bit b hi) hi,
    intOp_row_of rfl rfl (fun _ _ _ _ => rfl) fun a b i hi => byteOf_byteZap_not a (lowByte_bit b hi) hi,
    List.forall_mem_nil _⟩

/-! ## The datum of a byte instruction (R630) -/

/-- The size of the datum in bytes. -/
def ByteSize.bytes : ByteSize → Nat
  | .b => 1
  | .w => 2
  | .l => 4
  | .q => 8

theorem ByteSize.bytes_le (x : ByteSize) : x.bytes ≤ 8 := by cases x <;> decide

/-- The size mask has a bit for each byte of the datum. -/
theorem ByteSize.mask_bit (x : ByteSize) (i : Nat) : x.mask.getLsbD i = true ↔ i < x.bytes := by
  have hones : x.mask = BitVec.ofNat 8 (2 ^ x.bytes - 1) := by cases x <;> rfl
  have hle := x.bytes_le
  rw [hones, BitVec.getLsbD_ofNat, Nat.testBit_two_pow_sub_one, Bool.and_eq_true, decide_eq_true_iff, decide_eq_true_iff]
  omega

/-- The shifted size mask has a bit for each byte of the datum at offset `o`. -/
theorem ByteSize.span_bit (x : ByteSize) (o : Nat) {k : Nat} (hk : k < 16) :
    (x.span o).getLsbD k = true ↔ o ≤ k ∧ k < o + x.bytes := by
  rw [ByteSize.span, BitVec.getLsbD_shiftLeft, BitVec.getLsbD_setWidth]
  simp only [Bool.and_eq_true, Bool.not_eq_true', decide_eq_true_iff, decide_eq_false_iff_not, x.mask_bit]
  omega

theorem ByteSize.low_bit (x : ByteSize) (o : Nat) {i : Nat} (hi : i < 8) :
    (x.low o).getLsbD i = true ↔ o ≤ i ∧ i < o + x.bytes := by
  rw [ByteSize.low, BitVec.getLsbD_setWidth, decide_eq_true hi, Bool.true_and, x.span_bit o (by omega)]

theorem ByteSize.high_bit (x : ByteSize) {o i : Nat} (ho : o < 8) (hi : i < 8) :
    (x.high o).getLsbD i = true ↔ i + 8 < o + x.bytes := by
  rw [ByteSize.high, BitVec.getLsbD_extractLsb', decide_eq_true hi, Bool.true_and, x.span_bit o (by omega)]
  omega

theorem State.byteOffset_eq (s : State) (b : Word) :
    s.byteOffset b = if s.mbox.mcsr.getLsbD 4 then 7 - b.toNat % 8 else b.toNat % 8 := by
  rw [State.byteOffset, State.ebigEndian]
  cases s.mbox.mcsr.getLsbD 4 with
  | true => exact BitVec.toNat_not.trans (congrArg (7 - ·) (BitVec.toNat_setWidth 3 b))
  | false => exact BitVec.toNat_setWidth 3 b

theorem State.byteOffset_lt (s : State) (b : Word) : s.byteOffset b < 8 := BitVec.isLt _

/-! ## Extract, insert and mask, byte by byte (R632 to R652) -/

/-- `byte a o i` is byte `i` of what `f` makes of `a` at byte offset `o`. -/
def leavesBytes (f : Word → Nat → Word) (byte : Word → Nat → Nat → Byte) : Prop :=
  ∀ a o i, o < 8 → i < 8 → byteOf (f a o) i = byte a o i

/-- The left shift of EXTxH and the right shift of INSxH, in bytes: none at offset 0. -/
theorem highShift_eq {o : Nat} (ho : o < 8) : (64 - 8 * o) % 64 = 8 * ((8 - o) % 8) := by omega

theorem extLow_leavesBytes (x : ByteSize) : leavesBytes (extLow x) fun a o i =>
    if i < x.bytes ∧ i + o < 8 then byteOf a (i + o) else 0#8 := by
  intro a o i _ hi
  beta_reduce
  rw [extLow, byteOf_byteZap_not _ (x.mask_bit i) hi, byteOf_ushiftRight, ite_and]
  by_cases hin : i + o < 8
  · rw [if_pos hin]
  · rw [if_neg hin, byteOf_of_le a (not_lt.1 hin)]

theorem extHigh_leavesBytes (x : ByteSize) : leavesBytes (extHigh x) fun a o i =>
    if i < x.bytes ∧ (o = 0 ∨ 8 ≤ i + o) then byteOf a ((i + o) % 8) else 0#8 := by
  intro a o i ho hi
  have hreach : (8 - o) % 8 ≤ i ↔ o = 0 ∨ 8 ≤ i + o := by omega
  beta_reduce
  rw [extHigh, byteOf_byteZap_not _ (x.mask_bit i) hi, highShift_eq ho, byteOf_shiftLeft a _ hi, ite_and,
    if_congr hreach rfl rfl]
  by_cases hin : o = 0 ∨ 8 ≤ i + o
  · have hplace : i - (8 - o) % 8 = (i + o) % 8 := by omega
    rw [hplace]
  · rw [if_neg hin, if_neg hin]

theorem insLow_leavesBytes (x : ByteSize) : leavesBytes (insLow x) fun a o i =>
    if o ≤ i ∧ i < o + x.bytes then byteOf a (i - o) else 0#8 := by
  intro a o i _ hi
  rw [insLow, byteOf_byteZap_not _ (x.low_bit o hi) hi, byteOf_shiftLeft a o hi]
  exact ite_congr rfl (fun hin => if_pos hin.1) fun _ => rfl

theorem insHigh_leavesBytes (x : ByteSize) : leavesBytes (insHigh x) fun a o i =>
    if i + 8 < o + x.bytes then byteOf a (i + 8 - o) else 0#8 := by
  intro a o i ho hi
  rw [insHigh, byteOf_byteZap_not _ (x.high_bit ho hi) hi, highShift_eq ho, byteOf_ushiftRight]
  refine ite_congr rfl (fun hin => ?_) fun _ => rfl
  have hle := x.bytes_le
  have hplace : i + (8 - o) % 8 = i + 8 - o := by omega
  rw [hplace]

theorem mskLow_leavesBytes (x : ByteSize) : leavesBytes (mskLow x) fun a o i =>
    if o ≤ i ∧ i < o + x.bytes then 0#8 else byteOf a i :=
  fun a o _ _ hi => byteOf_byteZap a (x.low_bit o hi) hi

theorem mskHigh_leavesBytes (x : ByteSize) : leavesBytes (mskHigh x) fun a o i =>
    if i + 8 < o + x.bytes then 0#8 else byteOf a i :=
  fun a _ _ ho hi => byteOf_byteZap a (x.high_bit ho hi) hi

/-- One row of the byte instructions: its codes, and the bytes of its result at the offset of R630. -/
theorem byteOp_row {op : BitVec 6} {fn : BitVec 7} {mk : MkOpr} {table : List (BitVec 7 × MkOpr)} {f : Word → Nat → Word}
    {n : Nat} {byte : Word → Nat → Nat → Byte} (hop : opClass op = .opr table) (hfn : lookup fn table = some mk)
    (hexec : ∀ ra rb rc (s : State), exec (mk ra rb rc) s = .next (s.byteOp f ra rb rc)) (hbyte : leavesBytes f byte) :
    ∀ ra rb rc (s : State), (OprRow.mk op fn mk n).encoded ra rb rc ∧
      ∃ t r, exec (mk ra rb rc) s = .next t ∧ s.onlyInt t rc r ∧
        let o := if s.mbox.mcsr.getLsbD 4 then 7 - (s.operand rb).toNat % 8 else (s.operand rb).toNat % 8
        ∀ i < 8, byteOf r i = byte (s.readInt ra) o i := by
  intro ra rb rc s
  refine ⟨OprRow.encoded_of_lookup hop hfn n ra rb rc, _, _, hexec .., onlyInt_byteOp s rc rfl, fun i hi => ?bytes⟩
  case bytes =>
    rw [← s.byteOffset_eq]
    exact hbyte _ _ i (s.byteOffset_lt _) hi

/-- Settles O7: the six forms, each row by its codes and the bytes that its form leaves for its size. -/
theorem byteManipulation : Obligations.ByteManipulation := by
  simp only [Obligations.ByteManipulation, List.forall_mem_cons]
  exact ⟨⟨byteOp_row rfl rfl (fun _ _ _ _ => rfl) (extLow_leavesBytes .b),
      byteOp_row rfl rfl (fun _ _ _ _ => rfl) (extLow_leavesBytes .w),
      byteOp_row rfl rfl (fun _ _ _ _ => rfl) (extLow_leavesBytes .l),
      byteOp_row rfl rfl (fun _ _ _ _ => rfl) (extLow_leavesBytes .q), List.forall_mem_nil _⟩,
    ⟨byteOp_row rfl rfl (fun _ _ _ _ => rfl) (extHigh_leavesBytes .w),
      byteOp_row rfl rfl (fun _ _ _ _ => rfl) (extHigh_leavesBytes .l),
      byteOp_row rfl rfl (fun _ _ _ _ => rfl) (extHigh_leavesBytes .q), List.forall_mem_nil _⟩,
    ⟨byteOp_row rfl rfl (fun _ _ _ _ => rfl) (insLow_leavesBytes .b),
      byteOp_row rfl rfl (fun _ _ _ _ => rfl) (insLow_leavesBytes .w),
      byteOp_row rfl rfl (fun _ _ _ _ => rfl) (insLow_leavesBytes .l),
      byteOp_row rfl rfl (fun _ _ _ _ => rfl) (insLow_leavesBytes .q), List.forall_mem_nil _⟩,
    ⟨byteOp_row rfl rfl (fun _ _ _ _ => rfl) (insHigh_leavesBytes .w),
      byteOp_row rfl rfl (fun _ _ _ _ => rfl) (insHigh_leavesBytes .l),
      byteOp_row rfl rfl (fun _ _ _ _ => rfl) (insHigh_leavesBytes .q), List.forall_mem_nil _⟩,
    ⟨byteOp_row rfl rfl (fun _ _ _ _ => rfl) (mskLow_leavesBytes .b),
      byteOp_row rfl rfl (fun _ _ _ _ => rfl) (mskLow_leavesBytes .w),
      byteOp_row rfl rfl (fun _ _ _ _ => rfl) (mskLow_leavesBytes .l),
      byteOp_row rfl rfl (fun _ _ _ _ => rfl) (mskLow_leavesBytes .q), List.forall_mem_nil _⟩,
    ⟨byteOp_row rfl rfl (fun _ _ _ _ => rfl) (mskHigh_leavesBytes .w),
      byteOp_row rfl rfl (fun _ _ _ _ => rfl) (mskHigh_leavesBytes .l),
      byteOp_row rfl rfl (fun _ _ _ _ => rfl) (mskHigh_leavesBytes .q), List.forall_mem_nil _⟩, List.forall_mem_nil _⟩

end Sys2Proof.Machine
end

section
/-! Exact values as rational numbers, and rounding: what the one rounding of R817 and R818 gives, in every mode of R807. -/

namespace Sys2Proof.Machine

/-! ## The number of an exact value -/

/-- The number of a magnitude with a sign. -/
def withSign (neg : Bool) (y : ℚ) : ℚ := if neg then -y else y

/-- The magnitude that an exact value says. -/
def Exact.magnitude (x : Exact) : ℚ := x.num / x.den * 2 ^ x.exp

/-- The number that an exact value says. -/
def Exact.number (x : Exact) : ℚ := withSign x.neg x.magnitude

theorem abs_withSign (neg : Bool) {y : ℚ} (h : 0 ≤ y) : |withSign neg y| = y := by
  cases neg
  · exact abs_of_nonneg h
  · exact (abs_neg y).trans (abs_of_nonneg h)

theorem withSign_mul (neg : Bool) (y z : ℚ) : withSign neg y * z = withSign neg (y * z) := by
  cases neg
  · rfl
  · exact neg_mul y z

theorem withSign_inj {neg : Bool} {y z : ℚ} : withSign neg y = withSign neg z ↔ y = z := by
  cases neg
  · exact Iff.rfl
  · exact neg_inj

theorem withSign_eq_zero {neg : Bool} {y : ℚ} : withSign neg y = 0 ↔ y = 0 := by
  cases neg
  · exact Iff.rfl
  · exact neg_eq_zero

theorem Exact.magnitude_nonneg (x : Exact) : 0 ≤ x.magnitude := by unfold Exact.magnitude; positivity

theorem Exact.magnitude_pos {x : Exact} (hn : x.num ≠ 0) (hd : x.den ≠ 0) : 0 < x.magnitude := by
  unfold Exact.magnitude
  positivity

theorem Exact.abs_number (x : Exact) : |x.number| = x.magnitude := abs_withSign x.neg x.magnitude_nonneg

theorem Exact.number_eq_zero_iff {x : Exact} (hd : x.den ≠ 0) : x.number = 0 ↔ x.num = 0 := by
  rw [Exact.number, withSign_eq_zero]
  refine ⟨fun h => ?_, fun h => by simp [Exact.magnitude, h]⟩
  by_contra hn
  exact (Exact.magnitude_pos hn hd).ne' h

/-! ## Scaling -/

theorem Exact.scaled_den_pos {x : Exact} (hd : x.den ≠ 0) (k : Int) : 0 < (x.scaled k).2 := by
  unfold Exact.scaled
  split
  · exact Nat.pos_of_ne_zero hd
  · exact Nat.mul_pos (Nat.pos_of_ne_zero hd) (Nat.two_pow_pos _)

/-- Numerator over denominator is the magnitude in units of `2 ^ k`. -/
theorem Exact.scaled_ratio {x : Exact} (hd : x.den ≠ 0) (k : Int) :
    ((x.scaled k).1 : ℚ) / (x.scaled k).2 = x.magnitude / 2 ^ k := by
  have hpow (n : Nat) : ((2 ^ n : Nat) : ℚ) = (2 : ℚ) ^ (n : Int) := by rw [Nat.cast_pow, zpow_natCast, Nat.cast_ofNat]
  unfold Exact.scaled Exact.magnitude
  split
  case isTrue h =>
    have hsplit : (2 : ℚ) ^ x.exp = 2 ^ (((x.exp - k).toNat : Nat) : Int) * 2 ^ k := by
      rw [← zpow_add₀ two_ne_zero]
      congr 1
      omega
    rw [Nat.cast_mul, hpow, hsplit]
    field_simp
  case isFalse h =>
    have hsplit : (2 : ℚ) ^ k = 2 ^ (((k - x.exp).toNat : Nat) : Int) * 2 ^ x.exp := by
      rw [← zpow_add₀ two_ne_zero]
      congr 1
      omega
    rw [Nat.cast_mul, hpow, hsplit]
    field_simp

/-- A quotient is less than a factor of two away from the quotient of the leading powers of its terms. -/
theorem log2_quotient_bounds {n m : Nat} (hn : n ≠ 0) (hm : m ≠ 0) :
    (2 : ℚ) ^ ((n.log2 : Int) - m.log2 - 1) < n / m ∧ (n : ℚ) / m < 2 ^ ((n.log2 : Int) - m.log2 + 1) := by
  have hle {k : Nat} (hk : k ≠ 0) : (2 : ℚ) ^ (k.log2 : Int) ≤ k := by
    rw [zpow_natCast]
    exact_mod_cast Nat.log2_self_le hk
  have hlt (k : Nat) : (k : ℚ) < 2 ^ ((k.log2 : Int) + 1) := by
    have h : (k : ℚ) < ((2 ^ (k.log2 + 1) : Nat) : ℚ) := by exact_mod_cast Nat.lt_log2_self
    rwa [Nat.cast_pow, Nat.cast_ofNat, ← zpow_natCast, Nat.cast_succ] at h
  have hpos : (0 : ℚ) < m := by positivity
  rw [lt_div_iff₀ hpos, div_lt_iff₀ hpos]
  constructor
  · calc (2 : ℚ) ^ ((n.log2 : Int) - m.log2 - 1) * m < 2 ^ ((n.log2 : Int) - m.log2 - 1) * 2 ^ ((m.log2 : Int) + 1) := by
          gcongr
          exact hlt m
      _ = 2 ^ (n.log2 : Int) := by
          rw [← zpow_add₀ two_ne_zero]
          congr 1
          ring
      _ ≤ n := hle hn
  · calc (n : ℚ) < 2 ^ ((n.log2 : Int) + 1) := hlt n
      _ = 2 ^ ((n.log2 : Int) - m.log2 + 1) * 2 ^ (m.log2 : Int) := by
          rw [← zpow_add₀ two_ne_zero]
          congr 1
          ring
      _ ≤ 2 ^ ((n.log2 : Int) - m.log2 + 1) * m := by
          gcongr
          exact hle hm

/-- The leading exponent brackets the magnitude. -/
theorem Exact.leading_bounds {x : Exact} (hn : x.num ≠ 0) (hd : x.den ≠ 0) :
    (2 : ℚ) ^ x.leading ≤ x.magnitude ∧ x.magnitude < 2 ^ (x.leading + 1) := by
  obtain ⟨hlow, hhigh⟩ := log2_quotient_bounds hn hd
  set d : Int := (x.num.log2 : Int) - (x.den.log2 : Int)
  have hratio := Exact.scaled_ratio (x := ⟨false, x.num, x.den, 0⟩) hd d
  have hpos := Exact.scaled_den_pos (x := ⟨false, x.num, x.den, 0⟩) hd d
  set p := Exact.scaled ⟨false, x.num, x.den, 0⟩ d
  have hcmp : p.2 ≤ p.1 ↔ (2 : ℚ) ^ d ≤ x.num / x.den := by
    have hp : (0 : ℚ) < p.2 := by exact_mod_cast hpos
    rw [← Nat.cast_le (α := ℚ), ← one_le_div hp, hratio, one_le_div (by positivity), Exact.magnitude, zpow_zero, mul_one]
  have hlead : x.leading = (if p.2 ≤ p.1 then d else d - 1) + x.exp := rfl
  have hbracket : (2 : ℚ) ^ (if p.2 ≤ p.1 then d else d - 1) ≤ x.num / x.den ∧
      x.num / x.den < (2 : ℚ) ^ ((if p.2 ≤ p.1 then d else d - 1) + 1) := by
    split
    case isTrue h => exact ⟨hcmp.1 h, hhigh⟩
    case isFalse h =>
      rw [Int.sub_add_cancel]
      exact ⟨hlow.le, lt_of_not_ge (mt hcmp.2 h)⟩
  obtain ⟨hle, hlt⟩ := hbracket
  rw [hlead, add_right_comm, zpow_add₀ two_ne_zero, zpow_add₀ two_ne_zero _ x.exp, Exact.magnitude]
  exact ⟨by gcongr, by gcongr⟩

/-- It is the logarithm that `Rounding.number` takes. -/
theorem Exact.leading_eq_log {x : Exact} (hn : x.num ≠ 0) (hd : x.den ≠ 0) : x.leading = Int.log 2 |x.number| := by
  obtain ⟨hle, hlt⟩ := Exact.leading_bounds hn hd
  have hpos := Exact.magnitude_pos hn hd
  rw [Exact.abs_number]
  have hlow : x.leading ≤ Int.log 2 x.magnitude := (Int.zpow_le_iff_le_log Nat.one_lt_two hpos).1 (by exact_mod_cast hle)
  have hhigh : Int.log 2 x.magnitude < x.leading + 1 :=
    (Int.lt_zpow_iff_log_lt Nat.one_lt_two hpos).1 (by exact_mod_cast hlt)
  omega

/-! ## Rounding a quotient (R807) -/

/-- The natural number `m` is what a mode makes of the magnitude `y` of a number with the given sign. -/
def Rounding.Brackets (mode : Rounding) (neg : Bool) (y : ℚ) (m : Nat) : Prop :=
  let down : Prop := m ≤ y ∧ y < m + 1
  let up : Prop := m < y + 1 ∧ y ≤ m
  match mode with
  | .chopped => down
  | .minus => if neg then up else down
  | .plus => if neg then down else up
  | .nearest => 2 * m ≤ 2 * y + 1 ∧ 2 * y ≤ 2 * m + 1 ∧ (2 * (m : ℚ) = 2 * y + 1 ∨ 2 * y = 2 * m + 1 → m % 2 = 0)
  | .vax => 2 * m ≤ 2 * y + 1 ∧ 2 * y < 2 * m + 1

theorem roundQuotient_brackets (mode : Rounding) (neg : Bool) (num : Nat) {den : Nat} (hd : 0 < den) :
    mode.Brackets neg (num / den) (roundQuotient mode neg num den) := by
  have hden : (0 : ℚ) < den := by exact_mod_cast hd
  set q := num / den with hq
  set r := num % den with hr
  have hsplit : (num : ℚ) / den = q + r / den := by
    have hnum : (num : ℚ) = den * q + r := by exact_mod_cast (Nat.div_add_mod num den).symm
    rw [hnum]
    field_simp
  set f : ℚ := r / den with hf
  have hf0 : 0 ≤ f := by positivity
  have hf1 : f < 1 := (div_lt_one hden).2 (by exact_mod_cast Nat.mod_lt num hd)
  have hrf : (r != 0) = true ↔ 0 < f := by
    rw [bne_iff_ne, hf, div_pos_iff_of_pos_right hden, Nat.cast_pos, Nat.pos_iff_ne_zero]
  have hlt : den < 2 * r ↔ 1 < 2 * f := by
    rw [hf, ← mul_div_assoc, lt_div_iff₀ hden, one_mul]
    exact_mod_cast Iff.rfl
  have heq : 2 * r = den ↔ 2 * f = 1 := by
    rw [hf, ← mul_div_assoc, div_eq_iff hden.ne', one_mul]
    exact_mod_cast Iff.rfl
  have hle : den ≤ 2 * r ↔ 1 ≤ 2 * f := by
    rw [hf, ← mul_div_assoc, le_div_iff₀ hden, one_mul]
    exact_mod_cast Iff.rfl
  have hdown : (q : ℚ) ≤ q + f ∧ (q : ℚ) + f < q + 1 := ⟨by linarith, by linarith⟩
  have hup : (((if (r != 0) = true then q + 1 else q : Nat) : ℚ) < q + f + 1) ∧
      q + f ≤ ((if (r != 0) = true then q + 1 else q : Nat) : ℚ) := by
    split
    case isTrue h =>
      have hpos := hrf.1 h
      push_cast
      exact ⟨by linarith, by linarith⟩
    case isFalse h =>
      have hzero : f ≤ 0 := not_lt.1 (mt hrf.2 h)
      exact ⟨by linarith, by linarith⟩
  rw [hsplit]
  cases mode with
  | chopped => exact hdown
  | minus => cases neg <;> [exact hdown; exact hup]
  | plus => cases neg <;> [exact hup; exact hdown]
  | nearest =>
    show Rounding.Brackets .nearest neg (q + f)
      (if (decide (den < 2 * r) || (decide (2 * r = den) && q % 2 == 1)) = true then q + 1 else q)
    simp only [Bool.or_eq_true, Bool.and_eq_true, decide_eq_true_eq, beq_iff_eq, hlt, heq]
    split
    case isTrue h =>
      have hhalf : 1 ≤ 2 * f := by rcases h with h | ⟨h, -⟩ <;> linarith
      simp only [Rounding.Brackets]
      push_cast
      refine ⟨by linarith, by linarith, fun htie => ?_⟩
      have hodd : 2 * f = 1 := by rcases htie with htie | htie <;> linarith
      rcases h with h | ⟨-, h⟩
      · linarith
      · omega
    case isFalse h =>
      have hhalf : 2 * f ≤ 1 := not_lt.1 (not_or.1 h).1
      refine ⟨by linarith, by linarith, fun htie => ?_⟩
      have hodd : 2 * f = 1 := by rcases htie with htie | htie <;> linarith
      exact Nat.mod_two_ne_one.1 fun hone => h (.inr ⟨hodd, hone⟩)
  | vax =>
    show Rounding.Brackets .vax neg (q + f) (if decide (den ≤ 2 * r) = true then q + 1 else q)
    simp only [decide_eq_true_eq, hle]
    split
    case isTrue h =>
      simp only [Rounding.Brackets]
      push_cast
      exact ⟨by linarith, by linarith⟩
    case isFalse h =>
      have hhalf : 2 * f < 1 := not_le.1 h
      exact ⟨by linarith, by linarith⟩

/-- A whole quotient is not rounded. -/
theorem roundQuotient_of_mod_eq_zero {mode : Rounding} {neg : Bool} {num den : Nat} (hd : 0 < den) (h : num % den = 0) :
    roundQuotient mode neg num den = num / den := by
  unfold roundQuotient
  rw [h]
  have hd' : ¬ den ≤ 0 := not_le.2 hd
  have hd'' : ¬ 0 = den := hd.ne
  cases mode <;> simp [hd', hd'']

/-- To nearest: the integer at most half a unit away, the even one of two. -/
theorem Rounding.integer_nearest {y : ℚ} {n : Int} (hlow : 2 * (n : ℚ) ≤ 2 * y + 1) (hhigh : 2 * y ≤ 2 * n + 1)
    (htie : 2 * (n : ℚ) = 2 * y + 1 ∨ 2 * y = 2 * n + 1 → n % 2 = 0) : Rounding.nearest.integer y = n := by
  rw [Rounding.integer]
  rcases hhigh.lt_or_eq with hlt | heq
  · have hfloor : ⌊y + 1 / 2⌋ = n := Int.floor_eq_iff.2 ⟨by linarith, by linarith⟩
    rw [hfloor, if_neg]
    rintro ⟨hhalf, hodd⟩
    have heven := htie (.inl (by linarith))
    omega
  · have hfloor : ⌊y + 1 / 2⌋ = n + 1 := Int.floor_eq_iff.2 ⟨by push_cast; linarith, by push_cast; linarith⟩
    have heven := htie (.inr heq)
    rw [hfloor, if_pos ⟨by push_cast; linarith, by omega⟩]
    omega

/-- What brackets a magnitude is the rounded number, with the sign put back. -/
theorem Rounding.integer_withSign {mode : Rounding} {neg : Bool} {y : ℚ} {m : Nat} (hy : 0 ≤ y)
    (h : mode.Brackets neg y m) : mode.integer (withSign neg y) = if neg then -(m : Int) else m := by
  have hfloor (h : (m : ℚ) ≤ y ∧ y < m + 1) : ⌊y⌋ = (m : Int) :=
    Int.floor_eq_iff.2 ⟨by exact_mod_cast h.1, by exact_mod_cast h.2⟩
  have hceil (h : (m : ℚ) < y + 1 ∧ y ≤ m) : ⌈y⌉ = (m : Int) :=
    Int.ceil_eq_iff.2 ⟨by have := h.1; push_cast; linarith, by exact_mod_cast h.2⟩
  have hzero : 0 ≤ -y → y = 0 := fun h => by linarith
  cases mode with
  | chopped =>
    cases neg with
    | false => exact (if_pos hy).trans (hfloor h)
    | true =>
      show (if 0 ≤ -y then ⌊-y⌋ else ⌈-y⌉) = -(m : Int)
      split
      case isTrue hneg =>
        rw [← hfloor h, hzero hneg]
        rfl
      case isFalse => rw [Int.ceil_neg, hfloor h]
  | minus =>
    cases neg with
    | false => exact hfloor h
    | true => exact Int.floor_neg.trans (congrArg _ (hceil h))
  | plus =>
    cases neg with
    | false => exact hceil h
    | true => exact Int.ceil_neg.trans (congrArg _ (hfloor h))
  | nearest =>
    obtain ⟨hlow, hhigh, htie⟩ := h
    cases neg with
    | false => exact Rounding.integer_nearest hlow hhigh fun ht => by have := htie ht; omega
    | true =>
      refine Rounding.integer_nearest ?_ ?_ fun ht => ?_
      · simp only [withSign, if_true]; push_cast; linarith
      · simp only [withSign, if_true]; push_cast; linarith
      · simp only [withSign, if_true] at ht
        push_cast at ht
        have heven := htie (ht.symm.imp (fun h => by linarith) fun h => by linarith)
        rw [if_pos rfl]
        omega
  | vax =>
    obtain ⟨hlow, hhigh⟩ := h
    have hfloor : ⌊y + 1 / 2⌋ = (m : Int) := Int.floor_eq_iff.2 ⟨by push_cast; linarith, by push_cast; linarith⟩
    cases neg with
    | false => exact (if_pos hy).trans hfloor
    | true =>
      show (if 0 ≤ -y then ⌊-y + 1 / 2⌋ else ⌈-y - 1 / 2⌉) = -(m : Int)
      split
      case isTrue hneg =>
        rw [← hfloor, hzero hneg]
        norm_num
      case isFalse => rw [← neg_add', Int.ceil_neg, hfloor]

/-! ## The one rounding (R817 step 7, R818 step 5) -/

theorem two_zpow_sub_mul_pow (k : Int) (n : Nat) : (2 : ℚ) ^ (k - (n : Int)) * 2 ^ n = 2 ^ k := by
  rw [← zpow_natCast, ← zpow_add₀ two_ne_zero]
  congr 1
  omega

/-- The exponent of the last of `prec` places of a value, before it is rounded. -/
def Exact.lastPlace (x : Exact) (prec : Nat) : Int := x.leading - ((prec : Int) - 1)

/-- The magnitude in units of that place. -/
theorem Exact.unit_bounds {x : Exact} (hn : x.num ≠ 0) (hd : x.den ≠ 0) {prec : Nat} (hp : 1 ≤ prec) :
    (2 : ℚ) ^ (prec - 1) ≤ x.magnitude / 2 ^ x.lastPlace prec ∧ x.magnitude / 2 ^ x.lastPlace prec < 2 ^ prec := by
  obtain ⟨hle, hlt⟩ := Exact.leading_bounds hn hd
  obtain ⟨n, rfl⟩ := Nat.exists_eq_add_of_le' hp
  have hunit : x.lastPlace (n + 1) = x.leading - (n : Int) := by rw [Exact.lastPlace]; push_cast; ring
  have htop : (2 : ℚ) ^ (x.leading - (n : Int)) * 2 ^ (n + 1) = 2 ^ (x.leading + 1) := by
    rw [pow_succ, ← mul_assoc, two_zpow_sub_mul_pow, zpow_add_one₀ two_ne_zero]
  rw [hunit, Nat.add_sub_cancel, le_div_iff₀ (by positivity), div_lt_iff₀ (by positivity), mul_comm,
    two_zpow_sub_mul_pow, mul_comm, htop]
  exact ⟨hle, hlt⟩

/-- What brackets a magnitude below a power of two does not pass it. -/
theorem Rounding.Brackets.le_of_lt {mode : Rounding} {neg : Bool} {y : ℚ} {m k : Nat} (h : mode.Brackets neg y m) (hy : y < k) :
    m ≤ k := by
  have hstep (h : (m : ℚ) < y + 1) : m ≤ k := by
    have hlt : (m : ℚ) < k + 1 := by linarith
    exact Nat.lt_succ_iff.1 (by exact_mod_cast hlt)
  cases mode with
  | chopped => exact hstep (by linarith [h.1])
  | minus => cases neg <;> exact hstep (by linarith [h.1])
  | plus => cases neg <;> exact hstep (by linarith [h.1])
  | nearest => exact hstep (by linarith [h.1])
  | vax => exact hstep (by linarith [h.1])

/-- Nor does what brackets one above it fall below. -/
theorem Rounding.Brackets.ge_of_le {mode : Rounding} {neg : Bool} {y : ℚ} {m k : Nat} (h : mode.Brackets neg y m) (hy : k ≤ y) :
    k ≤ m := by
  have hstep (h : y < (m : ℚ) + 1) : k ≤ m := by
    have hlt : (k : ℚ) < m + 1 := by linarith
    exact Nat.lt_succ_iff.1 (by exact_mod_cast hlt)
  cases mode with
  | chopped => exact hstep h.2
  | minus => cases neg <;> exact hstep (by linarith [h.2])
  | plus => cases neg <;> exact hstep (by linarith [h.2])
  | nearest => exact hstep (by linarith [h.2.1])
  | vax => exact hstep (by linarith [h.2])

/-- Rounded up to the next power of two, a magnitude is bracketed in the units of the next exponent as well. -/
theorem Rounding.Brackets.half {mode : Rounding} {neg : Bool} {y : ℚ} {n : Nat} (h : mode.Brackets neg y (2 ^ (n + 2)))
    (hy : y < 2 ^ (n + 2)) : mode.Brackets neg (y / 2) (2 ^ (n + 1)) := by
  have heven : 2 ^ (n + 1) % 2 = 0 := by omega
  have hdouble : (2 : ℚ) ^ (n + 2) = 2 * 2 ^ (n + 1) := by ring
  cases mode with
  | chopped =>
    have hlow := h.1
    push_cast at hlow
    linarith
  | minus =>
    cases neg with
    | false =>
      have hlow := h.1
      push_cast at hlow
      linarith
    | true =>
      obtain ⟨hlow, hhigh⟩ := h
      simp only [Rounding.Brackets, if_true]
      push_cast at *
      exact ⟨by linarith, by linarith⟩
  | plus =>
    cases neg with
    | true =>
      have hlow := h.1
      push_cast at hlow
      linarith
    | false =>
      obtain ⟨hlow, hhigh⟩ := h
      simp only [Rounding.Brackets]
      push_cast at *
      exact ⟨by linarith, by linarith⟩
  | nearest =>
    obtain ⟨hlow, hhigh, -⟩ := h
    refine ⟨?_, ?_, fun _ => heven⟩
    · push_cast at *
      linarith
    · push_cast at *
      linarith
  | vax =>
    obtain ⟨hlow, hhigh⟩ := h
    simp only [Rounding.Brackets]
    push_cast at *
    exact ⟨by linarith, by linarith⟩

/-- What a mode makes of the magnitude in units of `2 ^ k`. -/
def Exact.roundedAt (x : Exact) (mode : Rounding) (k : Int) : Nat := roundQuotient mode x.neg (x.scaled k).1 (x.scaled k).2

theorem Exact.roundedAt_brackets {x : Exact} (hd : x.den ≠ 0) (mode : Rounding) (k : Int) :
    mode.Brackets x.neg (x.magnitude / 2 ^ k) (x.roundedAt mode k) := by
  rw [← Exact.scaled_ratio hd]
  exact roundQuotient_brackets mode x.neg _ (Exact.scaled_den_pos hd _)

/-- There is no remainder exactly when the rounded value is the magnitude itself. -/
theorem Exact.scaled_mod_eq_zero_iff {x : Exact} (hd : x.den ≠ 0) (mode : Rounding) (k : Int) :
    (x.scaled k).1 % (x.scaled k).2 = 0 ↔ x.magnitude / 2 ^ k = x.roundedAt mode k := by
  have hden := Exact.scaled_den_pos hd k
  have hden' : ((x.scaled k).2 : ℚ) ≠ 0 := by exact_mod_cast hden.ne'
  rw [← Exact.scaled_ratio hd]
  refine ⟨fun h => ?_, fun h => ?_⟩
  · rw [Exact.roundedAt, roundQuotient_of_mod_eq_zero hden h, Nat.cast_div (Nat.dvd_of_mod_eq_zero h) hden']
  · have hnum : (x.scaled k).1 = x.roundedAt mode k * (x.scaled k).2 := by exact_mod_cast (div_eq_iff hden').1 h
    rw [hnum, Nat.mul_mod_left]

theorem Exact.round_eq (x : Exact) (mode : Rounding) (prec : Nat) :
    let inexact := (x.scaled (x.lastPlace prec)).1 % (x.scaled (x.lastPlace prec)).2 != 0
    x.round mode prec = if x.roundedAt mode (x.lastPlace prec) = 2 ^ prec then ⟨2 ^ (prec - 1), x.leading + 1, inexact⟩
      else ⟨x.roundedAt mode (x.lastPlace prec), x.leading, inexact⟩ := rfl

/-- The exponent of the last place of a rounded value of `prec` bits. -/
def Rounded.lastPlace (r : Rounded) (prec : Nat) : Int := r.lead - ((prec : Int) - 1)

/-- `r` is what `x` gives when it is rounded to `prec` bits: a significand of that many bits that brackets the magnitude in units
of its own last place, marked inexact unless it equals it; and it is worth what it was before the carry. -/
structure Rounded.Spec (r : Rounded) (x : Exact) (mode : Rounding) (prec : Nat) : Prop where
  sig_ge : 2 ^ (prec - 1) ≤ r.sig
  sig_lt : r.sig < 2 ^ prec
  exact_iff : r.inexact = false ↔ x.magnitude / 2 ^ r.lastPlace prec = r.sig
  brackets : mode.Brackets x.neg (x.magnitude / 2 ^ r.lastPlace prec) r.sig
  worth : (r.sig : ℚ) * 2 ^ r.lastPlace prec = x.roundedAt mode (x.lastPlace prec) * 2 ^ x.lastPlace prec

theorem Exact.round_spec {x : Exact} (hn : x.num ≠ 0) (hd : x.den ≠ 0) (mode : Rounding) {prec : Nat} (hp : 2 ≤ prec) :
    (x.round mode prec).Spec x mode prec := by
  obtain ⟨n, rfl⟩ := Nat.exists_eq_add_of_le' hp
  obtain ⟨hlow, hhigh⟩ := Exact.unit_bounds hn hd (prec := n + 2) (by omega)
  have hbracket := Exact.roundedAt_brackets hd mode (x.lastPlace (n + 2))
  have hflag := bne_eq_false_iff_eq.trans (Exact.scaled_mod_eq_zero_iff hd mode (x.lastPlace (n + 2)))
  have hge : 2 ^ (n + 1) ≤ x.roundedAt mode (x.lastPlace (n + 2)) := hbracket.ge_of_le (by exact_mod_cast hlow)
  have hle : x.roundedAt mode (x.lastPlace (n + 2)) ≤ 2 ^ (n + 2) := hbracket.le_of_lt (by exact_mod_cast hhigh)
  rw [Exact.round_eq]
  split
  case isFalse hfits => exact ⟨hge, lt_of_le_of_ne hle hfits, hflag, hbracket, rfl⟩
  case isTrue hcarry =>
    have hplace (i : Bool) : (2 : ℚ) ^ Rounded.lastPlace ⟨2 ^ (n + 2 - 1), x.leading + 1, i⟩ (n + 2) =
        2 ^ x.lastPlace (n + 2) * 2 := by
      rw [Rounded.lastPlace, add_sub_right_comm, zpow_add_one₀ two_ne_zero, Exact.lastPlace]
    have hdouble : ((2 ^ (n + 2) : Nat) : ℚ) = ((2 ^ (n + 1) : Nat) : ℚ) * 2 := by rw [pow_succ]; push_cast; rfl
    rw [hcarry] at hbracket hflag
    constructor
    case sig_ge => exact le_rfl
    case sig_lt => exact Nat.pow_lt_pow_right (by decide) (by omega)
    case exact_iff =>
      rw [hplace, ← div_div, div_eq_iff two_ne_zero]
      exact hflag.trans (Eq.congr_right hdouble)
    case brackets =>
      rw [hplace, ← div_div]
      exact hbracket.half hhigh
    case worth =>
      rw [hplace, hcarry, hdouble, Nat.add_sub_assoc (by decide)]
      ring

/-- Settles O29: the bounds of `Exact.round_spec`, multiplied out. -/
theorem roundingIsCorrect : Obligations.RoundingIsCorrect := by
  intro x mode prec hn hd hp
  obtain ⟨hlow, hhigh, hflag, hbracket, -⟩ := Exact.round_spec hn hd mode hp
  rw [← Exact.scaled_ratio hd] at hflag hbracket
  intro r p down up
  have hpos : (0 : ℚ) < p.2 := by exact_mod_cast Exact.scaled_den_pos hd _
  have hdown : ((r.sig : ℚ) ≤ p.1 / p.2 ∧ (p.1 : ℚ) / p.2 < r.sig + 1) → down := by
    rw [le_div_iff₀ hpos, div_lt_iff₀ hpos]
    exact_mod_cast id
  have hup : ((r.sig : ℚ) < p.1 / p.2 + 1 ∧ (p.1 : ℚ) / p.2 ≤ r.sig) → up := by
    rw [← sub_lt_iff_lt_add, lt_div_iff₀ hpos, div_le_iff₀ hpos, sub_one_mul, sub_lt_iff_lt_add]
    exact_mod_cast id
  have hbelow : ((2 * p.1 + p.2 : Nat) : ℚ) = (2 * (p.1 / p.2) + 1) * p.2 := by push_cast; field_simp
  have habove : ((2 * p.1 : Nat) : ℚ) = (2 * (p.1 / p.2)) * p.2 := by push_cast; field_simp
  have hsig : ((2 * r.sig * p.2 : Nat) : ℚ) = (2 * r.sig) * p.2 := by push_cast; rfl
  have hsig' : ((2 * r.sig * p.2 + p.2 : Nat) : ℚ) = (2 * r.sig + 1) * p.2 := by push_cast; ring
  have hhalfBelow : 2 * r.sig * p.2 ≤ 2 * p.1 + p.2 ↔ 2 * (r.sig : ℚ) ≤ 2 * (p.1 / p.2) + 1 := by
    rw [← Nat.cast_le (α := ℚ), hsig, hbelow, mul_le_mul_iff_left₀ hpos]
  refine ⟨hlow, hhigh, ?exact, ?chopped, ?minus, ?plus, ?nearest, ?vax⟩
  case exact =>
    refine hflag.trans ((div_eq_iff hpos.ne').trans ?_)
    exact_mod_cast Iff.rfl
  case chopped => rintro rfl; exact hdown hbracket
  case minus =>
    rintro rfl
    cases hneg : x.neg with
    | false => rw [hneg] at hbracket; exact hdown hbracket
    | true => rw [hneg] at hbracket; exact hup hbracket
  case plus =>
    rintro rfl
    cases hneg : x.neg with
    | false => rw [hneg] at hbracket; exact hup hbracket
    | true => rw [hneg] at hbracket; exact hdown hbracket
  case nearest =>
    rintro rfl
    obtain ⟨hle, hge, heven⟩ := hbracket
    rw [hhalfBelow, ← Nat.cast_le (α := ℚ), ← Nat.cast_inj (R := ℚ), ← Nat.cast_inj (R := ℚ), hsig, hsig', hbelow, habove,
      mul_le_mul_iff_left₀ hpos, mul_left_inj' hpos.ne', mul_left_inj' hpos.ne']
    exact ⟨hle, hge, heven⟩
  case vax =>
    rintro rfl
    obtain ⟨hle, hgt⟩ := hbracket
    rw [hhalfBelow, ← Nat.cast_lt (α := ℚ), hsig', habove, mul_lt_mul_iff_left₀ hpos]
    exact ⟨hle, hgt⟩

end Sys2Proof.Machine
end


section
/-! The fields of a floating-point register as numbers (R801 to R803): what an operand stands for, and what packing a result leaves
in each field. -/

namespace Sys2Proof.Machine

/-! ## Fields (R801, R803) -/

/-- Bits <62:0> are the exponent field and the fraction field, wherever they meet. -/
theorem low63_eq_fields (w : Word) {n m : Nat} (h : n + m = 63) :
    (w.extractLsb' 0 63).toNat = (w.extractLsb' n m).toNat * 2 ^ n + (w.extractLsb' 0 n).toNat := by
  have hsplit : (2 : Nat) ^ 63 = 2 ^ n * 2 ^ m := by rw [← pow_add, h]
  simp only [BitVec.extractLsb'_toNat, Nat.shiftRight_eq_div_pow, pow_zero, Nat.div_one]
  rw [hsplit, Nat.mod_mul, add_comm, mul_comm]

theorem fpZero_iff (w : Word) : fpZero w = true ↔ w.extractLsb' 0 63 = 0#63 := beq_iff_eq

/-- A zero is a register whose exponent and fraction fields are both zero. -/
theorem low63_eq_zero_iff (w : Word) {n m : Nat} (h : n + m = 63) :
    w.extractLsb' 0 63 = 0#63 ↔ w.extractLsb' n m = 0#m ∧ w.extractLsb' 0 n = 0#n := by
  rw [← BitVec.toNat_inj, ← BitVec.toNat_inj, ← BitVec.toNat_inj, low63_eq_fields w h]
  simp

theorem ieeeValid_iff (w : Word) : ieeeValid w = true ↔
    w.extractLsb' 52 11 ≠ 0x7FF#11 ∧ (w.extractLsb' 52 11 = 0#11 → w.extractLsb' 0 52 = 0#52) := by
  have hzero := (fpZero_iff w).trans (low63_eq_zero_iff w (n := 52) (m := 11) rfl)
  have hexp (k : BitVec 11) : (fpExp w != k.toNat) = true ↔ w.extractLsb' 52 11 ≠ k :=
    bne_iff_ne.trans (not_congr BitVec.toNat_inj)
  have hexps : (fpExp w != 0 && fpExp w != 2047) = true ↔ w.extractLsb' 52 11 ≠ 0#11 ∧ w.extractLsb' 52 11 ≠ 0x7FF#11 :=
    Bool.and_eq_true_iff.trans (and_congr (hexp 0#11) (hexp 0x7FF#11))
  rw [ieeeValid, Bool.or_eq_true, hzero, hexps]
  by_cases h : w.extractLsb' 52 11 = 0#11
  · simp [h]
  · simp [h]

theorem vaxValid_iff (w : Word) : vaxValid w = true ↔ (w.extractLsb' 52 11 = 0#11 → w = 0#64) := by
  rw [vaxValid, Bool.or_eq_true, bne_iff_ne, beq_iff_eq, ne_eq, ← BitVec.toNat_inj (x := w.extractLsb' 52 11)]
  exact Decidable.imp_iff_not_or.symm

theorem dValid_iff (w : Word) : dValid w = true ↔ (w.extractLsb' 55 8 = 0#8 → w = 0#64) := by
  rw [dValid, Bool.or_eq_true, bne_iff_ne, beq_iff_eq, ne_eq, ← BitVec.toNat_inj (x := w.extractLsb' 55 8)]
  exact Decidable.imp_iff_not_or.symm

/-! ## What an operand stands for -/

/-- A number of nonzero exponent field, in units of the last place of its fraction. -/
theorem fieldsNumber_of_ne_zero (neg : Bool) {e : Nat} (f : Nat) (bias : Int) (hidden : ℚ) (width : Nat) (he : e ≠ 0) :
    fieldsNumber neg e f bias hidden width = withSign neg ((hidden * 2 ^ width + f) * 2 ^ ((e : Int) - bias - width)) := by
  have hunit : (2 : ℚ) ^ ((e : Int) - bias) = 2 ^ ((e : Int) - bias - width) * 2 ^ width := (two_zpow_sub_mul_pow _ width).symm
  rw [fieldsNumber, if_neg he, hunit]
  cases neg
  · simp only [withSign, Bool.false_eq_true, if_false]
    field_simp
  · simp only [withSign, if_true]
    field_simp

theorem Exact.number_of_den_one (neg : Bool) (n : Nat) (e : Int) : Exact.number ⟨neg, n, 1, e⟩ = withSign neg (n * 2 ^ e) := by
  rw [Exact.number, Exact.magnitude, Nat.cast_one, div_one]

theorem Exact.number_zero (neg : Bool) (e : Int) : Exact.number ⟨neg, 0, 1, e⟩ = 0 := by
  rw [Exact.number_of_den_one, withSign_eq_zero, Nat.cast_zero, zero_mul]

theorem ieeeValue_den (w : Word) : (ieeeValue w).den = 1 := by unfold ieeeValue; split <;> rfl
theorem vaxValue_den (w : Word) : (vaxValue w).den = 1 := by unfold vaxValue; split <;> rfl
theorem dValue_den (w : Word) : (dValue w).den = 1 := by unfold dValue; split <;> rfl

theorem ieeeValue_number {w : Word} (h : ieeeValid w = true) : (ieeeValue w).number = ieeeNumber w := by
  have hvalid := ((ieeeValid_iff w).1 h).2
  have hzero := (fpZero_iff w).trans (low63_eq_zero_iff w (n := 52) (m := 11) rfl)
  by_cases he : w.extractLsb' 52 11 = 0#11
  · rw [ieeeValue, if_pos (hzero.2 ⟨he, hvalid he⟩), Exact.number_zero, ieeeNumber, he]
    rfl
  · have he' : (w.extractLsb' 52 11).toNat ≠ 0 := fun h => he (BitVec.eq_of_toNat_eq h)
    rw [ieeeValue, if_neg fun h => he (hzero.1 h).1, Exact.number_of_den_one, ieeeNumber, fieldsNumber_of_ne_zero _ _ _ _ _ he',
      fpSign_eq_msb, fpExp, fpFrac, field, field, one_mul, sub_sub]
    norm_num

theorem vaxValue_number {w : Word} (h : vaxValid w = true) : (vaxValue w).number = vaxNumber w := by
  have hvalid := (vaxValid_iff w).1 h
  by_cases he : w.extractLsb' 52 11 = 0#11
  · rw [vaxValue, if_pos (hvalid he), Exact.number_zero, vaxNumber, he]
    rfl
  · have he' : (w.extractLsb' 52 11).toNat ≠ 0 := fun h => he (BitVec.eq_of_toNat_eq h)
    rw [vaxValue, if_neg fun hw => he (congrArg (BitVec.extractLsb' 52 11) hw), Exact.number_of_den_one, vaxNumber,
      fieldsNumber_of_ne_zero _ _ _ _ _ he',
      fpSign_eq_msb, fpExp, fpFrac, field, field, sub_sub]
    norm_num

theorem dValue_number {w : Word} (h : dValid w = true) : (dValue w).number = dNumber w := by
  have hvalid := (dValid_iff w).1 h
  by_cases he : w.extractLsb' 55 8 = 0#8
  · rw [dValue, if_pos (hvalid he), Exact.number_zero, dNumber, he]
    rfl
  · have he' : (w.extractLsb' 55 8).toNat ≠ 0 := fun h => he (BitVec.eq_of_toNat_eq h)
    rw [dValue, if_neg fun hw => he (congrArg (BitVec.extractLsb' 55 8) hw), Exact.number_of_den_one, dNumber,
      fieldsNumber_of_ne_zero _ _ _ _ _ he',
      fpSign_eq_msb, dExp, field, field, sub_sub]
    norm_num

/-! ## Packing (R801 to R803) -/

/-- The fraction field of a significand, without its leading one. -/
def Format.fraction (fmt : Format) (sig : Nat) : Nat := (sig - 2 ^ (fmt.prec - 1)) * 2 ^ (fmt.fracBits + 1 - fmt.prec)

/-- With the leading one put back it is the significand, in units of the last place of the register. -/
theorem Format.hidden_add_fraction {fmt : Format} (hone : 1 ≤ fmt.prec) (hprec : fmt.prec ≤ fmt.fracBits + 1) {sig : Nat}
    (hlow : 2 ^ (fmt.prec - 1) ≤ sig) : 2 ^ fmt.fracBits + fmt.fraction sig = sig * 2 ^ (fmt.fracBits + 1 - fmt.prec) := by
  have hpow : (2 : Nat) ^ fmt.fracBits = 2 ^ (fmt.prec - 1) * 2 ^ (fmt.fracBits + 1 - fmt.prec) := by
    rw [← pow_add]
    congr 1
    omega
  rw [Format.fraction, hpow, ← Nat.add_mul, Nat.add_sub_cancel' hlow]

theorem Format.fraction_lt {fmt : Format} (hone : 1 ≤ fmt.prec) (hprec : fmt.prec ≤ fmt.fracBits + 1) {sig : Nat}
    (hlow : 2 ^ (fmt.prec - 1) ≤ sig) (hhigh : sig < 2 ^ fmt.prec) : fmt.fraction sig < 2 ^ fmt.fracBits := by
  have hsum := Format.hidden_add_fraction hone hprec hlow
  have hpow : (2 : Nat) ^ fmt.fracBits + 2 ^ fmt.fracBits = 2 ^ fmt.prec * 2 ^ (fmt.fracBits + 1 - fmt.prec) := by
    rw [← pow_add, ← two_mul, ← pow_succ']
    congr 1
    omega
  have hlt : sig * 2 ^ (fmt.fracBits + 1 - fmt.prec) < 2 ^ fmt.prec * 2 ^ (fmt.fracBits + 1 - fmt.prec) :=
    Nat.mul_lt_mul_of_pos_right hhigh (Nat.two_pow_pos _)
  omega

/-- The three fields of a packed register. -/
theorem Format.pack_fields {fmt : Format} (neg : Bool) {e sig n m : Nat} (hn : fmt.fracBits = n) (h : n + m = 63) (he : e < 2 ^ m)
    (hf : fmt.fraction sig < 2 ^ n) :
    let w := fmt.pack neg e sig
    w.msb = neg ∧ (w.extractLsb' n m).toNat = e ∧ (w.extractLsb' 0 n).toNat = fmt.fraction sig := by
  subst hn
  have hsum : e * 2 ^ fmt.fracBits + fmt.fraction sig < 2 ^ 63 := by
    rw [← h, pow_add]
    nlinarith
  have hcat : fmt.pack neg e sig = BitVec.ofBool neg ++ BitVec.ofNat 63 (e * 2 ^ fmt.fracBits + fmt.fraction sig) := by
    apply BitVec.eq_of_toNat_eq
    rw [Format.pack, BitVec.toNat_or, BitVec.toNat_append, BitVec.toNat_ofNat, BitVec.toNat_ofNat, Nat.mod_eq_of_lt hsum]
    refine congrArg₂ (· ||| ·) ?_ (Nat.mod_eq_of_lt (by exact lt_trans hsum (by decide)))
    cases neg <;> rfl
  have hfield (lo k : Nat) (hk : lo + k ≤ 63) : ((fmt.pack neg e sig).extractLsb' lo k).toNat =
      (e * 2 ^ fmt.fracBits + fmt.fraction sig) / 2 ^ lo % 2 ^ k := by
    rw [hcat, extract_cat_lo _ _ _ _ hk, BitVec.extractLsb'_toNat, BitVec.toNat_ofNat, Nat.mod_eq_of_lt hsum,
      Nat.shiftRight_eq_div_pow]
  refine ⟨?_, ?_, ?_⟩
  · rw [hcat, BitVec.msb_append]
    cases neg <;> rfl
  · rw [hfield _ _ h.le, mul_comm, Nat.mul_add_div (Nat.two_pow_pos _), Nat.div_eq_of_lt hf, Nat.add_zero, Nat.mod_eq_of_lt he]
  · rw [hfield _ _ (by omega), pow_zero, Nat.div_one, Nat.mul_add_mod', Nat.mod_eq_of_lt hf]

/-- The bits of the fraction below the precision are zero. -/
theorem Format.pack_low {fmt : Format} (neg : Bool) {e sig n m k : Nat} (hn : fmt.fracBits = n) (h : n + m = 63) (he : e < 2 ^ m)
    (hf : fmt.fraction sig < 2 ^ n) (hk : k = n + 1 - fmt.prec) (hkn : k ≤ n) : (fmt.pack neg e sig).extractLsb' 0 k = 0#k := by
  obtain ⟨-, -, hfrac⟩ := Format.pack_fields neg hn h he hf
  have hlow : ((fmt.pack neg e sig).extractLsb' 0 k).toNat = fmt.fraction sig % 2 ^ k := by
    rw [← hfrac, BitVec.extractLsb'_toNat, BitVec.extractLsb'_toNat, Nat.mod_mod_of_dvd _ (pow_dvd_pow 2 hkn)]
  apply BitVec.eq_of_toNat_eq
  rw [hlow, Format.fraction, hn, ← hk, Nat.mul_mod_left]
  exact (Nat.zero_mod _).symm

section

variable {fmt : Format} (neg : Bool) {e sig : Nat} (hone : 1 ≤ fmt.prec) (hlow : 2 ^ (fmt.prec - 1) ≤ sig)
  (hhigh : sig < 2 ^ fmt.prec)
include hone hlow hhigh

/-- A packed S or T register by the IEEE rules. -/
theorem Format.pack_ieeeValue (hn : fmt.fracBits = 52) (hprec : fmt.prec ≤ 53) (hmin : 1 ≤ e) (hmax : e ≤ 2046) :
    let w := fmt.pack neg e sig
    ieeeValid w = true ∧ fpExp w = e ∧ ieeeValue w = ⟨neg, sig * 2 ^ (53 - fmt.prec), 1, (e : Int) - 1075⟩ ∧
      w.extractLsb' 0 (53 - fmt.prec) = 0#(53 - fmt.prec) := by
  have hf := Format.fraction_lt hone (hn ▸ hprec) hlow hhigh
  have hsum := Format.hidden_add_fraction hone (hn ▸ hprec) hlow
  rw [hn] at hf hsum
  obtain ⟨hsign, hexp, hfrac⟩ := Format.pack_fields (e := e) (m := 11) neg hn rfl (by omega) hf
  intro w
  have hne (k : BitVec 11) (hk : k.toNat ≠ e) : w.extractLsb' 52 11 ≠ k := fun h => hk (by rw [← h, hexp])
  have hzero : ¬ fpZero w = true := by
    rw [fpZero_iff, low63_eq_zero_iff w (n := 52) (m := 11) rfl]
    exact fun h => hne 0#11 (by simp; omega) h.1
  refine ⟨(ieeeValid_iff w).2 ⟨hne _ (by simp; omega), fun h => absurd h (hne _ (by simp; omega))⟩, hexp, ?_,
    Format.pack_low (e := e) (m := 11) neg hn rfl (by omega) hf rfl (by omega)⟩
  rw [ieeeValue, if_neg hzero, fpSign_eq_msb, hsign, show fpFrac w = _ from hfrac, hsum, show fpExp w = e from hexp]

/-- A packed F or G register by the VAX rules. -/
theorem Format.pack_vaxValue (hn : fmt.fracBits = 52) (hprec : fmt.prec ≤ 53) (hmin : 1 ≤ e) (hmax : e ≤ 2047) :
    let w := fmt.pack neg e sig
    vaxValid w = true ∧ fpExp w = e ∧ vaxValue w = ⟨neg, sig * 2 ^ (53 - fmt.prec), 1, (e : Int) - 1077⟩ ∧
      w.extractLsb' 0 (53 - fmt.prec) = 0#(53 - fmt.prec) := by
  have hf := Format.fraction_lt hone (hn ▸ hprec) hlow hhigh
  have hsum := Format.hidden_add_fraction hone (hn ▸ hprec) hlow
  rw [hn] at hf hsum
  obtain ⟨hsign, hexp, hfrac⟩ := Format.pack_fields (e := e) (m := 11) neg hn rfl (by omega) hf
  intro w
  have hne : w.extractLsb' 52 11 ≠ 0#11 := fun h => by rw [h] at hexp; simp at hexp; omega
  refine ⟨(vaxValid_iff w).2 fun h => absurd h hne, hexp, ?_,
    Format.pack_low (e := e) (m := 11) neg hn rfl (by omega) hf rfl (by omega)⟩
  rw [vaxValue, if_neg fun hw => hne (congrArg (BitVec.extractLsb' 52 11) hw), fpSign_eq_msb, hsign,
    show fpFrac w = _ from hfrac, hsum, show fpExp w = e from hexp]

/-- A packed D register by its own. -/
theorem Format.pack_dValue (hn : fmt.fracBits = 55) (hprec : fmt.prec ≤ 56) (hmin : 1 ≤ e) (hmax : e ≤ 255) :
    let w := fmt.pack neg e sig
    dValid w = true ∧ dValue w = ⟨neg, sig * 2 ^ (56 - fmt.prec), 1, (e : Int) - 184⟩ := by
  have hf := Format.fraction_lt hone (hn ▸ hprec) hlow hhigh
  have hsum := Format.hidden_add_fraction hone (hn ▸ hprec) hlow
  rw [hn] at hf hsum
  obtain ⟨hsign, hexp, hfrac⟩ := Format.pack_fields (e := e) (m := 8) neg hn rfl (by omega) hf
  intro w
  have hne : w.extractLsb' 55 8 ≠ 0#8 := fun h => by rw [h] at hexp; simp at hexp; omega
  refine ⟨(dValid_iff w).2 fun h => absurd h hne, ?_⟩
  rw [dValue, if_neg fun hw => hne (congrArg (BitVec.extractLsb' 55 8) hw), fpSign_eq_msb, hsign,
    show (field w 0 55).toNat = _ from hfrac, hsum, show dExp w = e from hexp]

end

theorem sForm_of_fields {w : Word} (hmin : 897 ≤ fpExp w) (hmax : fpExp w ≤ 1150) (hlow : w.extractLsb' 0 29 = 0#29) :
    sForm w = true := by
  rw [sForm, Bool.or_eq_true, Bool.and_eq_true, Bool.and_eq_true, decide_eq_true_iff, decide_eq_true_iff]
  exact .inr ⟨⟨hmin, hmax⟩, beq_iff_eq.2 hlow⟩

theorem fForm_of_fields {w : Word} (hmin : 897 ≤ fpExp w) (hmax : fpExp w ≤ 1151) (hlow : w.extractLsb' 0 29 = 0#29) :
    fForm w = true := by
  rw [fForm, Bool.or_eq_true, Bool.and_eq_true, Bool.and_eq_true, decide_eq_true_iff, decide_eq_true_iff]
  exact .inr ⟨⟨hmin, hmax⟩, beq_iff_eq.2 hlow⟩

/-- Settles O30: each format by the fields of its packed register. -/
theorem packedValues : Obligations.PackedValues := by
  intro neg e sig worth
  have hworth {x : Exact} {bias : Int} {prec k : Nat} {i : Int} (hx : x = ⟨neg, sig * 2 ^ k, 1, i⟩)
      (hk : e - bias - ((prec : Int) - 1) = i + k) : worth x bias prec := by
    have hdiff : (e - bias - ((prec : Int) - 1) - i).toNat = k := by omega
    subst hx
    exact ⟨rfl, rfl, by dsimp only; omega, by rw [hdiff]⟩
  refine ⟨fun hmin hmax hlow hhigh => ?s, fun hmin hmax hlow hhigh => ?t, fun hmin hmax hlow hhigh => ?f, fun hmin hmax hlow hhigh => ?g,
    fun hmin hmax hlow hhigh => ?d⟩ <;> obtain ⟨n, rfl⟩ := Int.eq_ofNat_of_zero_le (show 0 ≤ e by omega)
  case s =>
    obtain ⟨hvalid, hexp, hvalue, hbits⟩ := Format.pack_ieeeValue (fmt := .s) (e := n) neg (by decide) hlow hhigh rfl (by decide)
      (by omega) (by omega)
    exact ⟨hvalid, sForm_of_fields (by omega) (by omega) hbits, hworth hvalue (by show _ = _ + ((29 : Nat) : Int); omega)⟩
  case t =>
    obtain ⟨hvalid, hexp, hvalue, -⟩ := Format.pack_ieeeValue (fmt := .t) (e := n) neg (by decide) hlow hhigh rfl (by decide)
      (by omega) (by omega)
    exact ⟨hvalid, hworth hvalue (by show _ = _ + ((0 : Nat) : Int); omega)⟩
  case f =>
    obtain ⟨hvalid, hexp, hvalue, hbits⟩ := Format.pack_vaxValue (fmt := .f) (e := n) neg (by decide) hlow hhigh rfl (by decide)
      (by omega) (by omega)
    exact ⟨hvalid, fForm_of_fields (by omega) (by omega) hbits, hworth hvalue (by show _ = _ + ((29 : Nat) : Int); omega)⟩
  case g =>
    obtain ⟨hvalid, hexp, hvalue, -⟩ := Format.pack_vaxValue (fmt := .g) (e := n) neg (by decide) hlow hhigh rfl (by decide)
      (by omega) (by omega)
    exact ⟨hvalid, hworth hvalue (by show _ = _ + ((0 : Nat) : Int); omega)⟩
  case d =>
    obtain ⟨hvalid, hvalue⟩ := Format.pack_dValue (fmt := .d) (e := n) neg (by decide) hlow hhigh rfl (by decide)
      (by omega) (by omega)
    exact ⟨hvalid, hworth hvalue (by show _ = _ + ((0 : Nat) : Int); omega)⟩

end Sys2Proof.Machine
end


section
/-! The operations on exact values as operations on their numbers, and the compares (R858 to R861, R878 to R880). -/

namespace Sys2Proof.Machine

/-! ## Exact arithmetic (R817 step 5, R818 step 3) -/

/-- The signed numerator over a common unit is the number in that unit. -/
theorem Exact.signedAt_cast {x : Exact} (hd : x.den = 1) {e : Int} (he : e ≤ x.exp) : (x.signedAt e : ℚ) = x.number / 2 ^ e := by
  have hsplit : (2 : ℚ) ^ x.exp = 2 ^ (x.exp - e).toNat * 2 ^ e := by
    rw [← zpow_natCast, ← zpow_add₀ two_ne_zero]
    congr 1
    omega
  have hmag : x.magnitude / 2 ^ e = ((x.num * 2 ^ (x.exp - e).toNat : Nat) : ℚ) := by
    rw [Exact.magnitude, hd, hsplit]
    push_cast
    field_simp
  rw [Exact.number, div_eq_mul_inv, withSign_mul, ← div_eq_mul_inv, hmag, Exact.signedAt]
  cases x.neg
  · rfl
  · exact Int.cast_neg _

theorem Exact.number_of_signed (n e : Int) : Exact.number ⟨decide (n < 0), n.natAbs, 1, e⟩ = n * 2 ^ e := by
  have habs : withSign (decide (n < 0)) n.natAbs = n := by
    rw [Nat.cast_natAbs, withSign]
    by_cases h : n < 0
    · rw [decide_eq_true h, if_pos rfl, abs_of_neg h]
      push_cast
      ring
    · rw [decide_eq_false h, abs_of_nonneg (not_lt.1 h)]
      rfl
  rw [Exact.number_of_den_one, ← withSign_mul, habs]

theorem Exact.ofInt_number (n : Int) : (Exact.ofInt n).number = n := by
  rw [Exact.ofInt, Exact.number_of_signed, zpow_zero, mul_one]

theorem Exact.add_number {x y : Exact} (hx : x.den = 1) (hy : y.den = 1) : (x.add y).number = x.number + y.number := by
  have hunit : (2 : ℚ) ^ min x.exp y.exp ≠ 0 := by positivity
  rw [Exact.add, Exact.number_of_signed, Int.cast_add, Exact.signedAt_cast hx (min_le_left _ _),
    Exact.signedAt_cast hy (min_le_right _ _), ← add_div, div_mul_cancel₀ _ hunit]

theorem withSign_not (p : Bool) (y : ℚ) : withSign (!p) y = -withSign p y := by
  cases p
  · rfl
  · exact (neg_neg y).symm

theorem Exact.negate_number (x : Exact) : x.negate.number = -x.number :=
  withSign_not x.neg x.magnitude

theorem withSign_xor (p q : Bool) (y z : ℚ) : withSign (p != q) (y * z) = withSign p y * withSign q z := by
  cases p <;> cases q <;> simp [withSign]

theorem Exact.mul_number (x y : Exact) : (x.mul y).number = x.number * y.number := by
  simp only [Exact.number, ← withSign_xor, Exact.mul]
  congr 1
  simp only [Exact.magnitude]
  rw [zpow_add₀ two_ne_zero]
  push_cast
  ring

theorem Exact.div_number (x y : Exact) : (x.div y).number = x.number / y.number := by
  have hinv : (y.number)⁻¹ = withSign y.neg (y.magnitude)⁻¹ := by
    rw [Exact.number]
    cases y.neg
    · rfl
    · exact inv_neg
  rw [div_eq_mul_inv, hinv]
  simp only [Exact.number, ← withSign_xor, Exact.div]
  congr 1
  simp only [Exact.magnitude]
  rw [zpow_sub₀ two_ne_zero]
  push_cast
  field_simp

/-! ## Order -/

theorem Exact.less_iff {x y : Exact} (hx : x.den = 1) (hy : y.den = 1) : x.less y = true ↔ x.number < y.number := by
  have hunit : (0 : ℚ) < 2 ^ min x.exp y.exp := by positivity
  rw [Exact.less, decide_eq_true_iff, ← Int.cast_lt (R := ℚ), Exact.signedAt_cast hx (min_le_left _ _),
    Exact.signedAt_cast hy (min_le_right _ _), div_lt_div_iff_of_pos_right hunit]

/-- A register as a signed magnitude: the sign is bit 63, and the magnitude bits <62:0> as a number. -/
def signedKey (w : Word) : Int := (if w.getLsbD 63 then -1 else 1) * ((w.extractLsb' 0 63).toNat : Int)

/-- The magnitude of a register of exponent `e` and fraction `f`, in units of the last place of the least exponent. -/
def fieldsMagnitude (e f : Nat) : Nat := if e = 0 then 0 else (2 ^ 52 + f) * 2 ^ e

/-- It grows with the bits of the register, from the zeros over the numbers of nonzero exponent. -/
theorem fieldsMagnitude_lt {e e' f f' : Nat} (hf : f < 2 ^ 52) (hf' : f' < 2 ^ 52) (hz : e' = 0 → f' = 0)
    (h : e * 2 ^ 52 + f < e' * 2 ^ 52 + f') : fieldsMagnitude e f < fieldsMagnitude e' f' := by
  have he' : e' ≠ 0 := fun h0 => by rw [h0, hz h0] at h; omega
  have hpos (e f : Nat) : 0 < (2 ^ 52 + f) * 2 ^ e := by positivity
  rw [fieldsMagnitude, fieldsMagnitude, if_neg he']
  split
  case isTrue => exact hpos e' f'
  case isFalse =>
    rcases Nat.lt_trichotomy e e' with hlt | rfl | hgt
    · calc (2 ^ 52 + f) * 2 ^ e < 2 ^ 53 * 2 ^ e := by
            exact Nat.mul_lt_mul_of_pos_right (by omega) (Nat.two_pow_pos e)
        _ = 2 ^ 52 * 2 ^ (e + 1) := by ring
        _ ≤ (2 ^ 52 + f') * 2 ^ e' := Nat.mul_le_mul (by omega) (Nat.pow_le_pow_right (by decide) hlt)
    · exact Nat.mul_lt_mul_of_pos_right (by omega) (Nat.two_pow_pos e)
    · omega

theorem fieldsNumber_eq_magnitude (neg : Bool) (e f : Nat) (bias : Int) {hidden : ℚ} {width : Nat} (h : hidden * 2 ^ width = 2 ^ 52) :
    fieldsNumber neg e f bias hidden width = withSign neg (fieldsMagnitude e f * 2 ^ (-bias - width)) := by
  by_cases he : e = 0
  · rw [fieldsNumber, if_pos he, fieldsMagnitude, if_pos he, Nat.cast_zero, zero_mul, withSign_eq_zero.2 rfl]
  · have hunit : (2 : ℚ) ^ ((e : Int) - bias - width) = 2 ^ e * 2 ^ (-bias - width) := by
      rw [← zpow_natCast, ← zpow_add₀ two_ne_zero]
      congr 1
      ring
    rw [fieldsNumber_of_ne_zero _ _ _ _ _ he, fieldsMagnitude, if_neg he, h, hunit]
    rw [Nat.cast_mul, Nat.cast_add, Nat.cast_pow, Nat.cast_pow, Nat.cast_ofNat, mul_assoc]

theorem ieeeNumber_eq_magnitude (w : Word) :
    ieeeNumber w = withSign w.msb (fieldsMagnitude (fpExp w) (fpFrac w) * 2 ^ (-1023 - (52 : Nat) : Int)) :=
  fieldsNumber_eq_magnitude _ _ _ _ (one_mul _)

theorem vaxNumber_eq_magnitude (w : Word) :
    vaxNumber w = withSign w.msb (fieldsMagnitude (fpExp w) (fpFrac w) * 2 ^ (-1024 - (53 : Nat) : Int)) :=
  fieldsNumber_eq_magnitude _ _ _ _ (by norm_num)

/-- A register that is not a denormal or a dirty zero: without an exponent it has no fraction. -/
def fieldsOrdered (w : Word) : Prop := w.extractLsb' 52 11 = 0#11 → w.extractLsb' 0 52 = 0#52

/-- Such registers are ordered, in any unit, as their signed magnitudes. -/
theorem withSign_magnitude_lt_iff {a b : Word} (ha : fieldsOrdered a) (hb : fieldsOrdered b) {u : ℚ} (hu : 0 < u) :
    withSign a.msb (fieldsMagnitude (fpExp a) (fpFrac a) * u) < withSign b.msb (fieldsMagnitude (fpExp b) (fpFrac b) * u) ↔
      signedKey a < signedKey b := by
  have hfrac (w : Word) : fpFrac w < 2 ^ 52 := BitVec.isLt _
  have hzero {w : Word} (hw : fieldsOrdered w) (h : fpExp w = 0) : fpFrac w = 0 :=
    congrArg BitVec.toNat (hw (BitVec.eq_of_toNat_eq h))
  have hkey (w : Word) : (w.extractLsb' 0 63).toNat = fpExp w * 2 ^ 52 + fpFrac w := low63_eq_fields w (m := 11) rfl
  have hlt {v w : Word} (hw : fieldsOrdered w) (h : (v.extractLsb' 0 63).toNat < (w.extractLsb' 0 63).toNat) :
      fieldsMagnitude (fpExp v) (fpFrac v) < fieldsMagnitude (fpExp w) (fpFrac w) := by
    rw [hkey, hkey] at h
    exact fieldsMagnitude_lt (hfrac v) (hfrac w) (hzero hw) h
  have heq {v w : Word} (h : (v.extractLsb' 0 63).toNat = (w.extractLsb' 0 63).toNat) :
      fieldsMagnitude (fpExp v) (fpFrac v) = fieldsMagnitude (fpExp w) (fpFrac w) := by
    have hv := hfrac v
    have hw := hfrac w
    rw [hkey, hkey] at h
    rw [show fpExp v = fpExp w by omega, show fpFrac v = fpFrac w by omega]
  have hnone {w : Word} (h : (w.extractLsb' 0 63).toNat = 0) : fieldsMagnitude (fpExp w) (fpFrac w) = 0 := by
    rw [hkey] at h
    exact if_pos (by omega)
  have hsome {w : Word} (hw : fieldsOrdered w) (h : 0 < (w.extractLsb' 0 63).toNat) :
      0 < fieldsMagnitude (fpExp w) (fpFrac w) := lt_of_le_of_lt (Nat.zero_le _) (hlt (v := 0#64) hw h)
  have hcast (s : Bool) (n : Nat) : withSign s (n * u) = (((if s then -1 else 1) * (n : Int) : Int) : ℚ) * u := by
    cases s <;> simp [withSign]
  rw [hcast, hcast, mul_lt_mul_iff_left₀ hu, Int.cast_lt, signedKey, signedKey, ← BitVec.msb_eq_getLsbD_last,
    ← BitVec.msb_eq_getLsbD_last]
  have hab := hlt hb (v := a)
  have hba := hlt ha (v := b)
  have hsame := heq (v := a) (w := b)
  have hza := hnone (w := a)
  have hzb := hnone (w := b)
  have hpa := hsome ha
  have hpb := hsome hb
  generalize fieldsMagnitude (fpExp a) (fpFrac a) = m at *
  generalize fieldsMagnitude (fpExp b) (fpFrac b) = n at *
  cases a.msb <;> cases b.msb <;> simp only [Bool.false_eq_true, if_true, if_false] <;> omega

/-- What a compare tells of two values is what it tells of two integers in the same order. -/
theorem FpCompare.holds_eq {x y : Exact} {m n : Int} (hlt : x.less y = true ↔ m < n) (hgt : y.less x = true ↔ n < m) :
    FpCompare.holds .eq x y = decide (m = n) ∧ FpCompare.holds .lt x y = decide (m < n) ∧
      FpCompare.holds .le x y = decide (m ≤ n) := by
  have hlt' : x.less y = decide (m < n) := Bool.eq_iff_iff.2 (hlt.trans decide_eq_true_iff.symm)
  have hgt' : y.less x = decide (n < m) := Bool.eq_iff_iff.2 (hgt.trans decide_eq_true_iff.symm)
  refine ⟨?_, hlt', ?_⟩
  · rw [FpCompare.holds, hlt', hgt', ← decide_not, ← decide_not, ← Bool.decide_and]
    exact decide_eq_decide.2 (by omega)
  · rw [FpCompare.holds, hgt', ← decide_not]
    exact decide_eq_decide.2 not_lt

theorem ieeeCompare_of_valid (op : FpCompare) {a b : Word} (ha : ieeeValid a = true) (hb : ieeeValid b = true) :
    ieeeCompare op a b = .ok (if op.holds (ieeeValue a) (ieeeValue b) then fpTrue else 0#64) := by
  rw [ieeeCompare, ha, hb]
  rfl

theorem vaxCompare_of_valid (op : FpCompare) {a b : Word} (ha : vaxValid a = true) (hb : vaxValid b = true) :
    vaxCompare op a b = .ok (if op.holds (vaxValue a) (vaxValue b) then fpTrue else 0#64) := by
  rw [vaxCompare, ha, hb]
  rfl

/-- Settles O28: the values of valid operands are in the order of their signed magnitudes. -/
theorem floatCompares : Obligations.FloatCompares := by
  intro a b key truth ieeeOk vaxOk
  have htrue : fpTrue = 0x4000000000000000#64 := rfl
  refine ⟨fun ha hb => ?ieee, fun ha hb => ?vax⟩
  case ieee =>
    have hva := (ieeeValid_iff a).2 ha
    have hvb := (ieeeValid_iff b).2 hb
    have hless {v w : Word} (hv : ieeeOk v) (hw : ieeeOk w) : (ieeeValue v).less (ieeeValue w) = true ↔ key v < key w := by
      rw [Exact.less_iff (ieeeValue_den v) (ieeeValue_den w), ieeeValue_number ((ieeeValid_iff v).2 hv),
        ieeeValue_number ((ieeeValid_iff w).2 hw), ieeeNumber_eq_magnitude, ieeeNumber_eq_magnitude]
      exact withSign_magnitude_lt_iff hv.2 hw.2 (by positivity)
    obtain ⟨heq, hlt, hle⟩ := FpCompare.holds_eq (hless ha hb) (hless hb ha)
    simp only [ieeeCompare_of_valid _ hva hvb, heq, hlt, hle, htrue]
    exact ⟨rfl, rfl, rfl, rfl⟩
  case vax =>
    have hva := (vaxValid_iff a).2 ha
    have hvb := (vaxValid_iff b).2 hb
    have hordered {w : Word} (hw : vaxOk w) : fieldsOrdered w := fun h => by rw [hw h]; rfl
    have hless {v w : Word} (hv : vaxOk v) (hw : vaxOk w) : (vaxValue v).less (vaxValue w) = true ↔ key v < key w := by
      rw [Exact.less_iff (vaxValue_den v) (vaxValue_den w), vaxValue_number ((vaxValid_iff v).2 hv),
        vaxValue_number ((vaxValid_iff w).2 hw), vaxNumber_eq_magnitude, vaxNumber_eq_magnitude]
      exact withSign_magnitude_lt_iff (hordered hv) (hordered hw) (by positivity)
    obtain ⟨heq, hlt, hle⟩ := FpCompare.holds_eq (hless ha hb) (hless hb ha)
    simp only [vaxCompare_of_valid _ hva hvb, heq, hlt, hle, htrue]
    exact ⟨rfl, rfl, rfl⟩

end Sys2Proof.Machine
end


section
/-! The exact result, rounded once: the ranges of the formats, overflow and underflow, and the delivered number (R812 to R818). -/

namespace Sys2Proof.Machine

/-! ## Rounding a number -/

theorem withSign_natCast (neg : Bool) (m : Nat) : (((if neg then -(m : Int) else m) : Int) : ℚ) = withSign neg m := by
  cases neg
  · exact Int.cast_natCast m
  · exact (Int.cast_neg _).trans (congrArg _ (Int.cast_natCast m))

theorem withSign_div (neg : Bool) (y z : ℚ) : withSign neg y / z = withSign neg (y / z) := by
  rw [div_eq_mul_inv, withSign_mul, ← div_eq_mul_inv]

/-- Rounded in units of `2 ^ k`, the number of an exact value is what `Exact.roundedAt` makes of its magnitude. -/
theorem Exact.integer_number {x : Exact} (hd : x.den ≠ 0) (mode : Rounding) (k : Int) :
    mode.integer (x.number / 2 ^ k) = if x.neg then -(x.roundedAt mode k : Int) else x.roundedAt mode k := by
  have hnonneg : 0 ≤ x.magnitude / 2 ^ k := div_nonneg x.magnitude_nonneg (by positivity)
  rw [Exact.number, withSign_div, Rounding.integer_withSign hnonneg (Exact.roundedAt_brackets hd mode k)]

theorem Rounding.integer_intCast (mode : Rounding) (n : Int) : mode.integer (n : ℚ) = n := by
  have hhalf : ⌊(n : ℚ) + 1 / 2⌋ = n := Int.floor_eq_iff.2 ⟨by linarith, by linarith⟩
  have hhalf' : ⌈(n : ℚ) - 1 / 2⌉ = n := Int.ceil_eq_iff.2 ⟨by linarith, by linarith⟩
  cases mode with
  | chopped => simp [Rounding.integer]
  | minus => exact Int.floor_intCast n
  | plus => exact Int.ceil_intCast n
  | nearest => exact Rounding.integer_nearest (by linarith) (by linarith) fun h => by rcases h with h | h <;> linarith
  | vax => rw [Rounding.integer, hhalf, hhalf', ite_self]

/-- A number of at most `prec` bits is not rounded. -/
theorem Rounding.number_of_fits (mode : Rounding) {prec : Nat} {k j : Int} (hk : k ≠ 0) (hlt : |(k : ℚ)| < 2 ^ prec) :
    mode.number prec (k * 2 ^ j) = k * 2 ^ j := by
  have hpos : 0 < |(k : ℚ) * 2 ^ j| := abs_pos.2 (mul_ne_zero (Int.cast_ne_zero.2 hk) (by positivity))
  have hlog : Int.log 2 |(k : ℚ) * 2 ^ j| < prec + j := by
    rw [← Int.lt_zpow_iff_log_lt Nat.one_lt_two hpos, abs_mul, abs_of_pos (a := (2 : ℚ) ^ j) (by positivity), Nat.cast_ofNat,
      zpow_add₀ two_ne_zero, zpow_natCast]
    gcongr
  rw [Rounding.number]
  set l := Int.log 2 |(k : ℚ) * 2 ^ j| - ((prec : Int) - 1) with hl
  have hunit : (2 : ℚ) ^ j = ((2 ^ (j - l).toNat : Int) : ℚ) * 2 ^ l := by
    rw [Int.cast_pow, Int.cast_ofNat, ← zpow_natCast, ← zpow_add₀ two_ne_zero]
    congr 1
    omega
  have hquot : (k : ℚ) * 2 ^ j / 2 ^ l = ((k * 2 ^ (j - l).toNat : Int) : ℚ) := by
    rw [hunit, Int.cast_mul]
    field_simp
  rw [hquot, Rounding.integer_intCast, ← hquot, div_mul_cancel₀ _ (by positivity)]

/-- The rounded significand and exponent stand for the rounded number, which the value equals if it is not marked inexact. -/
theorem Exact.round_number {x : Exact} (hn : x.num ≠ 0) (hd : x.den ≠ 0) (mode : Rounding) {prec : Nat} (hp : 2 ≤ prec) :
    let r := x.round mode prec
    mode.number prec x.number = withSign x.neg (r.sig * 2 ^ r.lastPlace prec) ∧
      (r.inexact = false ↔ mode.number prec x.number = x.number) := by
  obtain ⟨-, -, hexact, -, hworth⟩ := Exact.round_spec hn hd mode hp
  have hnumber : mode.number prec x.number = withSign x.neg ((x.round mode prec).sig * 2 ^ (x.round mode prec).lastPlace prec) := by
    rw [Rounding.number, ← Exact.leading_eq_log hn hd, hworth, ← withSign_mul, ← withSign_natCast,
      ← Exact.integer_number hd]
    rfl
  refine ⟨hnumber, hexact.trans ?_⟩
  rw [hnumber, Exact.number, withSign_inj, div_eq_iff (by positivity)]
  exact eq_comm

/-! ## Ranges (R812, R813) -/

/-- The greatest magnitude of a format, and the least of its nonzero ones. -/
def Format.most (fmt : Format) : ℚ := (2 ^ fmt.prec - 1) * 2 ^ (fmt.emax - fmt.bias - ((fmt.prec : Int) - 1))
def Format.least (fmt : Format) : ℚ := 2 ^ (fmt.emin - fmt.bias)

/-- A rounded value lies between the powers of two of its leading exponent and the next. -/
theorem Rounded.lead_bounds {r : Rounded} {prec : Nat} (hp : 1 ≤ prec) (hlow : 2 ^ (prec - 1) ≤ r.sig) (hhigh : r.sig < 2 ^ prec) :
    (2 : ℚ) ^ r.lead ≤ r.sig * 2 ^ r.lastPlace prec ∧
      (r.sig : ℚ) * 2 ^ r.lastPlace prec ≤ (2 ^ prec - 1) * 2 ^ r.lastPlace prec ∧
      (2 ^ prec - 1 : ℚ) * 2 ^ r.lastPlace prec < 2 ^ (r.lead + 1) := by
  obtain ⟨n, rfl⟩ := Nat.exists_eq_add_of_le' hp
  have hplace : r.lastPlace (n + 1) = r.lead - (n : Int) := by rw [Rounded.lastPlace]; push_cast; ring
  have hlow' : (2 : ℚ) ^ n ≤ r.sig := by exact_mod_cast hlow
  have hhigh' : (r.sig : ℚ) ≤ 2 ^ (n + 1) - 1 := by
    rw [le_sub_iff_add_le]
    exact_mod_cast hhigh
  have hpos : (0 : ℚ) < 2 ^ (r.lead - (n : Int)) := by positivity
  have hunit := two_zpow_sub_mul_pow r.lead n
  have hnext : (2 : ℚ) ^ (r.lead + 1) = 2 ^ (n + 1) * 2 ^ (r.lead - (n : Int)) := by
    rw [zpow_add_one₀ two_ne_zero, ← hunit]
    ring
  rw [hplace]
  refine ⟨?_, ?_, ?_⟩
  · rw [← hunit, mul_comm]
    gcongr
  · gcongr
  · rw [hnext]
    gcongr
    linarith

/-- The tests on the exponent are those on the magnitude of the rounded number. -/
theorem Format.range_iff (fmt : Format) (hp : 1 ≤ fmt.prec) {r : Rounded} (hlow : 2 ^ (fmt.prec - 1) ≤ r.sig)
    (hhigh : r.sig < 2 ^ fmt.prec) :
    (fmt.emax < r.lead + fmt.bias ↔ fmt.most < r.sig * 2 ^ r.lastPlace fmt.prec) ∧
      (r.lead + fmt.bias < fmt.emin ↔ r.sig * 2 ^ r.lastPlace fmt.prec < fmt.least) := by
  obtain ⟨hle, hge, hlt⟩ := Rounded.lead_bounds hp hlow hhigh
  have hmono {i j : Int} (h : i ≤ j) : (2 : ℚ) ^ i ≤ 2 ^ j := zpow_le_zpow_right₀ one_le_two h
  have hones : (0 : ℚ) ≤ 2 ^ fmt.prec - 1 := sub_nonneg.2 (one_le_pow₀ one_le_two)
  refine ⟨⟨fun h => ?_, fun h => ?_⟩, fun h => ?_, fun h => ?_⟩
  · obtain ⟨-, -, hmost⟩ := Rounded.lead_bounds (r := ⟨r.sig, fmt.emax - fmt.bias, false⟩) hp hlow hhigh
    exact (hmost.trans_le (hmono (i := fmt.emax - fmt.bias + 1) (by omega))).trans_le hle
  · by_contra hnot
    refine absurd (hge.trans ?_) (not_le.2 h)
    exact mul_le_mul_of_nonneg_left (hmono (by rw [Rounded.lastPlace]; omega)) hones
  · exact (hge.trans_lt hlt).trans_le (hmono (by omega))
  · by_contra hnot
    exact absurd ((hmono (by omega)).trans hle) (not_le.2 h)

/-! ## Reading a packed result (R801 to R803) -/

/-- A packed register of the format reads, by the rules of its type, as the number that was packed; the bits below the precision of
the short formats are zero. -/
def Format.ReadsAs (fmt : Format) (valid : Word → Bool) (number : Word → ℚ) : Prop :=
  ∀ (neg : Bool) (e : Int) (sig : Nat), fmt.emin ≤ e → e ≤ fmt.emax → 2 ^ (fmt.prec - 1) ≤ sig → sig < 2 ^ fmt.prec →
    let w := fmt.pack neg e sig
    valid w = true ∧ number w = withSign neg (sig * 2 ^ (e - fmt.bias - ((fmt.prec : Int) - 1))) ∧
      (fmt.prec = 24 → w.extractLsb' 0 29 = 0#29)

/-- The number of an exact value whose numerator has been moved up by `k` places. -/
theorem Exact.number_shifted (neg : Bool) (sig k : Nat) {i j : Int} (h : j = i + k) :
    Exact.number ⟨neg, sig * 2 ^ k, 1, i⟩ = withSign neg (sig * 2 ^ j) := by
  rw [Exact.number_of_den_one, h, add_comm, zpow_add₀ two_ne_zero, zpow_natCast]
  push_cast
  rw [mul_assoc]

theorem Format.readsAs_ieee {fmt : Format} (hn : fmt.fracBits = 52) (hone : 1 ≤ fmt.prec) (hprec : fmt.prec ≤ 53)
    (hb : fmt.bias = 1023) (hmin : 1 ≤ fmt.emin) (hmax : fmt.emax ≤ 2046) : fmt.ReadsAs ieeeValid ieeeNumber := by
  intro neg e sig he1 he2 hlow hhigh
  obtain ⟨k, rfl⟩ := Int.eq_ofNat_of_zero_le (show 0 ≤ e by omega)
  obtain ⟨hvalid, -, hvalue, hbits⟩ := Format.pack_ieeeValue (e := k) neg hone hlow hhigh hn hprec (by omega) (by omega)
  refine ⟨hvalid, ?_, fun h => ?_⟩
  · rw [← ieeeValue_number hvalid, hvalue]
    exact Exact.number_shifted neg sig _ (by omega)
  · rw [h] at hbits
    exact hbits

theorem Format.readsAs_vax {fmt : Format} (hn : fmt.fracBits = 52) (hone : 1 ≤ fmt.prec) (hprec : fmt.prec ≤ 53)
    (hb : fmt.bias = 1025) (hmin : 1 ≤ fmt.emin) (hmax : fmt.emax ≤ 2047) : fmt.ReadsAs vaxValid vaxNumber := by
  intro neg e sig he1 he2 hlow hhigh
  obtain ⟨k, rfl⟩ := Int.eq_ofNat_of_zero_le (show 0 ≤ e by omega)
  obtain ⟨hvalid, -, hvalue, hbits⟩ := Format.pack_vaxValue (e := k) neg hone hlow hhigh hn hprec (by omega) (by omega)
  refine ⟨hvalid, ?_, fun h => ?_⟩
  · rw [← vaxValue_number hvalid, hvalue]
    exact Exact.number_shifted neg sig _ (by omega)
  · rw [h] at hbits
    exact hbits

theorem Format.readsAs_s : Format.s.ReadsAs ieeeValid ieeeNumber :=
  Format.readsAs_ieee rfl (by decide) (by decide) rfl (by decide) (by decide)
theorem Format.readsAs_t : Format.t.ReadsAs ieeeValid ieeeNumber :=
  Format.readsAs_ieee rfl (by decide) (by decide) rfl (by decide) (by decide)
theorem Format.readsAs_f : Format.f.ReadsAs vaxValid vaxNumber :=
  Format.readsAs_vax rfl (by decide) (by decide) rfl (by decide) (by decide)
theorem Format.readsAs_g : Format.g.ReadsAs vaxValid vaxNumber :=
  Format.readsAs_vax rfl (by decide) (by decide) rfl (by decide) (by decide)

theorem Format.readsAs_d : Format.d.ReadsAs dValid dNumber := by
  intro neg e sig he1 he2 hlow hhigh
  change 1 ≤ e at he1
  change e ≤ 255 at he2
  obtain ⟨k, rfl⟩ := Int.eq_ofNat_of_zero_le (show 0 ≤ e by omega)
  obtain ⟨hvalid, hvalue⟩ := Format.pack_dValue (fmt := .d) (e := k) neg (by decide) hlow hhigh rfl (by decide) (by omega) (by omega)
  refine ⟨hvalid, ?_, fun h => absurd h (by decide)⟩
  rw [← dValue_number hvalid, hvalue]
  exact Exact.number_shifted neg sig _ (by show _ - (129 : Int) - (56 - 1) = _ + ((0 : Nat) : Int); omega)

/-! ## Delivering a rounded result (R812 to R818) -/

section

variable {fmt : Format} {valid : Word → Bool} {number : Word → ℚ} (q : Quals) (c : FpControl) {x : Exact}

/-- The three outcomes of rounding into a format, with the tests on the rounded number. -/
theorem Format.round_into (hread : fmt.ReadsAs valid number) (hp : 2 ≤ fmt.prec) (hn : x.num ≠ 0) (hd : x.den ≠ 0) (mode : Rounding) :
    let r := x.round mode fmt.prec
    let y := mode.number fmt.prec x.number
    (fmt.emax < r.lead + fmt.bias ↔ fmt.most < |y|) ∧ (r.lead + fmt.bias < fmt.emin ↔ |y| < fmt.least) ∧
      (r.inexact = false ↔ y = x.number) ∧
      (¬ fmt.most < |y| → ¬ |y| < fmt.least →
        let w := fmt.pack x.neg (r.lead + fmt.bias) r.sig
        valid w = true ∧ number w = y ∧ (fmt.prec = 24 → w.extractLsb' 0 29 = 0#29)) := by
  intro r y
  obtain ⟨hlow, hhigh, -⟩ := Exact.round_spec hn hd mode hp
  obtain ⟨hy, hexact⟩ := Exact.round_number hn hd mode hp
  obtain ⟨hmost, hleast⟩ := fmt.range_iff (by omega) hlow hhigh
  have habs : |y| = r.sig * 2 ^ r.lastPlace fmt.prec := by rw [show y = _ from hy, abs_withSign _ (by positivity)]
  rw [← habs] at hmost hleast
  refine ⟨hmost, hleast, hexact, fun hle hge => ?_⟩
  obtain ⟨hvalid, hnumber, hbits⟩ := hread x.neg (r.lead + fmt.bias) r.sig (not_lt.1 (mt hleast.1 hge)) (not_lt.1 (mt hmost.1 hle))
    hlow hhigh
  rw [Int.add_sub_cancel] at hnumber
  exact ⟨hvalid, hnumber.trans hy.symm, hbits⟩

theorem ieeeResult_eq (hread : fmt.ReadsAs valid number) (hp : 2 ≤ fmt.prec) (hn : x.num ≠ 0) (hd : x.den ≠ 0) :
    let y := (q.round.mode c.dyn).number fmt.prec x.number
    let ine := Conds.when (q.ineTrap c) Conds.ine
    (fmt.most < |y| → ieeeResult fmt q c x = ⟨none, Conds.ovf ||| Conds.ine, Conds.ovf ||| ine⟩) ∧
    (¬ fmt.most < |y| → |y| < fmt.least →
      ieeeResult fmt q c x = ⟨some 0#64, Conds.unf ||| Conds.ine, Conds.when (q.unfTrap c) Conds.unf ||| ine⟩) ∧
    (¬ fmt.most < |y| → ¬ |y| < fmt.least →
      ∃ v, ieeeResult fmt q c x = ⟨some v, if y = x.number then 0#6 else Conds.ine, if y = x.number then 0#6 else ine⟩ ∧
        valid v = true ∧ number v = y ∧ (fmt.prec = 24 → v.extractLsb' 0 29 = 0#29)) := by
  obtain ⟨hmost, hleast, hexact, hfits⟩ := Format.round_into hread hp hn hd (q.round.mode c.dyn)
  refine ⟨fun h => if_pos (hmost.2 h), fun hle hge => (if_neg (mt hmost.1 hle)).trans (if_pos (hleast.2 hge)), fun hle hge => ?_⟩
  refine ⟨_, ((if_neg (mt hmost.1 hle)).trans (if_neg (mt hleast.1 hge))).trans ?_, hfits hle hge⟩
  rw [← if_congr hexact rfl rfl, ← if_congr hexact rfl rfl]
  cases (x.round (q.round.mode c.dyn) fmt.prec).inexact <;> rfl

theorem vaxResult_eq (hread : fmt.ReadsAs valid number) (hp : 2 ≤ fmt.prec) (hn : x.num ≠ 0) (hd : x.den ≠ 0) :
    let y := q.vaxMode.number fmt.prec x.number
    (fmt.most < |y| → vaxResult fmt q c x = .bad Conds.ovf) ∧
    (¬ fmt.most < |y| → |y| < fmt.least →
      vaxResult fmt q c x = ⟨some 0#64, Conds.unf, Conds.when (q.unfTrap c) Conds.unf⟩) ∧
    (¬ fmt.most < |y| → ¬ |y| < fmt.least →
      ∃ v, vaxResult fmt q c x = .ok v ∧ valid v = true ∧ number v = y ∧ (fmt.prec = 24 → v.extractLsb' 0 29 = 0#29)) := by
  obtain ⟨hmost, hleast, -, hfits⟩ := Format.round_into hread hp hn hd q.vaxMode
  exact ⟨fun h => if_pos (hmost.2 h), fun hle hge => (if_neg (mt hmost.1 hle)).trans (if_pos (hleast.2 hge)),
    fun hle hge => ⟨_, (if_neg (mt hmost.1 hle)).trans (if_neg (mt hleast.1 hge)), hfits hle hge⟩⟩

end

/-- All ones at the greatest exponent. -/
theorem Format.most_eq {fmt : Format} {k : Nat} (h : fmt.emax - fmt.bias - ((fmt.prec : Int) - 1) = k) :
    fmt.most = 2 ^ (fmt.prec + k) - 2 ^ k := by
  rw [Format.most, h, zpow_natCast, sub_one_mul, ← pow_add]

/-- The mode of a function code (R807). -/
theorem fnQuals_mode (fn : BitVec 11) (c : FpControl) : (fnQuals fn).round.mode c.dyn = fnRounding fn c := by
  rw [fnQuals, fnRounding]
  dsimp only
  generalize fn.extractLsb' 6 2 = r
  generalize c.dyn = d
  revert r d
  decide

theorem fnQuals_vaxMode (fn : BitVec 11) : (fnQuals fn).vaxMode = if fn.extractLsb' 6 2 = 0#2 then .chopped else .vax := by
  rw [fnQuals, Quals.vaxMode]
  dsimp only
  generalize fn.extractLsb' 6 2 = r
  revert r
  decide

/-- An IEEE result of a nonzero exact value is what R812 to R814 ask for. -/
theorem ieeeDelivers_ieeeResult (fn : BitVec 11) (single : Bool) (c : FpControl) {x : Exact} (hn : x.num ≠ 0) (hd : x.den ≠ 0) :
    ieeeDelivers fn single c x.number (ieeeResult (if single then .s else .t) (fnQuals fn) c x) := by
  have hdeliver {fmt : Format} (hread : fmt.ReadsAs ieeeValid ieeeNumber) (hp : 2 ≤ fmt.prec) (h24 : single = true → fmt.prec = 24)
      {most least : ℚ} (hmost : fmt.most = most) (hleast : fmt.least = least) :
      let r := (fnRounding fn c).number fmt.prec x.number
      let inexact : Conds := if fn.getLsbD 9 && !c.ined then 16#6 else 0#6
      let underflow : Conds := if fn.getLsbD 8 && !(c.unfd && c.undz && fn.getLsbD 10) then 8#6 else 0#6
      let o := ieeeResult fmt (fnQuals fn) c x
      if most < |r| then o = ⟨none, 20#6, 4#6 ||| inexact⟩
      else if |r| < least then o = ⟨some 0#64, 24#6, underflow ||| inexact⟩
      else ∃ v, o = ⟨some v, if r = x.number then 0#6 else 16#6, if r = x.number then 0#6 else inexact⟩ ∧ ieeeNumber v = r ∧
        v.extractLsb' 52 11 ≠ 0x7FF#11 ∧ (single = true → v.extractLsb' 0 29 = 0#29) := by
    subst hmost hleast
    obtain ⟨hover, hunder, hfits⟩ := ieeeResult_eq (fnQuals fn) c hread hp hn hd
    rw [fnQuals_mode] at hover hunder hfits
    intro r inexact underflow o
    split
    case isTrue h => exact hover h
    case isFalse h =>
      split
      case isTrue h' => exact hunder h h'
      case isFalse h' =>
        obtain ⟨v, ho, hvalid, hnumber, hbits⟩ := hfits h h'
        exact ⟨v, ho, hnumber, ((ieeeValid_iff v).1 hvalid).1, fun hs => hbits (h24 hs)⟩
  cases single with
  | true => exact hdeliver Format.readsAs_s (by decide) (fun _ => rfl) (Format.most_eq (k := 104) rfl) rfl
  | false => exact hdeliver Format.readsAs_t (by decide) (fun h => by cases h) (Format.most_eq (k := 971) rfl) rfl

/-- A VAX format of the model and the range that the statements name for it. -/
structure Format.Ranges (fmt : Format) (range : VaxRange) : Prop where
  prec : fmt.prec = range.prec
  most : fmt.most = range.most
  least : fmt.least = range.least
  two_le : 2 ≤ fmt.prec
  reads : ∃ valid, fmt.ReadsAs valid range.number

theorem Format.ranges_f : Format.f.Ranges .f := ⟨rfl, Format.most_eq (k := 103) rfl, rfl, by decide, _, Format.readsAs_f⟩
theorem Format.ranges_g : Format.g.Ranges .g := ⟨rfl, Format.most_eq (k := 970) rfl, rfl, by decide, _, Format.readsAs_g⟩
theorem Format.ranges_d : Format.d.Ranges .d := ⟨rfl, Format.most_eq (k := 71) rfl, rfl, by decide, _, Format.readsAs_d⟩

/-- A VAX result is what R812, R813 and R818 ask for. -/
theorem vaxDelivers_vaxResult (fn : BitVec 11) {fmt : Format} {range : VaxRange} (h : fmt.Ranges range) (c : FpControl) {x : Exact}
    (hd : x.den ≠ 0) : vaxDelivers fn range c x.number (vaxResultOrZero fmt (fnQuals fn) c x) := by
  obtain ⟨hprec, hmost, hleast, hp, valid, hread⟩ := h
  rw [vaxDelivers, vaxResultOrZero]
  by_cases hn : x.num = 0
  · rw [if_pos hn, if_pos ((Exact.number_eq_zero_iff hd).2 hn)]
    rfl
  · obtain ⟨hover, hunder, hfits⟩ := vaxResult_eq (fnQuals fn) c hread hp hn hd
    rw [fnQuals_vaxMode, hprec, hmost] at hover hunder hfits
    rw [hleast] at hunder hfits
    rw [if_neg hn, if_neg (mt (Exact.number_eq_zero_iff hd).1 hn)]
    generalize (if fn.extractLsb' 6 2 = 0#2 then Rounding.chopped else Rounding.vax) = mode at hover hunder hfits ⊢
    split
    case isTrue h => exact hover h
    case isFalse h =>
      split
      case isTrue h' => exact hunder h h'
      case isFalse h' =>
        obtain ⟨v, ho, -, hnumber, hbits⟩ := hfits h h'
        exact ⟨v, ho, hnumber, hbits⟩

end Sys2Proof.Machine
end


section
/-! What each function code of opcodes 16 and 15 produces (R500, R501): invalid operands and division by zero, arithmetic and
conversions. -/

namespace Sys2Proof.Machine

/-! ## Function codes (R500, R501) -/

/-- The operation of FNC 0 to 3. -/
def FpBinary.ofCode : Nat → FpBinary
  | 0 => .add
  | 1 => .sub
  | 2 => .mul
  | _ => .div

/-- The compare of FNC 4 to 7; there is no VAX compare of FNC 4. -/
def FpCompare.ofCode : Nat → FpCompare
  | 4 => .un
  | 5 => .eq
  | 6 => .lt
  | _ => .le

section

variable {fn : BitVec 11} (c : FpControl) (a b : Word)

theorem ieeeCode_binary (h : fnOp fn < 4) :
    ieeeCode fn c a b = ieeeBinary (.ofCode (fnOp fn)) (fnSrc fn == 0) (fnQuals fn) c a b := by
  rw [ieeeCode]
  interval_cases fnOp fn <;> rfl

theorem vaxCode_binary (h : fnOp fn < 4) :
    vaxCode fn c a b = vaxBinary (.ofCode (fnOp fn)) (fnSrc fn == 0) (fnQuals fn) c a b := by
  rw [vaxCode]
  interval_cases fnOp fn <;> rfl

theorem ieeeCode_compare (h : 4 ≤ fnOp fn) (h' : fnOp fn < 8) : ieeeCode fn c a b = ieeeCompare (.ofCode (fnOp fn)) a b := by
  rw [ieeeCode]
  interval_cases fnOp fn <;> rfl

theorem vaxCode_compare (h : 4 < fnOp fn) (h' : fnOp fn < 8) : vaxCode fn c a b = vaxCompare (.ofCode (fnOp fn)) a b := by
  rw [vaxCode]
  interval_cases fnOp fn <;> rfl

theorem ieeeCode_twelve (h : fnOp fn = 12) : ieeeCode fn c a b = if fnSrc fn = 3 then ieeeFromInt .s (fnQuals fn) c b
    else if fn.extractLsb' 8 2 = 2#2 then ieeeWiden b else ieeeNarrow (fnQuals fn) c b := by
  rw [ieeeCode, h]
  rfl

theorem ieeeCode_fourteen (h : fnOp fn = 14) : ieeeCode fn c a b = ieeeFromInt .t (fnQuals fn) c b := by
  rw [ieeeCode, h]
  rfl

theorem ieeeCode_fifteen (h : fnOp fn = 15) : ieeeCode fn c a b = ieeeToInt (fnQuals fn) c b := by
  rw [ieeeCode, h]
  rfl

theorem vaxCode_twelve (h : fnOp fn = 12) :
    vaxCode fn c a b = if fnSrc fn = 3 then vaxFromInt .f (fnQuals fn) c b else vaxFromG .f (fnQuals fn) c b := by
  rw [vaxCode, h]
  rfl

theorem vaxCode_thirteen (h : fnOp fn = 13) : vaxCode fn c a b = vaxFromG .d (fnQuals fn) c b := by
  rw [vaxCode, h]
  rfl

theorem vaxCode_fourteen (h : fnOp fn = 14) :
    vaxCode fn c a b = if fnSrc fn = 3 then vaxFromInt .g (fnQuals fn) c b else vaxFromD (fnQuals fn) c b := by
  rw [vaxCode, h]
  rfl

theorem vaxCode_fifteen (h : fnOp fn = 15) : vaxCode fn c a b = vaxToInt (fnQuals fn) c b := by
  rw [vaxCode, h]
  rfl

end

/-! ## Operands that are refused (R810, R811) -/

section

variable {a b : Word} (q : Quals) (c : FpControl)

theorem not_and_of_or_false {p q : Bool} (h : p = false ∨ q = false) : (!(p && q)) = true := by
  rcases h with rfl | rfl
  · rfl
  · rw [Bool.and_false]; rfl

theorem ieeeBinary_invalid (op : FpBinary) (single : Bool) (h : ieeeValid a = false ∨ ieeeValid b = false) :
    ieeeBinary op single q c a b = .bad Conds.inv := if_pos (not_and_of_or_false h)

theorem ieeeCompare_invalid (op : FpCompare) (h : ieeeValid a = false ∨ ieeeValid b = false) :
    ieeeCompare op a b = .bad Conds.inv := if_pos (not_and_of_or_false h)

theorem vaxBinary_invalid (op : FpBinary) (single : Bool) (h : vaxValid a = false ∨ vaxValid b = false) :
    vaxBinary op single q c a b = .bad Conds.inv := if_pos (not_and_of_or_false h)

theorem vaxCompare_invalid (op : FpCompare) (h : vaxValid a = false ∨ vaxValid b = false) :
    vaxCompare op a b = .bad Conds.inv := if_pos (not_and_of_or_false h)

theorem ieeeBinary_div_zero (single : Bool) (ha : ieeeValid a = true) (hb : fpZero b = true) :
    ieeeBinary .div single q c a b = .bad (if fpZero a then Conds.inv else Conds.dze) := by
  have hvalid : ieeeValid b = true := by rw [ieeeValid, hb]; rfl
  rw [ieeeBinary, ha, hvalid, if_neg (by decide), if_pos ⟨rfl, hb⟩, apply_ite FpOutcome.bad]

theorem vaxBinary_div_zero (single : Bool) (ha : vaxValid a = true) : vaxBinary .div single q c a 0#64 = .bad Conds.dze := by
  rw [vaxBinary, ha]
  rfl

end

/-- Settles O27: the operands that the statement names are those that are not valid. -/
theorem floatInputExceptions : Obligations.FloatInputExceptions := by
  intro fn c a b ieeeBad vaxBad
  have hieee {w : Word} (h : ieeeBad w) : ieeeValid w = false := by
    rw [← Bool.not_eq_true, ieeeValid_iff]
    rintro ⟨hexp, hfrac⟩
    exact h.elim hexp fun ⟨hzero, hne⟩ => hne (hfrac hzero)
  have hieee' {w : Word} (h : ¬ ieeeBad w) : ieeeValid w = true := by
    rw [ieeeValid_iff]
    exact ⟨fun hexp => h (.inl hexp), fun hzero => by_contra fun hne => h (.inr ⟨hzero, hne⟩)⟩
  have hvax {w : Word} (h : vaxBad w) : vaxValid w = false := by
    rw [← Bool.not_eq_true, vaxValid_iff]
    exact fun hok => h.2 (hok h.1)
  have hvax' {w : Word} (h : ¬ vaxBad w) : vaxValid w = true := by
    rw [vaxValid_iff]
    exact fun hzero => by_contra fun hne => h ⟨hzero, hne⟩
  refine ⟨fun hop hbad => ?_, fun hop ha hb => ⟨fun hnz => ?_, fun hz => ?_⟩, fun hop hop4 hbad => ?_, fun hop ha hb => ?_,
    fun hop hbad => ?_, fun hop hbad => ?_, fun ⟨hop, hsrc⟩ hexp hne => ?_⟩
  · have hbad' := hbad.imp hieee hieee
    rcases Nat.lt_or_ge (fnOp fn) 4 with h | h
    · exact (ieeeCode_binary c a b h).trans (ieeeBinary_invalid _ c _ _ hbad')
    · exact (ieeeCode_compare c a b h hop).trans (ieeeCompare_invalid _ hbad')
  · rw [ieeeCode_binary c a b (by omega), hop, show FpBinary.ofCode 3 = .div from rfl,
      ieeeBinary_div_zero _ c _ (hieee' ha) ((fpZero_iff b).2 hb), if_neg (mt (fpZero_iff a).1 hnz)]
    rfl
  · rw [ieeeCode_binary c a b (by omega), hop, show FpBinary.ofCode 3 = .div from rfl,
      ieeeBinary_div_zero _ c _ (hieee' ha) ((fpZero_iff b).2 hb), if_pos ((fpZero_iff a).2 hz)]
    rfl
  · have hbad' := hbad.imp hvax hvax
    rcases Nat.lt_or_ge (fnOp fn) 4 with h | h
    · exact (vaxCode_binary c a b h).trans (vaxBinary_invalid _ c _ _ hbad')
    · exact (vaxCode_compare c a b (by omega) hop).trans (vaxCompare_invalid _ hbad')
  · rw [vaxCode_binary c a b (by omega), hop, hb]
    exact vaxBinary_div_zero _ c _ (hvax' ha)
  · have hinvalid := hieee hbad
    rcases hop with ⟨hop, hsrc⟩ | hop
    · rw [ieeeCode_twelve c a b hop, if_neg (by omega), ieeeWiden, ieeeNarrow, hinvalid]
      exact ite_self _
    · rw [ieeeCode_fifteen c a b hop, ieeeToInt, hinvalid]
      rfl
  · have hinvalid := hvax hbad
    rcases hop with ⟨hop, hsrc⟩ | hop | hop
    · rw [vaxCode_twelve c a b hop, if_neg (by omega), vaxFromG, hinvalid]
      rfl
    · rw [vaxCode_thirteen c a b hop, vaxFromG, hinvalid]
      rfl
    · rw [vaxCode_fifteen c a b hop, vaxToInt, hinvalid]
      rfl
  · have hinvalid : dValid b = false := by
      rw [← Bool.not_eq_true, dValid_iff]
      exact fun hok => hne (hok hexp)
    rw [vaxCode_fourteen c a b hop, if_neg (by omega), vaxFromD, hinvalid]
    rfl

/-! ## Conversions to an integer (R865, R883) -/

theorem Exact.roundInt_eq {x : Exact} (hd : x.den ≠ 0) (mode : Rounding) : x.roundInt mode = mode.integer x.number := by
  have h := Exact.integer_number hd mode 0
  rw [zpow_zero, div_one] at h
  exact h.symm

/-- A value is an integer exactly when rounding, in any mode, leaves it alone. -/
theorem Exact.isInt_iff {x : Exact} (hd : x.den ≠ 0) (mode : Rounding) : x.isInt = true ↔ (mode.integer x.number : ℚ) = x.number := by
  have hrounded := Exact.integer_number hd mode 0
  rw [zpow_zero, div_one] at hrounded
  rw [Exact.isInt, beq_iff_eq, Exact.scaled_mod_eq_zero_iff hd mode 0, zpow_zero, div_one, hrounded, withSign_natCast, Exact.number,
    withSign_inj]
  exact eq_comm

/-- What CVTTQ gives, by the number of its operand. -/
theorem ieeeToInt_of_valid (q : Quals) (c : FpControl) {b : Word} (h : ieeeValid b = true) :
    let n := (q.round.mode c.dyn).integer (ieeeNumber b)
    let wide := n < -(2 ^ 63) ∨ 2 ^ 63 ≤ n
    let inexact := wide ∨ (n : ℚ) ≠ ieeeNumber b
    ieeeToInt q c b = ⟨some (BitVec.ofInt 64 n), (if wide then 32#6 else 0#6) ||| (if inexact then 16#6 else 0#6),
      (if wide ∧ q.trap = true then 32#6 else 0#6) |||
        (if inexact ∧ q.inexact = true ∧ c.ined = false then 16#6 else 0#6)⟩ := by
  have hd : (ieeeValue b).den ≠ 0 := by rw [ieeeValue_den]; decide
  intro n wide inexact
  have hn : (ieeeValue b).roundInt (q.round.mode c.dyn) = n := by rw [Exact.roundInt_eq hd, ieeeValue_number h]
  have hint : (ieeeValue b).isInt = true ↔ (n : ℚ) = ieeeNumber b := by
    rw [Exact.isInt_iff hd (q.round.mode c.dyn), ieeeValue_number h]
  have hwide : outsideQuad n = true ↔ wide := outsideQuad_iff n
  have hinexact : (outsideQuad n || !(ieeeValue b).isInt) = true ↔ inexact := by
    rw [Bool.or_eq_true, hwide, Bool.not_eq_true', ← Bool.not_eq_true, hint]
  rw [ieeeToInt, h]
  simp only [Bool.not_true, Bool.false_eq_true, if_false, hn, Conds.when, Quals.ineTrap, Bool.and_eq_true, hwide, hinexact,
    Bool.not_eq_true', Conds.iov, Conds.ine]

/-- What CVTGQ gives, by the number of its operand. -/
theorem vaxToInt_of_valid (q : Quals) (c : FpControl) {b : Word} (h : vaxValid b = true) :
    let n := q.vaxMode.integer (vaxNumber b)
    let wide := n < -(2 ^ 63) ∨ 2 ^ 63 ≤ n
    vaxToInt q c b = ⟨some (BitVec.ofInt 64 n), if wide then 32#6 else 0#6, if wide ∧ q.trap = true then 32#6 else 0#6⟩ := by
  have hd : (vaxValue b).den ≠ 0 := by rw [vaxValue_den]; decide
  intro n wide
  have hn : (vaxValue b).roundInt q.vaxMode = n := by rw [Exact.roundInt_eq hd, vaxValue_number h]
  have hwide : outsideQuad n = true ↔ wide := outsideQuad_iff n
  rw [vaxToInt, h]
  simp only [Bool.not_true, Bool.false_eq_true, if_false, hn, Conds.when, Bool.and_eq_true, hwide, Conds.iov]

end Sys2Proof.Machine
end


section
/-! The results of arithmetic and of conversions as numbers, for every function code (R817, R818). -/

namespace Sys2Proof.Machine

/-! ## The exact result (R817 step 5, R818 step 3) -/

/-- The exact result of an operation is the operation on the numbers of its operands. -/
theorem FpBinary.exact_spec {k : Nat} (hk : k < 4) {x y : Exact} (hx : x.den = 1) (hy : y.den = 1) (hdiv : k = 3 → y.num ≠ 0) :
    ((FpBinary.ofCode k).exact x y).number = exactResult k x.number y.number ∧ ((FpBinary.ofCode k).exact x y).den ≠ 0 := by
  have hden : x.den * y.den ≠ 0 := by rw [hx, hy]; decide
  have hneg : y.negate.den = 1 := hy
  interval_cases k
  · exact ⟨Exact.add_number hx hy, Nat.one_ne_zero⟩
  · refine ⟨(Exact.add_number hx hneg).trans ?_, Nat.one_ne_zero⟩
    rw [Exact.negate_number, ← sub_eq_add_neg]
    rfl
  · exact ⟨Exact.mul_number x y, hden⟩
  · exact ⟨Exact.div_number x y, Nat.mul_ne_zero (by rw [hx]; decide) (hdiv rfl)⟩

theorem FpBinary.ofCode_eq_div {k : Nat} (hk : k < 4) (h : FpBinary.ofCode k = .div) : k = 3 := by
  interval_cases k
  · cases h
  · cases h
  · cases h
  · rfl

theorem Exact.ofInt_den (n : Int) : (Exact.ofInt n).den ≠ 0 := Nat.one_ne_zero

theorem Exact.ofInt_num_ne_zero {b : Word} (h : b ≠ 0#64) : (Exact.ofInt b.toInt).num ≠ 0 :=
  fun hn => h (BitVec.toInt_inj.1 (Int.natAbs_eq_zero.1 hn))

theorem ieeeValue_num_ne_zero {b : Word} (h : fpZero b ≠ true) : (ieeeValue b).num ≠ 0 := by
  rw [ieeeValue, if_neg h]
  exact Nat.ne_of_gt (Nat.add_pos_left (Nat.two_pow_pos 52) _)

theorem vaxValue_num_ne_zero {b : Word} (h : b ≠ 0#64) : (vaxValue b).num ≠ 0 := by
  rw [vaxValue, if_neg h]
  exact Nat.ne_of_gt (Nat.add_pos_left (Nat.two_pow_pos 52) _)

/-! ## IEEE arithmetic (R817) -/

theorem sForm_iff (w : Word) : sForm w = true ↔ w.extractLsb' 0 63 = 0#63 ∨
    897 ≤ (w.extractLsb' 52 11).toNat ∧ (w.extractLsb' 52 11).toNat ≤ 1150 ∧ w.extractLsb' 0 29 = 0#29 := by
  rw [sForm, Bool.or_eq_true, Bool.and_eq_true, Bool.and_eq_true, decide_eq_true_iff, decide_eq_true_iff, beq_iff_eq, fpZero_iff,
    and_assoc]
  rfl

theorem placeBit_sign (neg : Bool) : placeBit neg 63 = BitVec.ofBool neg ++ 0#63 := by cases neg <;> rfl

/-- A zero is its sign and nothing else. -/
theorem sign_append_low63 {w : Word} (h : w.extractLsb' 0 63 = 0#63) : w = BitVec.ofBool w.msb ++ 0#63 := by
  have hsign : w.extractLsb' 63 1 = BitVec.ofBool w.msb := by
    rw [BitVec.msb_eq_getLsbD_last]
    ext i hi
    obtain rfl : i = 0 := by omega
    simp
  rw [← h, ← hsign]
  exact (cat_extract (m := 1) (n := 63) w).symm

/-- What an operation on valid operands gives: the exact result, or its zero, in one rounding. -/
theorem ieeeBinary_of_valid (op : FpBinary) (single : Bool) (q : Quals) (c : FpControl) {a b : Word} (ha : ieeeValid a = true)
    (hb : ieeeValid b = true) (hdiv : op = .div → fpZero b ≠ true) (hs : single = true → sForm a = true ∧ sForm b = true) :
    let x := op.exact (ieeeValue a) (ieeeValue b)
    ieeeBinary op single q c a b =
      if x.num = 0 then .ok (placeBit (ieeeZeroSign op (q.round.mode c.dyn) a b) 63)
      else ieeeResult (if single then .s else .t) q c x := by
  have hform : ¬ (single && !(sForm a && sForm b)) = true := by
    cases single with
    | false => exact Bool.false_ne_true
    | true => rw [(hs rfl).1, (hs rfl).2]; decide
  rw [ieeeBinary, ha, hb, if_neg (by decide), if_neg fun h => hdiv h.1 h.2, if_neg hform]

/-- The sign of a zero result, by the rules of R817 step 6. -/
theorem ieeeZeroSign_iff {k : Nat} (hk : k < 4) (mode : Rounding) (a b : Word) :
    ieeeZeroSign (.ofCode k) mode a b = true ↔
      if 2 ≤ k then a.msb ≠ b.msb
      else if a.extractLsb' 0 63 = 0#63 ∧ b.extractLsb' 0 63 = 0#63 ∧ a.msb = (b.msb != (k == 1)) then a.msb = true
      else mode = .minus := by
  have hadd (sb : Bool) : (if fpZero a && fpZero b && (fpSign a == sb) then fpSign a else mode == .minus) = true ↔
      if a.extractLsb' 0 63 = 0#63 ∧ b.extractLsb' 0 63 = 0#63 ∧ a.msb = sb then a.msb = true else mode = .minus := by
    have hcond : (fpZero a && fpZero b && (fpSign a == sb)) = true ↔
        a.extractLsb' 0 63 = 0#63 ∧ b.extractLsb' 0 63 = 0#63 ∧ a.msb = sb := by
      rw [Bool.and_eq_true, Bool.and_eq_true, fpZero_iff, fpZero_iff, beq_iff_eq, fpSign_eq_msb, and_assoc]
    by_cases h : a.extractLsb' 0 63 = 0#63 ∧ b.extractLsb' 0 63 = 0#63 ∧ a.msb = sb
    · rw [if_pos h, if_pos (hcond.2 h), fpSign_eq_msb]
    · rw [if_neg h, if_neg (mt hcond.1 h), beq_iff_eq]
  have hmul : (fpSign a != fpSign b) = true ↔ a.msb ≠ b.msb := by rw [bne_iff_ne, fpSign_eq_msb, fpSign_eq_msb]
  interval_cases k
  · rw [if_neg (by decide), show (b.msb != ((0 : Nat) == 1)) = fpSign b by rw [fpSign_eq_msb]; exact Bool.bne_false _]
    exact hadd (fpSign b)
  · rw [if_neg (by decide), show (b.msb != ((1 : Nat) == 1)) = !fpSign b by rw [fpSign_eq_msb]; exact Bool.bne_true _]
    exact hadd (!fpSign b)
  · exact hmul
  · exact hmul

/-! ## VAX arithmetic (R818) -/

theorem vaxBinary_of_valid (op : FpBinary) (single : Bool) (q : Quals) (c : FpControl) {a b : Word} (ha : vaxValid a = true)
    (hb : vaxValid b = true) (hdiv : op = .div → b ≠ 0#64) :
    vaxBinary op single q c a b = vaxResultOrZero (if single then .f else .g) q c (op.exact (vaxValue a) (vaxValue b)) := by
  rw [vaxBinary, ha, hb, if_neg (show ¬ (!(true && true)) = true by decide), if_neg fun h => hdiv h.1 h.2]

/-! ## The statements -/

/-- Settles O33: arithmetic by `ieeeBinary_of_valid` and the one rounding of `ieeeDelivers_ieeeResult`; the conversions by it too, and
CVTTQ by `ieeeToInt_of_valid`. -/
theorem ieeeArithmeticResult : Obligations.IeeeArithmeticResult := by
  intro p _ c a b fn o op single isZero valid inS x
  have hform {w : Word} (h : inS w) : sForm w = true := (sForm_iff w).2 h
  have hfromInt (h : op = 12 ∧ fnSrc fn = 3 ∨ op = 14) :
      ieeeCode fn c a b = ieeeFromInt (if op == 12 then .s else .t) (fnQuals fn) c b := by
    rcases h with ⟨hop, hsrc⟩ | hop
    · rw [ieeeCode_twelve c a b hop, if_pos hsrc, if_pos (beq_iff_eq.2 hop)]
    · rw [ieeeCode_fourteen c a b hop, if_neg fun h => absurd (beq_iff_eq.1 h) (by omega)]
  refine ⟨fun hop ha hb hdiv hs => ?arithmetic, fun hop hsrc hst hb => ⟨fun hz => ?narrowZero, fun hz => ?narrow⟩,
    fun hop hsrc hst hb hin => ?widen, fun hop => ⟨fun hz => ?intZero, fun hz => ?int⟩, fun hop hb => ?toInt⟩
  case arithmetic =>
    have ha' := (ieeeValid_iff a).2 ha
    have hb' := (ieeeValid_iff b).2 hb
    have hcode : FpBinary.ofCode op = .div → op = 3 := FpBinary.ofCode_eq_div hop
    have hzero (h : op = 3) : fpZero b ≠ true := mt (fpZero_iff b).1 (hdiv h)
    obtain ⟨hnumber, hden⟩ := FpBinary.exact_spec hop (ieeeValue_den a) (ieeeValue_den b) fun h => ieeeValue_num_ne_zero (hzero h)
    rw [ieeeValue_number ha', ieeeValue_number hb'] at hnumber
    have ho : o = _ := (ieeeCode_binary c a b hop).trans (ieeeBinary_of_valid (.ofCode op) single (fnQuals fn) c ha' hb'
      (fun h => hzero (hcode h)) fun h => (hs h).imp hform hform)
    have hx : x = _ := hnumber.symm
    rw [ho, hx, fnQuals_mode]
    refine ⟨fun hne => ?_, fun heq => ?_⟩
    · have hn := mt (Exact.number_eq_zero_iff hden).2 hne
      rw [if_neg hn]
      exact ieeeDelivers_ieeeResult fn single c hn hden
    · refine ⟨_, ?_, ieeeZeroSign_iff hop (fnRounding fn c) a b⟩
      rw [if_pos ((Exact.number_eq_zero_iff hden).1 heq), placeBit_sign]
      rfl
  case narrowZero =>
    have hb' := (ieeeValid_iff b).2 hb
    rw [show o = _ from ieeeCode_twelve c a b hop, if_neg (by omega), if_neg hst, ieeeNarrow, hb', if_neg (by decide),
      if_pos ((fpZero_iff b).2 hz), placeBit_sign, fpSign_eq_msb, ← sign_append_low63 hz]
    rfl
  case narrow =>
    have hb' := (ieeeValid_iff b).2 hb
    have hne := mt (fpZero_iff b).1 hz
    rw [show o = _ from ieeeCode_twelve c a b hop, if_neg (by omega), if_neg hst, ieeeNarrow, hb', if_neg (by decide), if_neg hne,
      ← ieeeValue_number hb']
    exact ieeeDelivers_ieeeResult fn true c (ieeeValue_num_ne_zero hne) (by rw [ieeeValue_den]; decide)
  case widen =>
    rw [show o = _ from ieeeCode_twelve c a b hop, if_neg (by omega), if_pos hst, ieeeWiden, (ieeeValid_iff b).2 hb,
      if_neg (by decide), if_pos (hform hin)]
    rfl
  case intZero =>
    rw [show o = _ from hfromInt hop, ieeeFromInt, if_pos hz]
    rfl
  case int =>
    rw [show o = _ from hfromInt hop, ieeeFromInt, if_neg hz, ← Exact.ofInt_number]
    exact ieeeDelivers_ieeeResult fn (op == 12) c (Exact.ofInt_num_ne_zero hz) (Exact.ofInt_den _)
  case toInt =>
    have h := ieeeToInt_of_valid (fnQuals fn) c ((ieeeValid_iff b).2 hb)
    rw [fnQuals_mode] at h
    exact (ieeeCode_fifteen c a b hop).trans h

/-- Settles O34: every result by `vaxDelivers_vaxResult` on the exact result, and CVTGQ by `vaxToInt_of_valid`. -/
theorem vaxArithmeticResult : Obligations.VaxArithmeticResult := by
  intro p _ c a b fn o op valid
  have hden (w : Word) : (vaxValue w).den ≠ 0 := by rw [vaxValue_den]; decide
  refine ⟨fun hop ha hb hdiv => ?arithmetic, fun hop hsrc hb => ?toF, fun hop hb => ?toD, fun hop hsrc hb => ?fromD,
    fun hop hsrc => ?fromInt, fun hop hb => ?toInt⟩
  case arithmetic =>
    have ha' := (vaxValid_iff a).2 ha
    have hb' := (vaxValid_iff b).2 hb
    have hcode : FpBinary.ofCode op = .div → op = 3 := FpBinary.ofCode_eq_div hop
    obtain ⟨hnumber, hden⟩ := FpBinary.exact_spec hop (vaxValue_den a) (vaxValue_den b) fun h => vaxValue_num_ne_zero (hdiv h)
    rw [vaxValue_number ha', vaxValue_number hb'] at hnumber
    rw [show o = _ from (vaxCode_binary c a b hop).trans (vaxBinary_of_valid (.ofCode op) _ (fnQuals fn) c ha' hb'
      fun h => hdiv (hcode h)), ← hnumber]
    by_cases hsrc : fnSrc fn = 0
    · rw [if_pos hsrc, if_pos (beq_iff_eq.2 hsrc)]
      exact vaxDelivers_vaxResult fn Format.ranges_f c hden
    · rw [if_neg hsrc, if_neg (mt beq_iff_eq.1 hsrc)]
      exact vaxDelivers_vaxResult fn Format.ranges_g c hden
  case toF =>
    have hb' := (vaxValid_iff b).2 hb
    rw [show o = _ from vaxCode_twelve c a b hop, if_neg (by omega), vaxFromG, hb', if_neg (by decide), ← vaxValue_number hb']
    exact vaxDelivers_vaxResult fn Format.ranges_f c (hden b)
  case toD =>
    have hb' := (vaxValid_iff b).2 hb
    rw [show o = _ from vaxCode_thirteen c a b hop, vaxFromG, hb', if_neg (by decide), ← vaxValue_number hb']
    exact vaxDelivers_vaxResult fn Format.ranges_d c (hden b)
  case fromD =>
    have hb' := (dValid_iff b).2 hb
    rw [show o = _ from vaxCode_fourteen c a b hop, if_neg (by omega), vaxFromD, hb', if_neg (by decide), ← dValue_number hb']
    exact vaxDelivers_vaxResult fn Format.ranges_g c (by rw [dValue_den]; decide)
  case fromInt =>
    rw [← Exact.ofInt_number]
    rcases hop with hop | hop
    · rw [show o = _ from vaxCode_twelve c a b hop, if_pos hsrc, if_pos hop]
      exact vaxDelivers_vaxResult fn Format.ranges_f c (Exact.ofInt_den _)
    · rw [show o = _ from vaxCode_fourteen c a b hop, if_pos hsrc, if_neg (by omega)]
      exact vaxDelivers_vaxResult fn Format.ranges_g c (Exact.ofInt_den _)
  case toInt =>
    have h := vaxToInt_of_valid (fnQuals fn) c ((vaxValid_iff b).2 hb)
    rw [fnQuals_vaxMode] at h
    exact (vaxCode_fifteen c a b hop).trans h

/-! ## Integers of up to 53 bits (R863, R865, R883, R885) -/

/-- An integer of magnitude at most `2 ^ 53` has 53 bits, and so is not rounded. -/
theorem Rounding.number_intCast (mode : Rounding) {n : Int} (hne : n ≠ 0) (hlow : -(2 ^ 53) ≤ n) (hhigh : n ≤ 2 ^ 53) :
    mode.number 53 (n : ℚ) = n := by
  by_cases hlt : |n| < 2 ^ 53
  · have h := Rounding.number_of_fits mode (prec := 53) (j := 0) hne (by exact_mod_cast hlt)
    rwa [zpow_zero, mul_one] at h
  · obtain ⟨k, hk, hn⟩ : ∃ k : Int, |k| = 1 ∧ n = k * 2 ^ 53 := by
      rcases le_or_gt 0 n with h | h
      · exact ⟨1, rfl, by rw [abs_of_nonneg h] at hlt; omega⟩
      · exact ⟨-1, rfl, by rw [abs_of_neg h] at hlt; omega⟩
    have hone : |(k : ℚ)| = 1 := by exact_mod_cast hk
    have h := Rounding.number_of_fits mode (prec := 53) (j := 53) (k := k) (by rintro rfl; cases hk) (by rw [hone]; norm_num)
    have hpow : ((2 ^ 53 : Int) : ℚ) = 2 ^ (53 : Int) := by norm_num
    rw [hn, Int.cast_mul, hpow]
    exact h

/-- Its magnitude is in the range of T and G. -/
theorem abs_intCast_in_range {n : Int} (hne : n ≠ 0) (hlow : -(2 ^ 53) ≤ n) (hhigh : n ≤ 2 ^ 53) {fmt : Format} {k : Nat}
    (hmost : fmt.emax - fmt.bias - ((fmt.prec : Int) - 1) = k) (hk : 53 ≤ k) (hprec : 1 ≤ fmt.prec) (hleast : fmt.emin ≤ fmt.bias) :
    ¬ fmt.most < |(n : ℚ)| ∧ ¬ |(n : ℚ)| < fmt.least := by
  have habs : |(n : ℚ)| ≤ 2 ^ 53 := by exact_mod_cast abs_le.2 ⟨hlow, hhigh⟩
  have hone : (1 : ℚ) ≤ |(n : ℚ)| := by exact_mod_cast Int.one_le_abs hne
  have hmono {i j : Nat} (h : i ≤ j) : (2 : ℚ) ^ i ≤ 2 ^ j := pow_le_pow_right₀ one_le_two h
  have hdouble : (2 : ℚ) ^ k + 2 ^ k ≤ 2 ^ (fmt.prec + k) := by
    rw [← two_mul, ← pow_succ']
    exact hmono (by omega)
  refine ⟨not_lt.2 (habs.trans ((hmono hk).trans ?_)), not_lt.2 (le_trans ?_ hone)⟩
  · rw [Format.most_eq hmost]
    linarith
  · exact zpow_le_one_of_nonpos₀ one_le_two (sub_nonpos.2 hleast)

theorem ieeeToInt_of_number (q : Quals) (c : FpControl) {v : Word} {n : Int} (hv : ieeeValid v = true) (hn : ieeeNumber v = n)
    (hlow : -(2 ^ 63) ≤ n) (hhigh : n < 2 ^ 63) : ieeeToInt q c v = ⟨some (BitVec.ofInt 64 n), 0#6, 0#6⟩ := by
  have hwide : ¬ (n < -(2 ^ 63) ∨ 2 ^ 63 ≤ n) := by omega
  rw [ieeeToInt_of_valid q c hv, hn, Rounding.integer_intCast]
  simp only [hwide, ne_eq, not_true, or_self, false_and, if_false]
  rfl

theorem vaxToInt_of_number (q : Quals) (c : FpControl) {v : Word} {n : Int} (hv : vaxValid v = true) (hn : vaxNumber v = n)
    (hlow : -(2 ^ 63) ≤ n) (hhigh : n < 2 ^ 63) : vaxToInt q c v = ⟨some (BitVec.ofInt 64 n), 0#6, 0#6⟩ := by
  have hwide : ¬ (n < -(2 ^ 63) ∨ 2 ^ 63 ≤ n) := by omega
  rw [vaxToInt_of_valid q c hv, hn, Rounding.integer_intCast]
  simp only [hwide, false_and, if_false]

theorem ieeeFromInt_of_fits (q : Quals) (c : FpControl) {n : Int} (hlow : -(2 ^ 53) ≤ n) (hhigh : n ≤ 2 ^ 53) :
    ∃ v, ieeeFromInt .t q c (BitVec.ofInt 64 n) = ⟨some v, 0#6, 0#6⟩ ∧ ieeeValid v = true ∧ ieeeNumber v = n := by
  have htoInt : (BitVec.ofInt 64 n).toInt = n := BitVec.toInt_ofInt_eq_self (by decide) (by omega) (by omega)
  by_cases hzero : n = 0
  · subst hzero
    exact ⟨0#64, rfl, by decide, by rw [ieeeNumber, fieldsNumber]; exact (if_pos rfl).trans Int.cast_zero.symm⟩
  · obtain ⟨hmost, hleast⟩ := abs_intCast_in_range hzero hlow hhigh (fmt := .t) (k := 971) rfl (by decide) (by decide) (by decide)
    have hexact : (q.round.mode c.dyn).number 53 (Exact.ofInt n).number = n := by
      rw [Exact.ofInt_number, Rounding.number_intCast _ hzero hlow hhigh]
    obtain ⟨-, -, hfits⟩ := ieeeResult_eq q c (x := .ofInt n) Format.readsAs_t (by decide) (Int.natAbs_ne_zero.2 hzero)
      (Exact.ofInt_den n)
    have hne : BitVec.ofInt 64 n ≠ 0#64 := fun h => hzero (by rw [← htoInt, h]; rfl)
    rw [show Format.t.prec = 53 from rfl, hexact, Exact.ofInt_number, if_pos rfl, if_pos rfl] at hfits
    obtain ⟨v, hv, hvalid, hnumber, -⟩ := hfits hmost hleast
    rw [ieeeFromInt, if_neg hne, htoInt]
    exact ⟨v, hv, hvalid, hnumber⟩

theorem vaxFromInt_of_fits (q : Quals) (c : FpControl) {n : Int} (hlow : -(2 ^ 53) ≤ n) (hhigh : n ≤ 2 ^ 53) :
    ∃ v, vaxFromInt .g q c (BitVec.ofInt 64 n) = ⟨some v, 0#6, 0#6⟩ ∧ vaxValid v = true ∧ vaxNumber v = n := by
  have htoInt : (BitVec.ofInt 64 n).toInt = n := BitVec.toInt_ofInt_eq_self (by decide) (by omega) (by omega)
  by_cases hzero : n = 0
  · subst hzero
    exact ⟨0#64, rfl, by decide, by rw [vaxNumber, fieldsNumber]; exact (if_pos rfl).trans Int.cast_zero.symm⟩
  · obtain ⟨hmost, hleast⟩ := abs_intCast_in_range hzero hlow hhigh (fmt := .g) (k := 970) rfl (by decide) (by decide) (by decide)
    have hexact : q.vaxMode.number 53 (Exact.ofInt n).number = n := by
      rw [Exact.ofInt_number, Rounding.number_intCast _ hzero hlow hhigh]
    have hnum : (Exact.ofInt n).num ≠ 0 := Int.natAbs_ne_zero.2 hzero
    obtain ⟨-, -, hfits⟩ := vaxResult_eq q c Format.readsAs_g (by decide) hnum (Exact.ofInt_den n)
    rw [show Format.g.prec = 53 from rfl, hexact] at hfits
    obtain ⟨v, hv, hvalid, hnumber, -⟩ := hfits hmost hleast
    rw [vaxFromInt, htoInt, vaxResultOrZero, if_neg hnum]
    exact ⟨v, hv, hvalid, hnumber⟩

/-- Settles O31: the integer is delivered unrounded, and what stands for it converts back to it. -/
theorem integerConversionsExact : Obligations.IntegerConversionsExact := by
  intro n q q' c c' hlow hhigh
  obtain ⟨v, hv, hvalid, hnumber⟩ := ieeeFromInt_of_fits q c hlow hhigh
  obtain ⟨w, hw, hvalid', hnumber'⟩ := vaxFromInt_of_fits q c hlow hhigh
  exact ⟨⟨v, hv, ieeeToInt_of_number q' c' hvalid hnumber (by omega) (by omega)⟩,
    ⟨w, hw, vaxToInt_of_number q' c' hvalid' hnumber' (by omega) (by omega)⟩⟩

end Sys2Proof.Machine
end


section
/-! Floating-point operates as instructions (R805 to R818, R830 to R842): their codes, what they leave when they complete and when they
trap, and what takes FEN or OPCDEC in their place. -/

namespace Sys2Proof.Machine

/-! ## Codes (R500, R501) -/

/-- In a table that names each key once, looking up the key of a row gives the row. -/
theorem lookup_of_mem {α : Type} {n : Nat} {table : List (BitVec n × α)} (hkeys : (table.map Prod.fst).Nodup)
    {p : BitVec n × α} (hp : p ∈ table) : lookup p.1 table = some p.2 := by
  induction table with
  | nil => cases hp
  | cons row rows ih =>
    rw [List.map_cons, List.nodup_cons] at hkeys
    obtain ⟨hfirst, hrest⟩ := hkeys
    rcases List.mem_cons.1 hp with rfl | hp'
    · exact if_pos rfl
    · have hne : p.1 ≠ row.1 := fun h => hfirst (h ▸ List.mem_map_of_mem hp')
      exact (if_neg hne).trans (ih hrest hp')

theorem fltiTable_keys : (fltiTable.map Prod.fst).Nodup := by decide +kernel

theorem fltvTable_keys : (fltvTable.map Prod.fst).Nodup := by decide +kernel

/-! ## Completing (R805, R810) -/

/-- Settles O24: the code by the table, the rest by `exec_fltiTable`. -/
theorem ieeeCompletes : Obligations.IeeeCompletes := by
  intro p hp fa fb fc s o
  refine ⟨decode_encIeee _ fa fb fc rfl (lookup_of_mem fltiTable_keys hp), fun hfpe hsum =>
    ⟨_, ?_, fpDone_finishFp s fc (p.1.getLsbD 10) hsum⟩⟩
  rw [exec_fltiTable p hp, State.ieeeRun, fpGate_on hfpe]

/-- Settles O25: the code by the table, the rest by `exec_fltvTable`. -/
theorem vaxCompletes : Obligations.VaxCompletes := by
  intro p hp fa fb fc s o
  refine ⟨decode_encFp _ fa fb fc rfl (lookup_of_mem fltvTable_keys hp), fun hfpe hsum =>
    ⟨_, ?_, fpDone_finishFp s fc (p.1.getLsbD 10) hsum⟩⟩
  rw [exec_fltvTable p hp, State.vaxRun, fpGate_on hfpe]

/-! ## Trapping (R113, R114, R810 to R816) -/

/-- Writing a result changes the registers alone, and one free value more is used if it is UNPREDICTABLE. -/
theorem State.writeFpResult_eq (s : State) (n : RegNum) (v : Option Word) : ∃ fregs count,
    s.writeFpResult n v = { s with fregs := fregs, freeCount := count } ∧ fregs = (s.writeFp n (v.getD s.freeNow)).fregs ∧
      (v ≠ none → count = s.freeCount) := by
  have hwrite (v : Word) : s.writeFp n v = { s with fregs := (s.writeFp n v).fregs } := by
    unfold State.writeFp
    split <;> rfl
  cases v with
  | some v => exact ⟨_, _, hwrite v, rfl, fun _ => rfl⟩
  | none =>
    exact ⟨(s.writeFp n s.freeNow).fregs, s.freeCount + 1, congrArg State.drawn (hwrite s.freeNow), rfl, fun h => absurd rfl h⟩

/-- EXC_SUM after a trap with or without /S: SWC is cleared, or set unless it is blocked (R113). -/
def swcAfter (sum : BitVec 7) (blocked soft : Bool) : BitVec 7 :=
  if soft then if blocked then sum else sum ||| 1#7 else sum &&& ~~~1#7

theorem State.recordSwc_eq (s : State) (soft : Bool) : s.recordSwc soft = { s with ibox := { s.ibox with
    excSum := swcAfter s.ibox.excSum s.ibox.swcBlocked soft, swcBlocked := s.ibox.swcBlocked || !soft } } := by
  cases soft with
  | false => rw [Bool.not_false, Bool.or_true]; rfl
  | true =>
    rw [Bool.not_true, Bool.or_false, State.recordSwc, if_pos rfl, swcAfter, if_pos rfl]
    split <;> rfl

theorem swcAfter_conds (sum : BitVec 7) (blocked soft : Bool) :
    (swcAfter sum blocked soft).extractLsb' 1 6 = sum.extractLsb' 1 6 ∧
      (swcAfter sum blocked soft).getLsbD 0 = (soft && (sum.getLsbD 0 || !blocked)) := by
  revert sum blocked soft
  decide

/-- `r` is what an instruction of `s` answers that writes `o` to `fc` and signals its conditions: ARITH is taken in `u`. -/
def State.reportsFp (s : State) (r : Res State) (fc : RegNum) (soft : Bool) (o : FpOutcome) : Prop :=
  ∃ u t : State, r = .next t ∧ u.trapped t 0x0500#14 (s.pc + 4#64) ∧
    s.fpWrite u fc (o.value.getD s.freeNow) ∧ u.fpcr = s.fpcr ||| o.fpcr.setWidth 11 ∧
    (o.value ≠ none → u.freeCount = s.freeCount) ∧
    u.ibox.excSum.extractLsb' 1 6 = s.ibox.excSum.extractLsb' 1 6 ||| o.sum ∧
    u.ibox.excSum.getLsbD 0 = (soft && (s.ibox.excSum.getLsbD 0 || !s.ibox.swcBlocked)) ∧
    u.ibox.swcBlocked = (s.ibox.swcBlocked || !soft) ∧
    u.ibox.excMask = s.ibox.excMask ||| (1#64 <<< (32 + fc.toNat)) ∧
    { u with
      fregs := s.fregs, fpcr := s.fpcr, freeCount := s.freeCount
      ibox := { u.ibox with
        excSum := s.ibox.excSum, excMask := s.ibox.excMask, swcBlocked := s.ibox.swcBlocked } } = s

/-- The state in which such an instruction takes ARITH. -/
def State.fpTrapping (s : State) (fc : RegNum) (soft : Bool) (o : FpOutcome) : State :=
  (((s.writeFpResult fc o.value).recordFpcr o.fpcr).recordSum o.sum (32 + fc.toNat)).recordSwc soft

theorem State.fpTrapping_eq (s : State) (fc : RegNum) (soft : Bool) (o : FpOutcome) : ∃ fregs count,
    s.fpTrapping fc soft o = { s with
      fregs := fregs, freeCount := count, fpcr := s.fpcr ||| o.fpcr.setWidth 11
      ibox := { s.ibox with
        excSum := swcAfter (s.ibox.excSum ||| (o.sum ++ 0#1)) s.ibox.swcBlocked soft
        swcBlocked := s.ibox.swcBlocked || !soft
        excMask := s.ibox.excMask ||| (1#64 <<< (32 + fc.toNat)) } } ∧
      fregs = (s.writeFp fc (o.value.getD s.freeNow)).fregs ∧ (o.value ≠ none → count = s.freeCount) := by
  obtain ⟨fregs, count, hwrite, hregs, hcount⟩ := s.writeFpResult_eq fc o.value
  refine ⟨fregs, count, ?_, hregs, hcount⟩
  rw [State.fpTrapping, State.recordSwc_eq, hwrite]
  rfl

theorem reportsFp_finishFp (s : State) (fc : RegNum) (soft : Bool) {o : FpOutcome} (h : o.sum ≠ 0#6) :
    s.reportsFp (.next (s.finishFp fc soft o)) fc soft o := by
  have hsum : (s.ibox.excSum ||| (o.sum ++ 0#1)).extractLsb' 1 6 = s.ibox.excSum.extractLsb' 1 6 ||| o.sum := by
    rw [BitVec.extractLsb'_or, extract_cat_hi _ _ _ _ le_rfl, extract_all]
  have hbit : (s.ibox.excSum ||| (o.sum ++ 0#1)).getLsbD 0 = s.ibox.excSum.getLsbD 0 := by
    rw [BitVec.getLsbD_or, bit_cat_lo _ _ _ Nat.one_pos, BitVec.getLsbD_zero, Bool.or_false]
  obtain ⟨hconds, hswc⟩ := swcAfter_conds (s.ibox.excSum ||| (o.sum ++ 0#1)) s.ibox.swcBlocked soft
  rw [hsum] at hconds
  rw [hbit] at hswc
  have hfinish : s.finishFp fc soft o = (s.fpTrapping fc soft o).arith := if_neg h
  obtain ⟨fregs, count, htrap, hregs, hcount⟩ := s.fpTrapping_eq fc soft o
  rw [hfinish, htrap]
  exact ⟨_, _, rfl, trapped_trap _ .arith _, State.fpWrite_congr (fpWrite_writeFp s fc _) hregs, rfl, hcount, hconds, hswc, rfl, rfl,
    rfl⟩

/-- Settles O26: the instruction is its function code's operation, which signals something. -/
theorem floatTraps : Obligations.FloatTraps := by
  rw [Obligations.FloatTraps, List.forall_mem_cons, List.forall_mem_singleton]
  refine ⟨?ieee, ?vax⟩
  case ieee =>
    intro p hp fa fb fc s o soft hfpe hsum
    rw [exec_fltiTable p hp, State.ieeeRun, fpGate_on hfpe]
    exact reportsFp_finishFp s fc soft hsum
  case vax =>
    intro p hp fa fb fc s o soft hfpe hsum
    rw [exec_fltvTable p hp, State.vaxRun, fpGate_on hfpe]
    exact reportsFp_finishFp s fc soft hsum

/-! ## CVTQL (R834) -/

theorem place_getLsbD {n : Nat} (f : BitVec n) (lo : Nat) {i : Nat} (hi : i < 64) :
    (place f lo).getLsbD i = (decide (lo ≤ i) && f.getLsbD (i - lo)) := by
  rw [place, BitVec.getLsbD_shiftLeft, BitVec.getLsbD_setWidth, decide_eq_true hi, decide_eq_true (show i - lo < 64 by omega)]
  by_cases h : i < lo
  · simp [h]
  · simp [h, not_lt.1 h]

/-- Bits <31:0> as the fields of the register form (R804): compared bit by bit in each of its four fields. -/
theorem longwordForm_eq (b : Word) : longwordForm b = b.extractLsb' 30 2 ++ (0#3 ++ (b.extractLsb' 0 30 ++ 0#29)) := by
  apply BitVec.eq_of_getLsbD_eq
  intro i hi
  rw [longwordForm, BitVec.getLsbD_or, place_getLsbD _ _ hi, place_getLsbD _ _ hi, field, field]
  rcases Nat.lt_or_ge i 62 with htop | htop
  · have hnot : decide (62 ≤ i) = false := decide_eq_false (by omega)
    rcases Nat.lt_or_ge i 29 with hlow | hlow
    · simp (disch := omega) only [bit_cat_lo, BitVec.getLsbD_zero, hnot, decide_eq_false, Bool.false_and, Bool.or_false]
    rcases Nat.lt_or_ge i 59 with hmid | hmid
    · simp (disch := omega) only [bit_cat_lo, bit_cat_hi, hnot, decide_eq_true, Bool.false_and, Bool.false_or, Bool.true_and]
    · simp (disch := omega) only [bit_cat_lo, bit_cat_hi, hnot, decide_eq_true, Bool.false_and, Bool.false_or, Bool.true_and,
        BitVec.getLsbD_zero, BitVec.getLsbD_of_ge]
  · simp (disch := omega) only [bit_cat_hi, decide_eq_true, Bool.true_and, BitVec.getLsbD_of_ge, Bool.or_false]

/-- A quadword is the sign extension of its low longword exactly when its number has 32 bits. -/
theorem sextLong_eq_self_iff (b : Word) : sextLong b = b ↔ -(2 ^ 31) ≤ b.toInt ∧ b.toInt < 2 ^ 31 := by
  refine ⟨fun h => ?_, fun ⟨hlow, hhigh⟩ => ?_⟩
  · have hnumber : b.toInt = (b.setWidth 32).toInt := by
      rw [← BitVec.toInt_signExtend_of_le (x := b.setWidth 32) (v := 64) (by decide)]
      exact congrArg BitVec.toInt h.symm
    rw [hnumber]
    exact ⟨BitVec.le_toInt _, BitVec.toInt_lt⟩
  · have h := signExtend_setWidth_ofInt (w := 32) (n := b.toInt) (by decide) (by decide) hlow hhigh
    rwa [BitVec.ofInt_toInt] at h

/-- A quadword that fits is converted without a condition; any other one overflows. -/
theorem quadToLong_eq (q : Quals) (b : Word) :
    (sextLong b = b → quadToLong q b = .ok (longwordForm b)) ∧
      (sextLong b ≠ b → quadToLong q b = ⟨some (longwordForm b), 0x30#6, if q.trap then 0x20#6 else 0#6⟩) := by
  refine ⟨fun h => ?_, fun h => ?_⟩
  · rw [quadToLong, bne_eq_false_iff_eq.2 h]
    rfl
  · rw [quadToLong, bne_iff_ne.2 h, Bool.true_and]
    rfl

theorem State.finishFp_ok (s : State) (fc : RegNum) (soft : Bool) (v : Word) :
    s.finishFp fc soft (.ok v) = (s.writeFp fc v).advance := by
  have hfpcr (t : State) : t.recordFpcr 0#6 = t := by
    rw [State.recordFpcr, BitVec.setWidth_zero, BitVec.or_zero]
  rw [State.finishFp, if_pos (show (FpOutcome.ok v).sum = 0#6 from rfl)]
  exact congrArg State.advance (hfpcr _)

/-- A result with status bits and no signal: the FPCR apart, it is a plain result. -/
theorem onlyFp_finishFp_status (s : State) (fc : RegNum) (soft : Bool) (v : Word) (c : Conds) :
    let t := s.finishFp fc soft ⟨some v, c, 0#6⟩
    t.fpcr = s.fpcr ||| c.setWidth 11 ∧ s.onlyFp { t with fpcr := s.fpcr } fc v := by
  obtain ⟨-, hfpcr, -⟩ := fpDone_finishFp s fc soft (o := ⟨some v, c, 0#6⟩) rfl
  have hback : { s.finishFp fc soft ⟨some v, c, 0#6⟩ with fpcr := s.fpcr } = (s.writeFp fc v).advance := by
    rw [← s.writeFp_fpcr fc v]
    rfl
  refine ⟨hfpcr, ?_⟩
  rw [hback]
  exact onlyFp_writeFp s fc v

/-- `r` is what CVTQL/V of `s` answers when it overflows: the longword `v` is written and ARITH is taken in `u`. -/
def State.reportsLongOverflow (s : State) (r : Res State) (fc : RegNum) (soft : Bool) (v : Word) : Prop :=
  ∃ u t : State, r = .next t ∧ u.trapped t 0x0500#14 (s.pc + 4#64) ∧ s.fpWrite u fc v ∧
    u.fpcr = s.fpcr ||| 0x030#11 ∧ u.ibox.excSum.extractLsb' 1 6 = s.ibox.excSum.extractLsb' 1 6 ||| 0x20#6 ∧
    u.ibox.excSum.getLsbD 0 = (soft && (s.ibox.excSum.getLsbD 0 || !s.ibox.swcBlocked)) ∧
    u.ibox.excMask = s.ibox.excMask ||| (1#64 <<< (32 + fc.toNat)) ∧
    { u with
      fregs := s.fregs, fpcr := s.fpcr
      ibox := { u.ibox with
        excSum := s.ibox.excSum, excMask := s.ibox.excMask, swcBlocked := s.ibox.swcBlocked } } = s

theorem State.reportsFp.longOverflow {s : State} {r : Res State} {fc : RegNum} {soft : Bool} {v : Word}
    (h : s.reportsFp r fc soft ⟨some v, 0x30#6, 0x20#6⟩) : s.reportsLongOverflow r fc soft v := by
  obtain ⟨u, t, hr, htrap, hwrite, hfpcr, hcount, hconds, hswc, -, hmask, hframe⟩ := h
  rw [← hcount (Option.some_ne_none v)] at hframe
  exact ⟨u, t, hr, htrap, hwrite, hfpcr, hconds, hswc, hmask, hframe⟩

/-- One row of CVTQL: its code, and what the operation leaves on either side of the range. -/
theorem cvtql_row {fn : BitVec 11} {mk : MkFp} {trap soft : Bool} (hfn : lookup fn fltlTable = some mk)
    (hexec : ∀ fa fb fc (s : State), exec (mk fa fb fc) s = s.fpGate fun s => .next (s.cvtql ⟨.normal, trap, soft, false⟩ fb fc))
    (fa fb fc : RegNum) (s : State) :
    let b := s.readFp fb
    let v : Word := b.extractLsb' 30 2 ++ (0#3 ++ (b.extractLsb' 0 30 ++ 0#29))
    let fits := -(2 ^ 31) ≤ b.toInt ∧ b.toInt < 2 ^ 31
    decode (encFp 0x17#6 fn fa fb fc) = .ok (mk fa fb fc) ∧
      (s.fpe = true →
        (fits → ∃ t, exec (mk fa fb fc) s = .next t ∧ s.onlyFp t fc v) ∧
        (¬ fits → trap = false →
          ∃ t, exec (mk fa fb fc) s = .next t ∧ t.fpcr = s.fpcr ||| 0x030#11 ∧ s.onlyFp { t with fpcr := s.fpcr } fc v) ∧
        (¬ fits → trap = true → s.reportsLongOverflow (exec (mk fa fb fc) s) fc soft v)) := by
  intro b v fits
  obtain ⟨hin, hout⟩ := quadToLong_eq ⟨.normal, trap, soft, false⟩ b
  rw [longwordForm_eq] at hin hout
  have hfits := sextLong_eq_self_iff b
  refine ⟨decode_encFp _ fa fb fc rfl hfn, fun hfpe => ?_⟩
  rw [hexec, fpGate_on hfpe, State.cvtql]
  refine ⟨fun h => ?_, fun h htrap => ?_, fun h htrap => ?_⟩
  · rw [hin (hfits.2 h), State.finishFp_ok]
    exact ⟨_, rfl, onlyFp_writeFp s fc v⟩
  · rw [hout (mt hfits.1 h), htrap]
    exact ⟨_, rfl, onlyFp_finishFp_status s fc soft v 0x30#6⟩
  · rw [hout (mt hfits.1 h), htrap]
    exact (reportsFp_finishFp s fc soft (o := ⟨some v, 0x30#6, 0x20#6⟩)
      (show (0x20#6 : Conds) ≠ 0#6 by decide)).longOverflow

/-- Settles O35: the three rows. -/
theorem convertQuadToLong : Obligations.ConvertQuadToLong := by
  rw [Obligations.ConvertQuadToLong, List.forall_mem_cons, List.forall_mem_cons, List.forall_mem_singleton]
  exact ⟨cvtql_row rfl fun _ _ _ _ => rfl, cvtql_row rfl fun _ _ _ _ => rfl, cvtql_row rfl fun _ _ _ _ => rfl⟩

/-! ## Copies (R830 to R833, R841, R842) -/

theorem cat_toNat {m n : Nat} (x : BitVec m) (y : BitVec n) : (x ++ y).toNat = x.toNat * 2 ^ n + y.toNat := by
  rw [BitVec.toNat_append, ← Nat.shiftLeft_add_eq_or_of_lt y.isLt, Nat.shiftLeft_eq]

theorem field_toNat (v : Word) (lo n : Nat) : (field v lo n).toNat = v.toNat / 2 ^ lo % 2 ^ n := by
  rw [field, BitVec.extractLsb'_toNat, Nat.shiftRight_eq_div_pow]

/-- A word is given by its number. -/
theorem eq_ofNat_of_toNat {w : Nat} {v : BitVec w} {n : Nat} (h : v.toNat = n) : v = BitVec.ofNat w n := by
  rw [← h, BitVec.ofNat_toNat, BitVec.setWidth_eq]

theorem copySign_eq (a b : Word) : copySign a b = BitVec.ofNat 64 (a.toNat / 2 ^ 63 * 2 ^ 63 + b.toNat % 2 ^ 63) := by
  apply eq_ofNat_of_toNat
  have ha := a.isLt
  rw [copySign, cat_toNat, field_toNat, field_toNat]
  omega

theorem copySignNegate_eq (a b : Word) :
    copySignNegate a b = BitVec.ofNat 64 ((1 - a.toNat / 2 ^ 63) * 2 ^ 63 + b.toNat % 2 ^ 63) := by
  apply eq_ofNat_of_toNat
  have ha := a.isLt
  rw [copySignNegate, cat_toNat, BitVec.toNat_not, field_toNat, field_toNat]
  omega

theorem copySignExp_eq (a b : Word) : copySignExp a b = BitVec.ofNat 64 (a.toNat / 2 ^ 52 * 2 ^ 52 + b.toNat % 2 ^ 52) := by
  apply eq_ofNat_of_toNat
  have ha := a.isLt
  rw [copySignExp, cat_toNat, field_toNat, field_toNat]
  omega

theorem longToQuad_eq (b : Word) : longToQuad b =
    BitVec.ofInt 64 (BitVec.ofNat 32 (b.toNat / 2 ^ 62 * 2 ^ 30 + b.toNat / 2 ^ 29 % 2 ^ 30)).toInt := by
  have hlong : field b 62 2 ++ field b 29 30 = BitVec.ofNat 32 (b.toNat / 2 ^ 62 * 2 ^ 30 + b.toNat / 2 ^ 29 % 2 ^ 30) := by
    apply eq_ofNat_of_toNat
    have hb := b.isLt
    rw [cat_toNat, field_toNat, field_toNat]
    omega
  rw [longToQuad, hlong, BitVec.signExtend]

/-- What MF_FPCR reads, field by field (R39). -/
theorem State.fpcrView_eq (s : State) :
    s.fpcrView = (if s.fpcr.extractLsb' 0 6 = 0#6 then 0#1 else 1#1) ++ (s.fpcr ++ 0#52) := by
  have hsummary : (if s.fpcr.extractLsb' 0 6 = 0#6 then 0#1 else 1#1) = BitVec.ofBool (s.fpcr.setWidth 6 != 0#6) := by
    rw [← BitVec.setWidth_eq_extractLsb' (by decide)]
    by_cases h : s.fpcr.setWidth 6 = 0#6
    · rw [if_pos h, bne_eq_false_iff_eq.2 h]
      rfl
    · rw [if_neg h, bne_iff_ne.2 h]
      rfl
  have hplace (b : Bool) : placeBit b 63 = place (BitVec.ofBool b) 63 := by cases b <;> rfl
  rw [hsummary, State.fpcrView, hplace]
  generalize BitVec.ofBool (s.fpcr.setWidth 6 != 0#6) = top
  apply BitVec.eq_of_getLsbD_eq
  intro i hi
  rw [BitVec.getLsbD_or, place_getLsbD _ _ hi, place_getLsbD _ _ hi]
  rcases Nat.lt_or_ge i 63 with htop | htop
  · have hnot : decide (63 ≤ i) = false := decide_eq_false (by omega)
    rcases Nat.lt_or_ge i 52 with hlow | hlow
    · simp (disch := omega) only [bit_cat_lo, BitVec.getLsbD_zero, hnot, decide_eq_false, Bool.false_and, Bool.or_false]
    · simp (disch := omega) only [bit_cat_lo, bit_cat_hi, hnot, decide_eq_true, Bool.false_and, Bool.false_or, Bool.true_and]
  · simp (disch := omega) only [bit_cat_hi, decide_eq_true, Bool.true_and, BitVec.getLsbD_of_ge, Bool.or_false]

/-- One row of the copies: its code, and the rule's value. -/
theorem fpCopy_row {fn : BitVec 11} {mk : MkFp} {value : Word → Word → Word} (hfn : lookup fn fltlTable = some mk)
    (hexec : ∀ fa fb fc (s : State), exec (mk fa fb fc) s =
      s.fpGate fun s => .next (s.fpCopy fc (value (s.readFp fa) (s.readFp fb))))
    {rule : Word → Word → Word} (hvalue : ∀ a b, value a b = rule a b) (fa fb fc : RegNum) (s : State) :
    decode (encFp 0x17#6 fn fa fb fc) = .ok (mk fa fb fc) ∧
      (s.fpe = true → ∃ t, exec (mk fa fb fc) s = .next t ∧ s.onlyFp t fc (rule (s.readFp fa) (s.readFp fb))) := by
  refine ⟨decode_encFp _ fa fb fc rfl hfn, fun hfpe => ?_⟩
  rw [hexec, fpGate_on hfpe, State.fpCopy, State.finishFp_ok, ← hvalue]
  exact ⟨_, rfl, onlyFp_writeFp s fc _⟩

/-- One row of the conditional moves: its code, and its test for its condition. -/
theorem fcmov_row {fn : BitVec 11} {mk : MkFp} {test : Word → Bool} {c : Word → Prop} (hfn : lookup fn fltlTable = some mk)
    (hexec : ∀ fa fb fc (s : State), exec (mk fa fb fc) s = s.fpGate fun s => .next (s.fcmov test fa fb fc))
    (hc : ∀ a, test a = true ↔ c a) (fa fb fc : RegNum) (s : State) :
    decode (encFp 0x17#6 fn fa fb fc) = .ok (mk fa fb fc) ∧
      (s.fpe = true →
        (c (s.readFp fa) → ∃ t, exec (mk fa fb fc) s = .next t ∧ s.onlyFp t fc (s.readFp fb)) ∧
        (¬ c (s.readFp fa) → exec (mk fa fb fc) s = .next { s with pc := s.pc + 4#64 })) := by
  refine ⟨decode_encFp _ fa fb fc rfl hfn, fun hfpe => ?_⟩
  rw [hexec, fpGate_on hfpe, State.fcmov]
  refine ⟨fun h => ?_, fun h => ?_⟩
  · rw [if_pos ((hc _).2 h)]
    exact ⟨_, rfl, onlyFp_writeFp s fc _⟩
  · rw [if_neg (mt (hc _).1 h)]
    rfl

/-- Settles O32: the copies and the conditional moves row by row, and the FPCR by its fields. -/
theorem floatCopies : Obligations.FloatCopies := by
  refine ⟨?copies, fun fa fb fc s => ⟨decode_encFp _ _ _ _ rfl rfl, decode_encFp _ _ _ _ rfl rfl, fun hfpe => ⟨?write, ?read⟩⟩,
    ?moves⟩
  case copies =>
    rw [List.forall_mem_cons, List.forall_mem_cons, List.forall_mem_cons, List.forall_mem_singleton]
    exact ⟨fpCopy_row rfl (fun _ _ _ _ => rfl) copySign_eq, fpCopy_row rfl (fun _ _ _ _ => rfl) copySignNegate_eq,
      fpCopy_row rfl (fun _ _ _ _ => rfl) copySignExp_eq, fpCopy_row rfl (fun _ _ _ _ => rfl) fun _ b => longToQuad_eq b⟩
  case write =>
    rw [show exec (.mtFpcr fa fb fc) s = execMtFpcr fa fb fc s from rfl, execMtFpcr, fpGate_on hfpe]
    rfl
  case read =>
    rw [← State.fpcrView_eq, show exec (.mfFpcr fa fb fc) s = execMfFpcr fa fb fc s from rfl, execMfFpcr, fpGate_on hfpe]
    exact ⟨_, rfl, onlyFp_writeFp s fa _⟩
  case moves =>
    rw [List.forall_mem_cons, List.forall_mem_cons, List.forall_mem_cons, List.forall_mem_cons, List.forall_mem_cons,
      List.forall_mem_singleton]
    exact ⟨fcmov_row rfl (fun _ _ _ _ => rfl) fpEq_iff, fcmov_row rfl (fun _ _ _ _ => rfl) fpNe_iff,
      fcmov_row rfl (fun _ _ _ _ => rfl) fpLt_iff, fcmov_row rfl (fun _ _ _ _ => rfl) fpGe_iff,
      fcmov_row rfl (fun _ _ _ _ => rfl) fpLe_iff, fcmov_row rfl (fun _ _ _ _ => rfl) fpGt_iff⟩

/-! ## Instructions that are not enabled (R542, R569, R680, R703, R805) -/

/-- A gated instruction takes FEN while floating point is disabled. -/
theorem trapped_of_fpGate {s : State} {r : Res State} {f : State → Res State} (h : s.fpe = false) (hr : r = s.fpGate f) :
    ∃ t, r = .next t ∧ s.trapped t 0x0580#14 s.pc :=
  ⟨_, hr.trans (fpGate_off h f), trapped_precise s .fen⟩

/-- An instruction of the PALcode opcodes takes OPCDEC where it is not allowed. -/
theorem trapped_of_palGate {s : State} {r : Res State} {f : State → Res State} (h : s.palAllowed = false) (hr : r = s.palGate f) :
    ∃ t, r = .next t ∧ s.trapped t 0x0480#14 s.pc :=
  ⟨_, hr.trans (palGate_off h f), trapped_precise s .opcdec⟩

theorem State.palAllowed_eq_false {s : State} (h : ¬ (s.palmode = true ∨ s.ibox.icsr.getLsbD 27 = true ∧ s.ibox.icm = 0#2)) :
    s.palAllowed = false := by
  rw [← Bool.not_eq_true, State.palAllowed, Bool.or_eq_true, Bool.and_eq_true, State.kernel, beq_iff_eq]
  exact h

/-- Every instruction of opcode 17 is gated. -/
theorem exec_fltlTable : ∀ p ∈ fltlTable, ∃ run : RegNum → RegNum → RegNum → State → Res State,
    ∀ fa fb fc (s : State), exec (p.2 fa fb fc) s = s.fpGate (run fa fb fc) := by
  intro p hp
  fin_cases hp <;> exact ⟨_, fun _ _ _ _ => rfl⟩

/-- Every floating-point load and store is gated. -/
theorem exec_fpMemory : ∀ mk ∈ [Instr.ldf, Instr.ldg, Instr.lds, Instr.ldt, Instr.stf, Instr.stg, Instr.sts, Instr.stt],
    ∃ run : RegNum → RegNum → BitVec 16 → State → Res State,
      ∀ ra rb disp (s : State), exec (mk ra rb disp) s = s.fpGate (run ra rb disp) := by
  intro mk hmk
  fin_cases hmk <;> exact ⟨_, fun _ _ _ _ => rfl⟩

/-- Every floating-point branch is gated. -/
theorem exec_fpBranch : ∀ mk ∈ [Instr.fbeq, Instr.fbne, Instr.fblt, Instr.fble, Instr.fbgt, Instr.fbge],
    ∃ run : RegNum → BitVec 21 → State → Res State, ∀ ra disp (s : State), exec (mk ra disp) s = s.fpGate (run ra disp) := by
  intro mk hmk
  fin_cases hmk <;> exact ⟨_, fun _ _ _ => rfl⟩

/-- A word of a PALcode opcode is one of the five PALcode instructions, all of them gated (R489 to R491, R680). -/
theorem decode_palcode {w : Longword} (hw : w.extractLsb' 26 6 ∈ [0x19#6, 0x1B#6, 0x1D#6, 0x1E#6, 0x1F#6]) :
    ∃ i, decode w = .ok i ∧ ∃ run : State → Res State, ∀ s : State, exec i s = s.palGate run := by
  simp only [List.mem_cons, List.not_mem_nil, or_false] at hw
  rcases hw with h | h | h | h | h
  · have hop : opClass (fOp w) = .mem .hwMfpr := by rw [fOp, h]; rfl
    exact ⟨.hwMfpr (fRa w) (fRb w) (fDisp16 w), by simp only [decode, hop], _, fun _ => rfl⟩
  · have hop : opClass (fOp w) = .hwLd := by rw [fOp, h]; rfl
    exact ⟨.hwLd (fRa w) (fRb w) (fBit w 15) (fBit w 14) (fBit w 13) (fBit w 12) (fBit w 11) (fBit w 10) (fDisp10 w),
      by simp only [decode, hop], _, fun _ => rfl⟩
  · have hop : opClass (fOp w) = .mem .hwMtpr := by rw [fOp, h]; rfl
    exact ⟨.hwMtpr (fRa w) (fRb w) (fDisp16 w), by simp only [decode, hop], _, fun _ => rfl⟩
  · have hop : opClass (fOp w) = .hwRei := by rw [fOp, h]; rfl
    exact ⟨.hwRei (fRa w) (fRb w) (fTop2 w) (fLow14 w), by simp only [decode, hop], _, fun _ => rfl⟩
  · have hop : opClass (fOp w) = .hwSt := by rw [fOp, h]; rfl
    exact ⟨.hwSt (fRa w) (fRb w) (fBit w 15) (fBit w 14) (fBit w 13) (fBit w 12) (fBit w 11) (fBit w 10) (fDisp10 w),
      by simp only [decode, hop], _, fun _ => rfl⟩

/-- Settles O23: each instruction named is gated, and the gate is closed. -/
theorem disabledInstructions : Obligations.DisabledInstructions := by
  refine ⟨fun s hfpe => ⟨fun p hp fa fb fc => ?operate, ?memory, ?branch⟩, fun w hw => ?palcode⟩
  case operate =>
    rcases List.mem_append.1 hp with hp | hp
    · rcases List.mem_append.1 hp with hp | hp
      · exact trapped_of_fpGate hfpe (exec_fltvTable p hp fa fb fc s)
      · exact trapped_of_fpGate hfpe (exec_fltiTable p hp fa fb fc s)
    · obtain ⟨run, hrun⟩ := exec_fltlTable p hp
      exact trapped_of_fpGate hfpe (hrun fa fb fc s)
  case memory =>
    intro mk hmk ra rb disp
    obtain ⟨run, hrun⟩ := exec_fpMemory mk hmk
    exact trapped_of_fpGate hfpe (hrun ra rb disp s)
  case branch =>
    intro mk hmk ra disp
    obtain ⟨run, hrun⟩ := exec_fpBranch mk hmk
    exact trapped_of_fpGate hfpe (hrun ra disp s)
  case palcode =>
    obtain ⟨i, hdecode, run, hrun⟩ := decode_palcode hw
    exact ⟨i, hdecode, fun s hs => trapped_of_palGate (State.palAllowed_eq_false hs) (hrun s)⟩

end Sys2Proof.Machine
end

section
/-! What reset leaves, the invariants it meets, and the words that the spec prints (R480, R956, R972). -/

namespace Sys2Proof.Machine

/-- Settles O55: each value as `State.reset` gives it; every DTB entry is `DtbEntry.reset`. -/
theorem resetState : Obligations.ResetState := by
  refine ⟨rfl, rfl, by decide, rfl, fun k => ?_, rfl, rfl, rfl, rfl, rfl, rfl, by decide, rfl, rfl, rfl, rfl, rfl, rfl⟩
  have hentry : State.reset.dtb.entries[k] = DtbEntry.reset := Vector.getElem_replicate k.isLt
  rw [hentry]
  rfl

/-- Settles O56: the registers by evaluation; memory lists nothing. -/
theorem resetInvariant : Obligations.ResetInvariant :=
  ⟨⟨by decide, by decide⟩, ⟨by decide, by decide⟩, rfl, fun _ hc => absurd hc (List.not_mem_nil)⟩

/-- Settles O60: each printed word is what the fields of its format put together, which decode as their row of the tables. -/
theorem decodeWords : Obligations.DecodeWords :=
  ⟨decode_encOpr 0x10#6 1#5 3#5 rfl (fn := 0x00#7) rfl (.reg 2#5), decode_encMem 0x28#6 1#5 2#5 rfl 0#16,
    decode_encBra 0x39#6 1#5 rfl 0x1FFFFE#21, decode_encJump 31#5 27#5 (sel := 0#2) rfl 0#14,
    decode_encIeee 0x16#6 1#5 2#5 3#5 (fn := 0x0A0#11) rfl rfl,
    decode_encOpr 0x11#6 31#5 31#5 rfl (fn := 0x20#7) rfl (.reg 31#5),
    decode_encMem 0x1D#6 31#5 31#5 rfl 0x0119#16, decode_encMisc 31#5 31#5 (fn := 0x4000#16) rfl⟩

end Sys2Proof.Machine
end

section
/-! Words that name no instruction: the reserved opcodes and the unused function codes (R502, R503, R688; D16, D17). -/

namespace Sys2Proof.Machine

/-! ## Which words fail to decode -/

/-- How an unused function code of a class of opcodes is rejected; the other classes have none (R503). -/
def classReject : OpClass → Longword → Option Reject
  | .opr _, w => some (.unusedInt (fRc w))
  | .fp _, w => some (.unusedFp (fRc w))
  | .ieee _, w => some (.unusedIeee (w.extractLsb' 9 2) (fRc w))
  | .misc, _ => some .unusedMisc
  | _, _ => none

/-- The classes with a table of function codes, by their opcodes (R492). -/
def rejectOf (op : BitVec 6) (w : Longword) : Option Reject :=
  if op ∈ [0x10#6, 0x11#6, 0x12#6, 0x13#6] then some (.unusedInt (fRc w))
  else if op = 0x16#6 then some (.unusedIeee (w.extractLsb' 9 2) (fRc w))
  else if op ∈ [0x15#6, 0x17#6] then some (.unusedFp (fRc w))
  else if op = 0x18#6 then some .unusedMisc
  else none

theorem classReject_opClass (op : BitVec 6) (w : Longword) : classReject (opClass op) w = rejectOf op w := by
  obtain ⟨⟨k, hk⟩⟩ := op
  interval_cases k <;> rfl

/-- All four selectors of a jump are in the table (R498). -/
theorem lookup_jumpTable_ne_none (sel : BitVec 2) : lookup sel jumpTable ≠ none := by
  obtain ⟨⟨k, hk⟩⟩ := sel
  interval_cases k <;> exact Option.some_ne_none _

/-- A word fails to decode only for a function code that its opcode's table does not list. -/
theorem rejectOf_of_decode {w : Longword} {r : Reject} (h : decode w = .error r) : rejectOf (fOp w) w = some r := by
  rw [← classReject_opClass]
  unfold decode at h
  cases hclass : opClass (fOp w) with
  | jump =>
    rw [hclass] at h
    dsimp only at h
    split at h
    · cases h
    · next hnone => exact absurd hnone (lookup_jumpTable_ne_none _)
  | opr table | fp table | ieee table | misc =>
    rw [hclass] at h
    dsimp only at h
    split at h
    · cases h
    · cases h
      rfl
  | pal | mem | bra | hwLd | hwSt | hwRei | res =>
    rw [hclass] at h
    cases h

/-- The words that fail to decode, by their opcodes. -/
theorem reject_cases {w : Longword} {r : Reject} (h : decode w = .error r) :
    fOp w ∈ [0x10#6, 0x11#6, 0x12#6, 0x13#6] ∧ r = .unusedInt (fRc w) ∨
    fOp w = 0x16#6 ∧ r = .unusedIeee (w.extractLsb' 9 2) (fRc w) ∨
    fOp w ∈ [0x15#6, 0x17#6] ∧ r = .unusedFp (fRc w) ∨
    fOp w = 0x18#6 ∧ r = .unusedMisc := by
  have hreject := rejectOf_of_decode h
  unfold rejectOf at hreject
  split_ifs at hreject with hint hieee hfp hmisc
  · exact .inl ⟨hint, (Option.some.inj hreject).symm⟩
  · exact .inr (.inl ⟨hieee, (Option.some.inj hreject).symm⟩)
  · exact .inr (.inr (.inl ⟨hfp, (Option.some.inj hreject).symm⟩))
  · exact .inr (.inr (.inr ⟨hmisc, (Option.some.inj hreject).symm⟩))

/-! ## What such a word does -/

theorem State.runWord_of_reject {w : Longword} {r : Reject} (h : decode w = .error r) (s : State) :
    s.runWord w = .next (s.runUnused r) := by
  rw [State.runWord, h]

/-- An integer destination receives any value. -/
theorem onlyInt_anyValue (s : State) (rc : RegNum) (v : Word) :
    s.onlyInt { (s.writeInt rc v).drawn.advance with freeCount := s.freeCount } rc v := by
  have hwrite : { (s.writeInt rc v).drawn.advance with freeCount := s.freeCount } = (s.writeInt rc v).advance := by
    unfold State.writeInt State.writeSlot
    split <;> rfl
  rw [hwrite]
  exact onlyInt_writeInt s rc v

/-- A floating-point destination receives any value. -/
theorem onlyFp_anyValue (s : State) (fc : RegNum) (v : Word) :
    s.onlyFp { (s.writeFp fc v).drawn.advance with freeCount := s.freeCount } fc v := by
  have hwrite : { (s.writeFp fc v).drawn.advance with freeCount := s.freeCount } = (s.writeFp fc v).advance := by
    unfold State.writeFp
    split <;> rfl
  rw [hwrite]
  exact onlyFp_writeFp s fc v

/-- A reserved opcode: its word, and OPCDEC (R688). -/
theorem reserved_row {op : BitVec 6} {mk : BitVec 26 → Instr} (hop : opClass op = .res mk)
    (hexec : ∀ rest (s : State), exec (mk rest) s = .next (s.precise .opcdec)) (rest : BitVec 26) (s : State) :
    decode (op ++ rest) = .ok (mk rest) ∧ ∃ t, exec (mk rest) s = .next t ∧ s.trapped t 0x0480#14 s.pc :=
  ⟨decode_encRes op hop rest, _, hexec rest s, trapped_precise s .opcdec⟩

/-- Settles O36: the reserved opcodes row by row, and an unused function code by the class of its opcode. -/
theorem illegalWords : Obligations.IllegalWords := by
  refine ⟨?reserved, fun w r s hdecode => ?unused⟩
  case reserved =>
    simp only [List.forall_mem_cons, List.not_mem_nil, false_imp_iff, implies_true, and_true]
    refine ⟨?_, ?_, ?_, ?_, ?_, ?_, ?_, ?_, ?_, ?_, ?_, ?_, ?_⟩
    all_goals exact reserved_row rfl fun _ _ => rfl
  case unused =>
    have hrun := State.runWord_of_reject hdecode s
    intro op rc fen anyFp
    have hfen (h : s.runUnused r = s.precise .fen) : fen := ⟨_, hrun.trans (congrArg _ h), trapped_precise s .fen⟩
    have hany (h : s.runUnused r = (s.writeFp rc s.freeNow).drawn.advance) : anyFp :=
      ⟨_, _, hrun.trans (congrArg _ h), onlyFp_anyValue s rc s.freeNow⟩
    rcases reject_cases hdecode with ⟨hop, rfl⟩ | ⟨hop, rfl⟩ | ⟨hop, rfl⟩ | ⟨hop, rfl⟩
    · have hop : op ∈ [0x10#6, 0x11#6, 0x12#6, 0x13#6] := hop
      rw [if_pos hop]
      exact ⟨_, _, hrun, onlyInt_anyValue s rc s.freeNow⟩
    · have hop : op = 0x16#6 := hop
      rw [if_neg (by rw [hop]; decide), if_pos hop]
      split
      · next h => exact hany (if_pos (by rw [h.1, bne_iff_ne.2 h.2]; rfl))
      · next h => exact hfen (if_neg (by rwa [Bool.and_eq_true, bne_iff_ne]))
    · have hop : op ∈ [0x15#6, 0x17#6] := hop
      have hother : op ∉ [0x10#6, 0x11#6, 0x12#6, 0x13#6] ∧ op ≠ 0x16#6 := by
        rcases List.mem_cons.1 hop with h | h
        · rw [h]
          decide
        · rw [List.mem_singleton.1 h]
          decide
      rw [if_neg hother.1, if_neg hother.2, if_pos hop]
      split
      · next h => exact hany (if_pos h)
      · next h => exact hfen (if_neg h)
    · have hop : op = 0x18#6 := hop
      rw [if_neg (by rw [hop]; decide), if_neg (by rw [hop]; decide), if_neg (by rw [hop]; decide)]
      exact ⟨hop, hrun⟩

end Sys2Proof.Machine
end

section
/-! CALL_PAL and the instructions of opcode 18 (46_miscellaneous.md; R241, R329a, R660 to R669, R686, R687). -/

namespace Sys2Proof.Machine

variable {s : State}

/-! ## CALL_PAL (R660, R686, R687) -/

theorem State.palFunctionAllowed_iff (s : State) (f : BitVec 26) : s.palFunctionAllowed f = true ↔
    (0x80 ≤ f.toNat ∧ f.toNat ≤ 0xBF) ∨ f.toNat ≤ 0x3F ∧ s.ibox.icm = 0#2 := by
  simp only [State.palFunctionAllowed, State.kernel, Bool.and_eq_true, Bool.or_eq_true, Bool.not_eq_true', Bool.and_eq_false_iff,
    decide_eq_true_eq, decide_eq_false_iff_not, beq_iff_eq]
  by_cases hk : s.ibox.icm = 0#2
  · simp only [hk, or_true, and_true]
    omega
  · simp only [hk, or_false, and_false]
    omega

/-- The entry of a function that dispatches: 2000 or 3000 hex, and 40 hex times its low six bits. -/
theorem palOffset_eq {f : BitVec 26} (h : f.toNat ≤ 0x3F ∨ 0x80 ≤ f.toNat ∧ f.toNat ≤ 0xBF) :
    palOffset f = BitVec.ofNat 14 ((if f.toNat ≤ 0x3F then 0x2000 else 0x3000) + 0x40 * (f.toNat % 64)) := by
  apply eq_ofNat_of_toNat
  rw [palOffset, cat_toNat, cat_toNat, cat_toNat, BitVec.extractLsb'_toNat, BitVec.extractLsb'_toNat, Nat.shiftRight_eq_div_pow,
    Nat.shiftRight_eq_div_pow]
  change 1 * 2 ^ 13 + (f.toNat / 2 ^ 7 % 2 ^ 1 * 2 ^ 12 + (f.toNat / 2 ^ 0 % 2 ^ 6 * 2 ^ 6 + 0)) = _
  split <;> omega

/-- A function that dispatches: PALcode entry at its offset, EXC_ADDR the next instruction. -/
theorem State.callPal_allowed {f : BitVec 26} (h : (0x80 ≤ f.toNat ∧ f.toNat ≤ 0xBF) ∨ f.toNat ≤ 0x3F ∧ s.ibox.icm = 0#2) :
    s.callPal f = { s with
      pc := s.ibox.palBase ++ BitVec.ofNat 14 ((if f.toNat ≤ 0x3F then 0x2000 else 0x3000) + 0x40 * (f.toNat % 64))
      palmode := true
      ibox := { s.ibox with excAddr := ((s.pc + 4#64) &&& ~~~3#64) ||| ofBool64 s.palmode } } := by
  rw [State.callPal, if_pos ((s.palFunctionAllowed_iff f).2 h), palOffset_eq (h.symm.imp_left And.left), ← State.pcView_stored]
  rfl

theorem State.callPal_refused {f : BitVec 26} (h : ¬ ((0x80 ≤ f.toNat ∧ f.toNat ≤ 0xBF) ∨ f.toNat ≤ 0x3F ∧ s.ibox.icm = 0#2)) :
    s.callPal f = s.precise .opcdec := by
  rw [State.callPal, if_neg (mt (s.palFunctionAllowed_iff f).1 h)]

/-- The three functions that are rows of the opcode table dispatch as CALL_PAL does. -/
theorem exec_palRow {f : BitVec 26} {j : Instr}
    (h : j ∈ [if f = 0x00#26 then Instr.callPalHalt else if f = 0x02#26 then .callPalDraina
      else if f = 0x86#26 then .callPalImb else .callPal f, .callPal f]) (s : State) :
    exec j s = .next (s.callPal f) := by
  rcases List.mem_cons.1 h with rfl | h
  · split
    · next hf => rw [hf]; rfl
    split
    · next hf => rw [hf]; rfl
    split
    · next hf => rw [hf]; rfl
    · rfl
  · rw [List.mem_singleton.1 h]
    rfl

theorem decode_palRow (f : BitVec 26) : decode (encPal 0x00#6 f) = .ok (if f = 0x00#26 then Instr.callPalHalt
    else if f = 0x02#26 then .callPalDraina else if f = 0x86#26 then .callPalImb else .callPal f) := by
  rw [decode_encCallPal]
  unfold palTable lookup lookup lookup lookup
  split
  · rfl
  split
  · rfl
  split <;> rfl

/-- Settles O37: the function's rows dispatch alike, and whether they do is `palFunctionAllowed_iff`. -/
theorem callPalDispatch : Obligations.CallPalDispatch := by
  intro f s i privileged unprivileged
  refine ⟨decode_palRow f, fun j hj => ?_⟩
  rw [exec_palRow hj]
  refine ⟨fun h => congrArg _ (State.callPal_allowed h), fun hu hp => ⟨_, rfl, ?_⟩⟩
  rw [State.callPal_refused (not_or.2 ⟨hu, hp⟩)]
  exact trapped_precise s .opcdec

/-! ## Opcode 18 (R661 to R669) -/

/-- A prefetch of an address that translates enters the write buffer. -/
theorem State.prefetch_ok {ra rb : RegNum} {pa : PAddr} {hit : Option (Fin 64)} (kind : WbKind)
    (h : s.translate (Ref.unaligned (s.readInt rb) false ra 0x18#6) = .ok pa hit) :
    ∃ t e, s.prefetch kind ra rb = .next t ∧ t.wb = e :: s.wb ∧ e.block = granule pa ∧ e.kind = kind ∧ t.pc = s.pc + 4#64 ∧
      { t with wb := s.wb, wbFence := s.wbFence, pc := s.pc, dtb := { t.dtb with next := s.dtb.next } } = s := by
  have hnext : s.prefetch kind ra rb = .next ((s.touchDtb hit).wbAllocate (granule pa) kind 0#8 0#256).advance := by
    rw [State.prefetch, fetchRef, h]
  refine ⟨_, _, hnext, congrArg (_ :: ·) (s.touchDtb_wb hit), rfl, rfl, congrArg (· + 4#64) (s.touchDtb_pc hit), ?_⟩
  cases hit <;> rfl

/-- A prefetch of an address that does not translate does nothing (D14). -/
theorem State.prefetch_except {ra rb : RegNum} {e : Entry} {bits : MmBits} (kind : WbKind)
    (h : s.translate (Ref.unaligned (s.readInt rb) false ra 0x18#6) = .except e bits) :
    s.prefetch kind ra rb = .next { s with pc := s.pc + 4#64 } := by
  rw [State.prefetch, fetchRef, h]
  rfl

/-- RC and RS: the interrupt flag is read, then given its new value. -/
theorem onlyInt_intrFlag (s : State) (ra : RegNum) (flag : Bool) :
    State.intrFlag { s.writeInt ra (ofBool64 s.intrFlag) with intrFlag := flag }.advance = flag ∧
    s.onlyInt { State.advance { s.writeInt ra (ofBool64 s.intrFlag) with intrFlag := flag } with intrFlag := s.intrFlag } ra
      (if s.intrFlag then 1#64 else 0#64) := by
  have hrestored : { State.advance { s.writeInt ra (ofBool64 s.intrFlag) with intrFlag := flag } with intrFlag := s.intrFlag } =
      (s.writeInt ra (ofBool64 s.intrFlag)).advance := by
    obtain ⟨i, sh, h⟩ := s.writeInt_eq_registers ra (ofBool64 s.intrFlag)
    rw [h]
    rfl
  rw [hrestored]
  exact ⟨rfl, onlyInt_writeInt s ra _⟩

/-- Settles O47: every row decodes by `decode_encMisc`; what it does is its definition, but for the prefetches and the registers
written. That a prefetch of the register region enters the write buffer too is the model's choice (log 17). -/
theorem miscellaneousInstructions : Obligations.MiscellaneousInstructions := by
  refine fun ra rb s => ⟨?traps, ⟨decode_encMisc _ _ rfl, rfl⟩, ⟨decode_encMisc _ _ rfl, ?mb⟩, ?prefetch,
    ⟨decode_encMisc _ _ rfl, _, rfl, onlyInt_writeInt s ra _⟩, ?flag⟩
  case traps =>
    rw [List.forall_mem_cons, List.forall_mem_singleton]
    exact ⟨⟨decode_encMisc _ _ rfl, rfl⟩, decode_encMisc _ _ rfl, rfl⟩
  case mb =>
    change Host.Outcome.next (State.advance { s with mbWaits := true, afterMb := true, owed := s.owed.afterMb }) = _
    unfold Owed.afterMb
    rfl
  case prefetch =>
    rw [List.forall_mem_cons, List.forall_mem_singleton]
    exact ⟨⟨decode_encMisc _ _ rfl, fun _ _ h => State.prefetch_ok .fetch h, fun _ _ h => State.prefetch_except .fetch h⟩,
      decode_encMisc _ _ rfl, fun _ _ h => State.prefetch_ok .fetchM h, fun _ _ h => State.prefetch_except .fetchM h⟩
  case flag =>
    rw [List.forall_mem_cons, List.forall_mem_singleton]
    exact ⟨⟨decode_encMisc _ _ rfl, _, rfl, onlyInt_intrFlag s ra false⟩,
      decode_encMisc _ _ rfl, _, rfl, onlyInt_intrFlag s ra true⟩

end Sys2Proof.Machine
end

section
/-! Taking an exception and returning from it, HW_LD and HW_ST (R681 to R683, R700, R701, R740). -/

namespace Sys2Proof.Machine

variable {s : State}

/-! ## The PALcode instructions where they are available -/

theorem exec_hwRei (hs : s.palAllowed = true) (ra rb : RegNum) (typ : BitVec 2) (mbz : BitVec 14) :
    exec (.hwRei ra rb typ mbz) s =
      if typ = 0#2 ∨ typ = 1#2 then .refused .hwReiType else .next (s.syncIstream (typ == 3#2)).returnFromPal := by
  change execHwRei ra rb typ mbz s = _
  rw [execHwRei, palGate_on hs]

theorem exec_hwLd (hs : s.palAllowed = true) (ra rb : RegNum) (phys alt wrtck quad vpte lock : Bool) (disp : BitVec 10) :
    exec (.hwLd ra rb phys alt wrtck quad vpte lock disp) s =
      s.loadInt ⟨s.readInt rb + disp.signExtend 64, quad, false, false, phys, alt, vpte, wrtck, ra, 0x1B#6⟩ lock := by
  change execHwLd ra rb phys alt wrtck quad vpte lock disp s = _
  rw [execHwLd, palGate_on hs]
  rfl

/-- HW_ST with a must-be-zero bit set. -/
theorem exec_hwSt_refused (hs : s.palAllowed = true) (ra rb : RegNum) (phys alt quad cond : Bool) {mbz13 mbz11 : Bool}
    (disp : BitVec 10) (h : mbz13 = true ∨ mbz11 = true) :
    exec (.hwSt ra rb phys alt mbz13 quad mbz11 cond disp) s = .refused .hwStMustBeZero := by
  change execHwSt ra rb phys alt mbz13 quad mbz11 cond disp s = _
  rw [execHwSt, palGate_on hs, if_pos (Bool.or_eq_true_iff.2 h)]

theorem exec_hwSt_plain (hs : s.palAllowed = true) (ra rb : RegNum) (phys alt quad : Bool) (disp : BitVec 10) :
    exec (.hwSt ra rb phys alt false quad false false disp) s =
      s.store ⟨s.readInt rb + disp.signExtend 64, quad, true, false, phys, alt, false, false, ra, 0x1F#6⟩ (s.readInt ra) := by
  change execHwSt ra rb phys alt false quad false false disp s = _
  rw [execHwSt, palGate_on hs]
  rfl

theorem exec_hwSt_cond (hs : s.palAllowed = true) (ra rb : RegNum) (phys alt quad : Bool) (disp : BitVec 10) :
    exec (.hwSt ra rb phys alt false quad false true disp) s =
      s.storeCond ⟨s.readInt rb + disp.signExtend 64, quad, true, false, phys, alt, false, false, ra, 0x1F#6⟩ (s.readInt ra) := by
  change execHwSt ra rb phys alt false quad false true disp s = _
  rw [execHwSt, palGate_on hs]
  rfl

/-! ## Taking an exception and returning (R683, R700, R740) -/

/-- The PALmode flag that an entry saves with an aligned address comes back, and so does the address. -/
theorem saved_flag {a : Word} (h : a &&& 3#64 = 0#64) (b : Bool) :
    (a ||| ofBool64 b) &&& ~~~3#64 = a ∧ (a ||| ofBool64 b).getLsbD 0 = b := by
  have hflag : ofBool64 b &&& ~~~3#64 = 0#64 ∧ (ofBool64 b).getLsbD 0 = b := by cases b <;> decide
  have hlow : a.getLsbD 0 = false := by simpa using congrArg (BitVec.getLsbD · 0) h
  have hor : (a ||| ofBool64 b) &&& ~~~3#64 = (a &&& ~~~3#64) ||| (ofBool64 b &&& ~~~3#64) := by
    ext i hi
    simp only [BitVec.getElem_and, BitVec.getElem_or, Bool.and_or_distrib_right]
  rw [hor, and_not_of_aligned h, hflag.1, BitVec.or_zero, BitVec.getLsbD_or, hlow, hflag.2, Bool.false_or]
  exact ⟨rfl, rfl⟩

/-- HW_REI right after an exception comes back with everything as it was but EXC_ADDR, the interrupt flag, and the model's own mark
of how the last instruction ended, which is still that of the exception. -/
theorem exec_hwRei_trap (s : State) (e : Entry) {a : Word} (ha : a &&& 3#64 = 0#64) (ra rb : RegNum) (mbz : BitVec 14) :
    exec (.hwRei ra rb 2#2 mbz) (s.trap e a) = .next { s with
      pc := a, intrFlag := false, istreamLost := s.istreamLost || s.itbPending, ended := .trap
      ibox := { s.ibox with excAddr := a ||| ofBool64 s.palmode } } := by
  have hexc : (s.trap e a).ibox = { s.ibox with excAddr := a ||| ofBool64 s.palmode } := by
    rw [State.trap_ibox, State.pcView_stored, and_not_of_aligned ha]
  obtain ⟨hpc, hmode⟩ := saved_flag ha s.palmode
  rw [exec_hwRei rfl, if_neg (by decide)]
  change Host.Outcome.next (State.returnFromPal { s.trap e a with istreamLost := s.istreamLost || s.itbPending }) = _
  unfold State.returnFromPal
  simp only [hexc, hpc, hmode]
  rfl

/-- Refutes O38: right after reset no exception has been taken (`ended` is `retired`); after OPCDEC from address 0 and HW_REI the
mark is `trap`, which the last clause, naming every change, does not allow. The rest of that clause is `exec_hwRei_trap`. -/
theorem not_exceptionEntryAndReturn : ¬ Obligations.ExceptionEntryAndReturn := by
  rintro ⟨-, -, -, hback⟩
  have hnext := hback .opcdec 0#64 31#5 31#5 0#14 State.reset rfl
  rw [exec_hwRei_trap State.reset .opcdec rfl] at hnext
  have hended : Ended.trap = State.reset.ended := congrArg State.ended (Host.Outcome.next.inj hnext)
  exact absurd hended (by decide)

/-! ## HW_LD and HW_ST (R681, R682) -/

/-- Settles O39: HW_LD is one reference, a locked one with LOCK. -/
theorem palLoads : Obligations.PalLoads := by
  intro ra rb phys alt wrtck quad vpte lock disp s hs va r
  rw [exec_hwLd (s.palAllowed_iff.2 hs)]
  refine ⟨fun a hreach hdc => ?loaded, fun e bits htr => ?except⟩
  case loaded =>
    have hplain : s.dcForced = false ∧ (lock = true ∨ s.dcSteady quad false a) := by
      cases lock with
      | true => exact ⟨Bool.eq_false_iff.2 (mt State.dcForced_iff.1 hdc), .inl rfl⟩
      | false => exact ⟨State.dcForced_of_steady hdc, .inr hdc⟩
    obtain ⟨hforced, hsteady⟩ := hplain
    obtain ⟨hit, v, t, i, sh, ht, hv, hwrite, rfl⟩ := State.loadInt_reaches hreach hforced hsteady
    exact ⟨_, v, ht, hv, hwrite, rfl, rfl, rfl, rfl, State.sameBut_touch hit (by cases hit <;> rfl) rfl⟩
  case except =>
    change s.dstreamExcepts (s.loadInt r lock) r e bits
    exact State.dstreamExcepts_loadInt rfl htr

/-- Settles O40: HW_ST is one reference, a conditional one with COND. No premise on Dcache parity is used with COND: that a
store-conditional checks none is the model's choice (log 13). -/
theorem palStores : Obligations.PalStores := by
  intro ra rb phys alt mbz13 quad mbz11 cond disp s hs va r i
  have hallowed := s.palAllowed_iff.2 hs
  refine ⟨exec_hwSt_refused hallowed ra rb phys alt quad cond disp, ?_⟩
  rintro rfl rfl
  refine ⟨fun a hcond h => ?plain, fun a hcond hs hb h => ?cond, fun e bits htr => ?except⟩
  case plain =>
    subst hcond
    exact State.store_plain (exec_hwSt_plain hallowed ra rb phys alt quad disp) h rfl
  case cond =>
    subst hcond
    rw [exec_hwSt_cond hallowed]
    exact State.storeCond_stored h hs hb
  case except =>
    change s.dstreamExcepts (exec (.hwSt ra rb phys alt false quad false cond disp) s) r e bits
    cases cond with
    | true => exact State.dstreamExcepts_storeCond (exec_hwSt_cond hallowed ra rb phys alt quad disp) htr
    | false => exact State.dstreamExcepts_store (exec_hwSt_plain hallowed ra rb phys alt quad disp) htr

end Sys2Proof.Machine
end

section
/-! HW_MTPR: which index names which register, that its writes complete, and what each changes (R45 to R47, R100 to R131, R166,
R200 to R226, R685). -/

namespace Sys2Proof.Machine

variable {s : State} {r : Ipr} {idx : BitVec 16}

/-! ## The index of a register (R46, R47) -/

/-- The index of a register in Table 5-1. -/
def Ipr.index : Ipr → BitVec 16
  | .isr => 0x100#16 | .itbTag => 0x101#16 | .itbPte => 0x102#16 | .itbAsn => 0x103#16 | .itbPteTemp => 0x104#16
  | .itbIa => 0x105#16 | .itbIap => 0x106#16 | .itbIs => 0x107#16 | .sirr => 0x108#16 | .astrr => 0x109#16
  | .aster => 0x10A#16 | .excAddr => 0x10B#16 | .excSum => 0x10C#16 | .excMask => 0x10D#16 | .palBase => 0x10E#16
  | .icm => 0x10F#16 | .iplr => 0x110#16 | .intid => 0x111#16 | .ifaultVaForm => 0x112#16 | .ivptbr => 0x113#16
  | .hwintClr => 0x115#16 | .slXmit => 0x116#16 | .slRcv => 0x117#16 | .icsr => 0x118#16 | .icFlushCtl => 0x119#16
  | .icperrStat => 0x11A#16 | .pmctr => 0x11C#16 | .palTemp k => BitVec.ofNat 16 (0x140 + k.val)
  | .dtbAsn => 0x200#16 | .dtbCm => 0x201#16 | .dtbTag => 0x202#16 | .dtbPte => 0x203#16 | .dtbPteTemp => 0x204#16
  | .mmStat => 0x205#16 | .va => 0x206#16 | .vaForm => 0x207#16 | .mvptbr => 0x208#16 | .dtbIap => 0x209#16
  | .dtbIa => 0x20A#16 | .dtbIs => 0x20B#16 | .altMode => 0x20C#16 | .cc => 0x20D#16 | .ccCtl => 0x20E#16
  | .mcsr => 0x20F#16 | .dcFlush => 0x210#16 | .dcPerrStat => 0x212#16 | .dcTestCtl => 0x213#16 | .dcTestTag => 0x214#16
  | .dcTestTagTemp => 0x215#16 | .dcMode => 0x216#16 | .mafMode => 0x217#16

theorem iprOf_palTemp (k : Fin 24) : iprOf (BitVec.ofNat 16 (0x140 + k.val)) = some (.palTemp k) := by
  revert k
  decide

theorem iprOf_index (r : Ipr) : iprOf r.index = some r := by
  cases r with
  | palTemp k => exact iprOf_palTemp k
  | _ => decide

/-- The registers of the two lists stand at their indexes. -/
theorem listed_index :
    (∀ k < 29, ∀ r, (iboxIprs[k]?).join = some r → r.index = BitVec.ofNat 16 (0x100 + k)) ∧
    (∀ k < 24, ∀ r, (mboxIprs[k]?).join = some r → r.index = BitVec.ofNat 16 (0x200 + k)) := by
  constructor
  all_goals
    intro k hk r hr
    interval_cases k <;> cases hr <;> rfl

/-- An index names a register only if it is that register's. -/
theorem eq_index_of_iprOf (h : iprOf idx = some r) : idx = r.index := by
  have hself : BitVec.ofNat 16 idx.toNat = idx := BitVec.ofNat_toNat ..
  unfold iprOf at h
  dsimp only at h
  split at h
  · cases h
  split at h
  · next hpal =>
    obtain rfl := Option.some.inj h
    exact hself.symm.trans (congrArg (BitVec.ofNat 16) (by change _ = 0x140 + (idx.toNat - 0x140); omega))
  split at h
  · have hlt : idx.toNat - 0x100 < 29 := by
      by_contra hge
      rw [List.getElem?_eq_none (Nat.not_lt.1 hge)] at h
      cases h
    rw [listed_index.1 _ hlt r h, ← hself]
    exact congrArg (BitVec.ofNat 16) (by rw [BitVec.toNat_ofNat, Nat.mod_eq_of_lt idx.isLt]; omega)
  · have hlt : idx.toNat - 0x200 < 24 := by
      by_contra hge
      rw [List.getElem?_eq_none (Nat.not_lt.1 hge)] at h
      cases h
    rw [listed_index.2 _ hlt r h, ← hself]
    exact congrArg (BitVec.ofNat 16) (by rw [BitVec.toNat_ofNat, Nat.mod_eq_of_lt idx.isLt]; omega)

/-! ## Completion and frame (R685) -/

/-- HW_MTPR changes nothing but internal registers, translation buffers, caches, the mark of an ITB write and the count of free
values. -/
def State.iprFramed (s u : State) : Prop :=
  { u with
    pc := s.pc, ibox := s.ibox, mbox := s.mbox, palTemps := s.palTemps, itb := s.itb, dtb := s.dtb
    icache := s.icache, dcache := s.dcache, itbPending := s.itbPending, freeCount := s.freeCount } = s

theorem State.writeIcsr_eq (s : State) (v : Word) : s.writeIcsr v =
    .next (if v.getLsbD 37 then { s with ibox := { s.ibox with icsr := v &&& icsrWritable ||| s.ibox.icsr &&& 0x4000000000#64 } }
      else State.drawn { s with ibox := { s.ibox with
        icsr := v &&& icsrWritable ||| s.ibox.icsr &&& 0x4000000000#64 ||| s.freeNow &&& 0x2000000000#64 } }) :=
  if_neg (by simp [Config.ntOnlyPart])

theorem State.writeMcsr_eq (s : State) {v : Word} (h : v.getLsbD 3 = false ∧ v.getLsbD 5 = false) :
    s.writeMcsr v = .next { s with mbox := { s.mbox with mcsr := v.setWidth 6 } } := by
  rw [State.writeMcsr, h.1, h.2]
  rfl

/-- Every write completes but that of a one to a must-be-zero bit of MCSR. -/
theorem State.iprWrite_completes {v : Word} (h : r = .mcsr → v.getLsbD 3 = false ∧ v.getLsbD 5 = false) :
    ∃ u, s.iprWrite r v = .next u ∧ u.pc = s.pc ∧ s.iprFramed u := by
  cases r with
  | icsr =>
    refine ⟨_, s.writeIcsr_eq v, ?_⟩
    split <;> exact ⟨rfl, rfl⟩
  | mcsr => exact ⟨_, s.writeMcsr_eq (h rfl), rfl, rfl⟩
  | _ => exact ⟨_, rfl, rfl, rfl⟩

theorem exec_hwMtpr (hs : s.palAllowed = true) (ra rb : RegNum) (index : BitVec 16) :
    exec (.hwMtpr ra rb index) s = s.mtpr ra index := by
  change s.palGate (fun s => s.mtpr ra index) = _
  rw [palGate_on hs]

theorem exec_hwMfpr (hs : s.palAllowed = true) (ra rb : RegNum) (index : BitVec 16) :
    exec (.hwMfpr ra rb index) s = .next (s.mfpr ra index) := by
  change s.palGate (fun s => .next (s.mfpr ra index)) = _
  rw [palGate_on hs]

/-! ## What is written reads back -/

/-- A field at its place in the quadword it was taken from. -/
theorem place_field (v : Word) (lo n : Nat) :
    place (field v lo n) lo = v &&& (BitVec.ofNat 64 (2 ^ n - 1) <<< lo) := by
  apply BitVec.eq_of_getLsbD_eq
  intro i hi
  rw [place_getLsbD _ _ hi, field, BitVec.getLsbD_extractLsb', BitVec.getLsbD_and, BitVec.getLsbD_shiftLeft,
    BitVec.getLsbD_ofNat, Nat.testBit_two_pow_sub_one]
  by_cases hlo : lo ≤ i
  · have hadd : lo + (i - lo) = i := by omega
    simp [hlo, not_lt.2 hlo, hadd, hi, show i - lo < 64 by omega, Bool.and_comm]
  · simp [hlo, show i < lo by omega]

/-- A register read by HW_MFPR, in bits that it states. -/
theorem State.readInt_mfpr {ra : RegNum} (h : iprOf idx = some r) (hra : ra ≠ 31#5) :
    (s.mfpr ra idx).readInt ra = s.iprRead r := by
  rw [State.mfpr, h]
  exact (State.readInt_congr (s := (s.iprAfterRead r).writeInt ra (s.iprRead r)) ra rfl rfl rfl rfl).trans
    (State.readInt_writeInt_self _ _ hra)

theorem or_and_right (x y z : Word) : (x ||| y) &&& z = (x &&& z) ||| (y &&& z) := by
  ext i hi
  simp only [BitVec.getElem_and, BitVec.getElem_or, Bool.and_or_distrib_right]

/-- Moving on does not change what a register reads. -/
theorem State.iprView_advance (s : State) (r : Ipr) : s.advance.iprView r = s.iprView r := by
  cases r <;> rfl

/-- In bits that the register states, HW_MFPR returns its contents. -/
theorem State.iprRead_and {m : Word} (h : (s.iprView r).2 &&& m = m) : s.iprRead r &&& m = (s.iprView r).1 &&& m := by
  rw [← h, ← BitVec.and_assoc, State.iprRead, mergeBits_and, BitVec.and_assoc]

/-- The bits of the value that HW_MTPR stores, of the registers that read back; all of them but for a few registers. -/
def storedBits (idx : BitVec 16) : Word :=
  if idx = 0x103#16 then 0x7F0#64 else if idx = 0x108#16 then 0x7FFF0#64
  else if idx = 0x10B#16 then ~~~2#64 else if idx = 0x10E#16 then ~~~0x3FFF#64
  else if idx = 0x10F#16 then 0x18#64 else if idx = 0x110#16 then 0x1F#64
  else if idx = 0x113#16 then 0xFFFFFFFFC0000000#64 else ~~~0#64

theorem storedBits_palTemp (k : Nat) (hk : k < 24) : storedBits (BitVec.ofNat 16 (0x140 + k)) = ~~~0#64 := by
  revert k
  decide

theorem and_storedBits_all (v : Word) (h : storedBits idx = ~~~0#64) : v = v &&& storedBits idx := by
  rw [h, BitVec.not_zero, BitVec.and_allOnes]

/-- After HW_MTPR of the register of an index, HW_MFPR returns the written value, in the bits that are stored and among `mask`. -/
def ReadsBack (idx : BitVec 16) (mask : Word) : Prop :=
  ∀ ra rb ra' rb' (s t : State), (s.palmode = true ∨ s.ibox.icsr.getLsbD 27 = true ∧ s.ibox.icm = 0#2) → t.palAllowed = true →
    ra' ≠ 31#5 → exec (.hwMtpr ra rb idx) s = .next t →
    ∃ u, exec (.hwMfpr ra' rb' idx) t = .next u ∧ u.readInt ra' &&& mask = s.readInt ra &&& storedBits idx &&& mask

/-- A register reads back if it states the bits and holds there what was written. -/
theorem readsBack_row {mask : Word} (hr : iprOf idx = some r)
    (hview : ∀ (s w : State) (v : Word), s.iprWrite r v = .next w →
      (w.iprView r).2 &&& mask = mask ∧ (w.iprView r).1 &&& mask = v &&& storedBits idx &&& mask) : ReadsBack idx mask := by
  intro ra rb ra' rb' s t hs ht hra hwrite
  rw [exec_hwMtpr (s.palAllowed_iff.2 hs), State.mtpr, hr] at hwrite
  obtain ⟨w, hw, rfl⟩ := mapRes_eq_next hwrite
  obtain ⟨hmask, hval⟩ := hview s w _ hw
  refine ⟨_, exec_hwMfpr ht ra' rb' idx, ?_⟩
  rw [State.readInt_mfpr hr hra, State.iprRead_and (by rw [State.iprView_advance]; exact hmask), State.iprView_advance, hval]

/-- ICSR reads back but for bits <38> and <37> (R166). -/
theorem readsBack_icsr (s w : State) (v : Word) (h : s.iprWrite .icsr v = .next w) :
    (w.iprView .icsr).2 &&& 0x9F7FF00300#64 = 0x9F7FF00300#64 ∧
      (w.iprView .icsr).1 &&& 0x9F7FF00300#64 = v &&& storedBits 0x118#16 &&& 0x9F7FF00300#64 := by
  obtain rfl := Host.Outcome.next.inj ((s.writeIcsr_eq v).symm.trans h)
  refine ⟨(by decide : 0xFF7FF00300#64 &&& 0x9F7FF00300#64 = 0x9F7FF00300#64), ?_⟩
  have hbits : icsrWritable &&& 0x9F7FF00300#64 = 0x9F7FF00300#64 ∧ 0x4000000000#64 &&& 0x9F7FF00300#64 = 0#64 ∧
      0x2000000000#64 &&& 0x9F7FF00300#64 = 0#64 ∧ storedBits 0x118#16 &&& 0x9F7FF00300#64 = 0x9F7FF00300#64 := by decide
  obtain ⟨hw, h38, h37, hs⟩ := hbits
  rw [BitVec.and_assoc v, hs]
  split
  · change (v &&& icsrWritable ||| s.ibox.icsr &&& 0x4000000000#64) &&& _ = _
    rw [or_and_right, BitVec.and_assoc, BitVec.and_assoc, hw, h38, BitVec.and_zero, BitVec.or_zero]
  · change (v &&& icsrWritable ||| s.ibox.icsr &&& 0x4000000000#64 ||| s.freeNow &&& 0x2000000000#64) &&& _ = _
    rw [or_and_right, or_and_right, BitVec.and_assoc, BitVec.and_assoc, BitVec.and_assoc, hw, h38, h37, BitVec.and_zero,
      BitVec.and_zero, BitVec.or_zero, BitVec.or_zero]

/-- A field of the value, written and read back at its place. -/
theorem readsBack_field (v : Word) {lo n : Nat} {stored mask : Word}
    (h : (BitVec.ofNat 64 (2 ^ n - 1) <<< lo) &&& mask = stored &&& mask) :
    place (field v lo n) lo &&& mask = v &&& stored &&& mask := by
  rw [place_field, BitVec.and_assoc, h, BitVec.and_assoc]

/-- A register that holds a field of the value. -/
theorem readsBack_fieldRow {mask m : Word} {lo n : Nat} (hr : iprOf idx = some r)
    (hview : ∀ (s : State) (v : Word), ∃ w, s.iprWrite r v = .next w ∧ w.iprView r = (place (field v lo n) lo, m))
    (hmask : m &&& mask = mask) (hstored : (BitVec.ofNat 64 (2 ^ n - 1) <<< lo) &&& mask = storedBits idx &&& mask) :
    ReadsBack idx mask := by
  refine readsBack_row hr fun s w v h => ?_
  obtain ⟨w', hw, hv⟩ := hview s v
  obtain rfl := Host.Outcome.next.inj (hw.symm.trans h)
  rw [hv]
  exact ⟨hmask, readsBack_field v hstored⟩

/-- A register that holds the value, but for the bits it does not store. -/
theorem readsBack_wholeRow (hr : iprOf idx = some r)
    (hview : ∀ (s : State) (v : Word), ∃ w, s.iprWrite r v = .next w ∧ w.iprView r = (v &&& storedBits idx, ~~~0#64)) :
    ReadsBack idx (~~~0#64) := by
  refine readsBack_row hr fun s w v h => ?_
  obtain ⟨w', hw, hv⟩ := hview s v
  obtain rfl := Host.Outcome.next.inj (hw.symm.trans h)
  rw [hv]
  exact ⟨BitVec.and_self, rfl⟩

/-- MCSR reads back where its must-be-zero bits were written zero (R214). -/
theorem readsBack_mcsr (s w : State) (v : Word) (h : s.iprWrite .mcsr v = .next w) :
    (w.iprView .mcsr).2 &&& 0x3F#64 = 0x3F#64 ∧ (w.iprView .mcsr).1 &&& 0x3F#64 = v &&& storedBits 0x20F#16 &&& 0x3F#64 := by
  have hzero : v.getLsbD 3 = false ∧ v.getLsbD 5 = false := by
    rw [← Bool.or_eq_false_iff, Bool.eq_false_iff]
    intro hone
    rw [State.iprWrite, State.writeMcsr, if_pos hone] at h
    cases h
  obtain rfl := Host.Outcome.next.inj ((s.writeMcsr_eq hzero).symm.trans h)
  refine ⟨BitVec.and_self, ?_⟩
  change place (v.setWidth 6) 0 &&& _ = _
  rw [BitVec.setWidth_eq_extractLsb' (by decide)]
  exact readsBack_field v (by decide)

/-- IVPTBR reads back but for the bits that the NT mode bit decides upon (R108). -/
theorem readsBack_ivptbr (s w : State) (v : Word) (h : s.iprWrite .ivptbr v = .next w) :
    (w.iprView .ivptbr).2 &&& 0xFFFFFFFE3FFFFFFF#64 = 0xFFFFFFFE3FFFFFFF#64 ∧
      (w.iprView .ivptbr).1 &&& 0xFFFFFFFE3FFFFFFF#64 = v &&& storedBits 0x113#16 &&& 0xFFFFFFFE3FFFFFFF#64 := by
  obtain rfl := Host.Outcome.next.inj h
  refine ⟨?_, readsBack_field v (by decide)⟩
  change (if State.iboxNt _ then ~~~0#64 else ~~~0x1C0000000#64) &&& _ = _
  split <;> decide

/-- MAF_MODE reads back in its own bits, below those of the miss address file and the write buffer (R226). -/
theorem readsBack_mafMode (s w : State) (v : Word) (h : s.iprWrite .mafMode v = .next w) :
    (w.iprView .mafMode).2 &&& 0x3F#64 = 0x3F#64 ∧
      (w.iprView .mafMode).1 &&& 0x3F#64 = v &&& storedBits 0x217#16 &&& 0x3F#64 := by
  obtain rfl := Host.Outcome.next.inj h
  refine ⟨(by decide : 0xFF#64 &&& 0x3F#64 = 0x3F#64), ?_⟩
  have hbits (b c : Bool) : placeBit b 6 &&& 0x3F#64 = 0#64 ∧ placeBit c 7 &&& 0x3F#64 = 0#64 := by
    revert b c
    decide
  change (place (field v 0 6) 0 ||| placeBit (!s.maf.isEmpty || !s.loadsWaiting.isEmpty) 6 ||| placeBit (!s.wb.isEmpty) 7) &&& _ = _
  obtain ⟨h6, h7⟩ := hbits (!s.maf.isEmpty || !s.loadsWaiting.isEmpty) (!s.wb.isEmpty)
  rw [or_and_right, or_and_right, h6, h7, BitVec.or_zero, BitVec.or_zero]
  exact readsBack_field v (by decide)

/-- Settles O41: the writes complete register by register, and each register that reads back is a row. -/
theorem iprWrites : Obligations.IprWrites := by
  refine ⟨fun ra rb idx s hs => ?completes, ?readsBack⟩
  case completes =>
    rw [exec_hwMtpr (s.palAllowed_iff.2 hs), State.mtpr]
    refine ⟨fun r hr hmbz => ?_, fun hidx hone => ?_, fun hr => by rw [hr]⟩
    · obtain ⟨u, hu, hpc, hframe⟩ := State.iprWrite_completes (s := s) (r := r) (v := s.readInt ra)
        fun hr' => hmbz (by rw [eq_index_of_iprOf hr, hr']; rfl)
      rw [hr]
      exact ⟨u.advance, congrArg (mapRes State.advance) hu, congrArg (· + 4#64) hpc, hframe⟩
    · subst hidx
      exact congrArg (mapRes State.advance) (if_pos (Bool.or_eq_true_iff.2 hone))
  case readsBack =>
    intro row hrow
    change ReadsBack row.1 row.2
    rcases List.mem_append.1 hrow with hrow | hrow
    · simp only [List.mem_cons, List.not_mem_nil, or_false] at hrow
      obtain rfl | rfl | rfl | rfl | rfl | rfl | rfl | rfl | rfl | rfl | rfl | rfl | rfl | rfl | rfl := hrow
      · exact readsBack_fieldRow (iprOf_index .itbAsn) (fun _ _ => ⟨_, rfl, rfl⟩) (by decide) (by decide)
      · exact readsBack_fieldRow (iprOf_index .sirr) (fun _ _ => ⟨_, rfl, rfl⟩) (by decide) (by decide)
      · exact readsBack_fieldRow (iprOf_index .astrr) (fun _ _ => ⟨_, rfl, rfl⟩) (by decide) (by decide)
      · exact readsBack_fieldRow (iprOf_index .aster) (fun _ _ => ⟨_, rfl, rfl⟩) (by decide) (by decide)
      · exact readsBack_wholeRow (iprOf_index .excAddr) fun _ _ => ⟨_, rfl, rfl⟩
      · exact readsBack_fieldRow (iprOf_index .palBase) (fun _ _ => ⟨_, rfl, rfl⟩) (by decide) (by decide)
      · exact readsBack_fieldRow (iprOf_index .icm) (fun _ _ => ⟨_, rfl, rfl⟩) (by decide) (by decide)
      · exact readsBack_fieldRow (iprOf_index .iplr) (fun _ _ => ⟨_, rfl, rfl⟩) (by decide) (by decide)
      · exact readsBack_row (iprOf_index .ivptbr) readsBack_ivptbr
      · exact readsBack_row (iprOf_index .icsr) readsBack_icsr
      · exact readsBack_wholeRow (iprOf_index .pmctr) fun _ v => ⟨_, rfl, congrArg (·, _) (and_storedBits_all v rfl)⟩
      · exact readsBack_row (iprOf_index .mcsr) readsBack_mcsr
      · exact readsBack_fieldRow (iprOf_index .dcTestCtl) (fun _ _ => ⟨_, rfl, rfl⟩) (by decide) (by decide)
      · exact readsBack_fieldRow (iprOf_index .dcMode) (fun _ _ => ⟨_, rfl, rfl⟩) (by decide) (by decide)
      · exact readsBack_row (iprOf_index .mafMode) readsBack_mafMode
    · obtain ⟨k, hk, rfl⟩ := List.mem_map.1 hrow
      have hk : k < 24 := List.mem_range.1 hk
      exact readsBack_wholeRow (iprOf_palTemp ⟨k, hk⟩) fun s v =>
        ⟨_, rfl, congrArg₂ Prod.mk ((s.palTemps.getElem_set_self hk).trans (and_storedBits_all v (storedBits_palTemp k hk))) rfl⟩

end Sys2Proof.Machine
end

section
/-! HW_MTPR, register by register (R100 to R131, R166, R200 to R226, R685; D4). -/

namespace Sys2Proof.Machine

variable {s : State} {r : Ipr} {idx : BitVec 16}

/-! ## The values stored -/

/-- DC_PERR_STAT, write-one-to-clear, as two masks (R210). -/
theorem dcPerrWrite_eq (stat : BitVec 6) (v : Word) : dcPerrWrite stat v =
    (if v.getLsbD 1 then stat &&& 1#6 else stat) &&& (if v.getLsbD 0 then 0x3E#6 else 0x3F#6) := by
  unfold dcPerrWrite
  generalize (if v.getLsbD 1 then stat &&& 1#6 else stat) = x
  cases v.getLsbD 0
  · exact (BitVec.and_allOnes (x := x)).symm
  · rfl

/-! ## The Icache flush and the Dcache (R53, R54, R111, R221, R980) -/

/-- The blocks that the refill buffer keeps are some of those it had. -/
theorem State.icFlush_eq (s : State) : ∃ l : List RefillLine, l.Sublist s.icache.refill ∧
    s.icFlush = State.drawn { s with icache := ⟨[], l.map fun x => { x with old := true }, 45⟩ } := by
  refine ⟨(s.icache.refill.zipIdx.filter fun p => Config.survives s.freeCount p.2).map Prod.fst, ?_, ?_⟩
  · have hfilter := (List.filter_sublist (l := s.icache.refill.zipIdx) (p := fun p => Config.survives s.freeCount p.2)).map Prod.fst
    rwa [List.zipIdx_map_fst] at hfilter
  · rw [List.map_map]
    rfl

/-- DC_FLUSH clears the valid bits of every entry. -/
theorem State.dcFlush_entry (s : State) (bank1 : Bool) (i : Nat) :
    dcGet i (s.dcFlush.dcache.bank bank1) = { dcGet i (s.dcache.bank bank1) with valid0 := false, valid1 := false } := by
  have hbank : s.dcFlush.dcache.bank bank1 =
      (s.dcache.bank bank1).map fun l => { l with valid0 := false, valid1 := false } := by cases bank1 <;> rfl
  rw [hbank]
  exact dcGet_map (f := fun l => { l with valid0 := false, valid1 := false }) (fun _ => rfl) (fun _ => rfl) i _

/-- A write of DC_TEST_TAG changes the entry that DC_TEST_CTL names, and no other. -/
theorem dcGet_dcTestWrite (i n : Nat) (v : Word) (b : List DcLine) : dcGet i (dcTestWrite n v b) =
    if i = n then { dcGet i b with tag := v.extractLsb' 13 26, parity := v.getLsbD 2, valid0 := v.getLsbD 11, valid1 := v.getLsbD 12 }
    else dcGet i b := by
  rw [dcTestWrite, dcGet_dcPut]
  change (if (dcGet n b).idx = i then _ else _) = _
  rw [dcGet_idx]
  by_cases h : i = n
  · rw [if_pos h, if_pos h.symm, h]
    rfl
  · rw [if_neg h, if_neg (Ne.symm h)]

/-- A bank after a write of DC_TEST_TAG, if DC_TEST_CTL names it. -/
theorem State.dcTestWritten (s : State) (i : Nat) (v : Word) (named : Bool) (b : List DcLine) :
    dcGet i (if named then dcTestWrite s.dcTestIndex v b else b) =
      if named = true ∧ i = s.dcTestIndex then
        { dcGet i b with tag := v.extractLsb' 13 26, parity := v.getLsbD 2, valid0 := v.getLsbD 11, valid1 := v.getLsbD 12 }
      else dcGet i b := by
  cases named with
  | false => rw [if_neg Bool.false_ne_true, if_neg fun h => Bool.false_ne_true h.1]
  | true =>
    rw [if_pos rfl, dcGet_dcTestWrite]
    exact if_congr (and_iff_right rfl).symm rfl rfl

/-- Settles O42: each index names its register, whose write is `State.iprWrite`. -/
theorem iprWriteEffects : Obligations.IprWriteEffects := by
  intro ra rb s hpal v wr
  have hs : s.palAllowed = true := s.palAllowed_iff.2 hpal
  have hwr {r : Ipr} {u : State} (h : s.iprWrite r v = .next u) : wr r.index = .next u.advance :=
    exec_hwMtpr_of_next hs (iprOf_index r) h
  refine ⟨?fields, ?readOnly, fun k => exec_hwMtpr_of_next hs (iprOf_palTemp k) rfl, ?icsr, fun h3 h5 => ?mcsr,
    ?icFlush, ⟨_, hwr (r := .dcFlush) rfl, rfl, rfl, s.dcFlush_entry⟩, _, hwr (r := .dcTestTag) rfl, rfl, rfl, fun bank1 i => ?testTag⟩
  case fields =>
    simp only [List.forall_mem_cons, List.not_mem_nil, false_imp_iff, implies_true, and_true]
    refine ⟨hwr (r := .itbTag) rfl, hwr (r := .itbAsn) rfl, hwr (r := .sirr) rfl, hwr (r := .astrr) rfl, hwr (r := .aster) rfl,
      hwr (r := .excAddr) rfl, hwr (r := .excSum) rfl, hwr (r := .palBase) rfl, hwr (r := .icm) rfl, hwr (r := .iplr) rfl,
      hwr (r := .ivptbr) rfl, hwr (r := .hwintClr) rfl, hwr (r := .slXmit) rfl, hwr (r := .icperrStat) rfl, hwr (r := .pmctr) rfl,
      hwr (r := .dtbAsn) rfl, hwr (r := .dtbCm) rfl, hwr (r := .mvptbr) rfl, hwr (r := .altMode) rfl, hwr (r := .cc) rfl,
      hwr (r := .ccCtl) rfl, ?dcPerrStat, hwr (r := .dcTestCtl) rfl, hwr (r := .dcMode) rfl, hwr (r := .mafMode) rfl⟩
    rw [← dcPerrWrite_eq]
    exact hwr (r := .dcPerrStat) rfl
  case readOnly =>
    simp only [List.forall_mem_cons, List.not_mem_nil, false_imp_iff, implies_true, and_true]
    exact ⟨hwr (r := .isr) rfl, hwr (r := .itbPteTemp) rfl, hwr (r := .excMask) rfl, hwr (r := .intid) rfl,
      hwr (r := .ifaultVaForm) rfl, hwr (r := .slRcv) rfl, hwr (r := .dtbPteTemp) rfl, hwr (r := .mmStat) rfl, hwr (r := .va) rfl,
      hwr (r := .vaForm) rfl, hwr (r := .dcTestTagTemp) rfl⟩
  case icsr =>
    have hicsr := s.writeIcsr_eq v
    refine ⟨fun h37 => ?_, fun h37 => ⟨s.freeNow, ?_⟩⟩
    · rw [if_pos h37] at hicsr
      exact hwr (r := .icsr) hicsr
    · rw [h37, if_neg Bool.false_ne_true] at hicsr
      exact hwr (r := .icsr) hicsr
  case mcsr =>
    rw [← BitVec.setWidth_eq_extractLsb' (by decide)]
    exact hwr (r := .mcsr) (s.writeMcsr_eq ⟨h3, h5⟩)
  case icFlush =>
    obtain ⟨l, hl, hflush⟩ := s.icFlush_eq
    exact ⟨_, l, hwr (r := .icFlushCtl) (congrArg Host.Outcome.next hflush), rfl, hl, rfl, rfl⟩
  case testTag =>
    cases bank1
    · exact s.dcTestWritten i v _ _
    · exact s.dcTestWritten i v _ _

end Sys2Proof.Machine
end

section
/-! Interrupt requests (R119, R120, R124, R127, R730, R731): each pending and enabled request by its level. -/

namespace Sys2Proof.Machine

/-- A request of level `n` is pending and enabled (R119, R731): of software, an AST, irq_h, a performance counter, power fail, or a
system machine check or a correctable error. -/
def State.asks (s : State) (n : Nat) : Prop :=
  (1 ≤ n ∧ n ≤ 15 ∧ s.ibox.sirr.getLsbD (n - 1) = true) ∨
  (n = 2 ∧ ∃ m, m ≤ s.ibox.icm.toNat ∧ s.ibox.astrr.getLsbD m = true ∧ s.ibox.aster.getLsbD m = true) ∨
  (∃ k, k < 4 ∧ n = 20 + k ∧ s.pins.irq.getLsbD k = true ∧ s.ibox.icsr.getLsbD (20 + k) = false) ∨
  (∃ k, k < 3 ∧ n = 29 ∧ s.ibox.pcReq.getLsbD k = true ∧ s.ibox.icsr.extractLsb' 8 2 ≠ 0#2 ∧
    s.ibox.pmctr.getLsbD (15 - 2 * k) = true) ∨
  (n = 30 ∧ s.pins.pwrFail = true) ∨
  (n = 31 ∧ (s.pins.sysMchChk = true ∨ s.ibox.crdReq = true ∧ s.ibox.icsr.getLsbD 32 = true))

variable {s : State}

theorem State.astPending_iff : s.astPending = true ↔
    ∃ m, m ≤ s.ibox.icm.toNat ∧ s.ibox.astrr.getLsbD m = true ∧ s.ibox.aster.getLsbD m = true := by
  have hfor (m : Nat) : s.astFor m = true ↔
      m ≤ s.ibox.icm.toNat ∧ s.ibox.astrr.getLsbD m = true ∧ s.ibox.aster.getLsbD m = true := by
    rw [State.astFor, Bool.and_eq_true, Bool.and_eq_true, decide_eq_true_eq, and_comm]
  simp only [State.astPending, Bool.or_eq_true, hfor]
  constructor
  · rintro (((h | h) | h) | h) <;> exact ⟨_, h⟩
  · rintro ⟨m, hm, h⟩
    have hlt : m < 4 := Nat.lt_of_le_of_lt hm s.ibox.icm.isLt
    interval_cases m
    · exact .inl (.inl (.inl ⟨hm, h⟩))
    · exact .inl (.inl (.inr ⟨hm, h⟩))
    · exact .inl (.inr ⟨hm, h⟩)
    · exact .inr ⟨hm, h⟩

theorem State.irqEnabled_iff (n : Nat) : s.irqEnabled n = true ↔
    s.pins.irq.getLsbD n = true ∧ s.ibox.icsr.getLsbD (20 + n) = false := by
  rw [State.irqEnabled, State.icsrBit, Bool.and_eq_true, Bool.not_eq_true']

theorem State.pcEnabled_iff (k : Fin 3) : s.pcEnabled k = true ↔
    s.ibox.pcReq.getLsbD k.val = true ∧ s.ibox.icsr.extractLsb' 8 2 ≠ 0#2 ∧ s.ibox.pmctr.getLsbD (15 - 2 * k.val) = true := by
  have hctl : (pmControl s.ibox.pmctr k).getLsbD 1 = s.ibox.pmctr.getLsbD (15 - 2 * k.val) := by
    rw [pmControl, field, BitVec.getLsbD_extractLsb', decide_eq_true (by decide), Bool.true_and]
    congr 1
    omega
  rw [State.pcEnabled, field, Bool.and_eq_true, Bool.and_eq_true, bne_iff_ne, hctl, and_assoc]

theorem State.mem_softRequests_iff (n : Nat) : (true, n) ∈ (List.range 15).map (fun i => (s.ibox.sirr.getLsbD i, i + 1)) ↔
    1 ≤ n ∧ n ≤ 15 ∧ s.ibox.sirr.getLsbD (n - 1) = true := by
  simp only [List.mem_map, List.mem_range, Prod.mk.injEq]
  constructor
  · rintro ⟨i, hi, hbit, rfl⟩
    exact ⟨by omega, by omega, hbit⟩
  · rintro ⟨h1, h15, hbit⟩
    exact ⟨n - 1, by omega, hbit, by omega⟩

theorem State.irqRequests_iff (n : Nat) :
    (∃ k, k < 4 ∧ n = 20 + k ∧ s.pins.irq.getLsbD k = true ∧ s.ibox.icsr.getLsbD (20 + k) = false) ↔
      (n = 20 ∧ s.irqEnabled 0 = true) ∨ (n = 21 ∧ s.irqEnabled 1 = true) ∨ (n = 22 ∧ s.irqEnabled 2 = true) ∨
        (n = 23 ∧ s.irqEnabled 3 = true) := by
  simp only [State.irqEnabled_iff]
  constructor
  · rintro ⟨k, hk, hn, h⟩
    interval_cases k
    · exact .inl ⟨hn, h⟩
    · exact .inr (.inl ⟨hn, h⟩)
    · exact .inr (.inr (.inl ⟨hn, h⟩))
    · exact .inr (.inr (.inr ⟨hn, h⟩))
  · rintro (⟨hn, h⟩ | ⟨hn, h⟩ | ⟨hn, h⟩ | ⟨hn, h⟩)
    · exact ⟨0, by decide, hn, h⟩
    · exact ⟨1, by decide, hn, h⟩
    · exact ⟨2, by decide, hn, h⟩
    · exact ⟨3, by decide, hn, h⟩

theorem State.pcRequests_iff (n : Nat) :
    (∃ k, k < 3 ∧ n = 29 ∧ s.ibox.pcReq.getLsbD k = true ∧ s.ibox.icsr.extractLsb' 8 2 ≠ 0#2 ∧
      s.ibox.pmctr.getLsbD (15 - 2 * k) = true) ↔
      (n = 29 ∧ s.pcEnabled 0 = true) ∨ (n = 29 ∧ s.pcEnabled 1 = true) ∨ (n = 29 ∧ s.pcEnabled 2 = true) := by
  simp only [State.pcEnabled_iff]
  constructor
  · rintro ⟨k, hk, hn, h⟩
    interval_cases k
    · exact .inl ⟨hn, h⟩
    · exact .inr (.inl ⟨hn, h⟩)
    · exact .inr (.inr ⟨hn, h⟩)
  · rintro (⟨hn, h⟩ | ⟨hn, h⟩ | ⟨hn, h⟩)
    · exact ⟨0, by decide, hn, h⟩
    · exact ⟨1, by decide, hn, h⟩
    · exact ⟨2, by decide, hn, h⟩

theorem asking_eq_iff (n m : Nat) (b : Bool) : (true, n) = (b, m) ↔ n = m ∧ b = true := by
  rw [Prod.mk.injEq, and_comm, eq_comm (a := true)]

/-- The list of requests holds those pending and enabled, by their levels. -/
theorem State.mem_requests_iff (n : Nat) : (true, n) ∈ s.requests ↔ s.asks n := by
  rw [State.requests, List.mem_append, State.mem_softRequests_iff, State.asks, State.irqRequests_iff, State.pcRequests_iff,
    ← State.astPending_iff]
  simp only [List.mem_cons, List.not_mem_nil, or_false, asking_eq_iff, Bool.and_eq_true, State.icsrBit, and_or_left, or_assoc]

/-! ## INTID (R119) -/

/-- INTID's search gives the highest level that asks, or what it began with. -/
theorem foldl_highest_spec (l : List (Bool × Nat)) (m : Nat) :
    let h := l.foldl (fun m p => if p.1 then max m p.2 else m) m
    m ≤ h ∧ (∀ n, (true, n) ∈ l → n ≤ h) ∧ (h = m ∨ (true, h) ∈ l) := by
  induction l generalizing m with
  | nil => exact ⟨Nat.le_refl m, fun n hn => absurd hn List.not_mem_nil, .inl rfl⟩
  | cons p l ih =>
    obtain ⟨b, k⟩ := p
    cases b with
    | false =>
      obtain ⟨hle, hall, hmem⟩ := ih m
      refine ⟨hle, fun n hn => hall n ?_, hmem.imp_right (List.mem_cons_of_mem _)⟩
      exact (List.mem_cons.1 hn).resolve_left fun h => by cases h
    | true =>
      obtain ⟨hle, hall, hmem⟩ := ih (max m k)
      refine ⟨Nat.le_trans (Nat.le_max_left m k) hle, fun n hn => ?_, ?_⟩
      · rcases List.mem_cons.1 hn with h | h
        · have hnk : n = k := congrArg Prod.snd h
          exact hnk.trans_le (Nat.le_trans (Nat.le_max_right m k) hle)
        · exact hall n h
      · rcases hmem with h | h
        · rcases Nat.le_total k m with hk | hk
          · exact .inl (h.trans (Nat.max_eq_left hk))
          · exact .inr (List.mem_cons.2 (.inl (Prod.ext rfl (h.trans (Nat.max_eq_right hk)))))
        · exact .inr (List.mem_cons_of_mem _ h)

theorem State.asks_le {n : Nat} (h : s.asks n) : n ≤ 31 := by
  rcases h with h | h | ⟨k, hk, h, -⟩ | ⟨k, hk, h, -⟩ | h | h <;> omega

/-- INTID is the highest level of a request that is pending and enabled, 0 if there is none. -/
theorem State.intid_spec (s : State) : (∀ n, s.asks n → n ≤ s.intid) ∧ (s.intid = 0 ∨ s.asks s.intid) := by
  obtain ⟨-, hall, hmem⟩ := foldl_highest_spec s.requests 0
  exact ⟨fun n hn => hall n (State.mem_requests_iff n |>.2 hn), hmem.imp_right (State.mem_requests_iff _).1⟩

theorem State.intid_le (s : State) : s.intid ≤ 31 :=
  s.intid_spec.2.elim (fun h => by omega) State.asks_le

end Sys2Proof.Machine
end

section
/-! HW_MFPR: completion, frame, values and side effects (R100 to R131, R200 to R226, R684; D6). -/

namespace Sys2Proof.Machine

variable {s : State} {r : Ipr} {idx : BitVec 16}

/-! ## What HW_MFPR does, as a value and a state (R684) -/

/-- What HW_MFPR of an index returns. -/
def State.mfprValue (s : State) (idx : BitVec 16) : Word :=
  match iprOf idx with
  | some r => s.iprRead r
  | none => s.freeNow

/-- What HW_MFPR of an index does besides writing Ra. -/
def State.mfprEffect (s : State) (idx : BitVec 16) : State :=
  match iprOf idx with
  | some r => s.iprAfterRead r
  | none => s

theorem State.mfpr_eq (s : State) (ra : RegNum) (idx : BitVec 16) :
    s.mfpr ra idx = ((s.mfprEffect idx).writeInt ra (s.mfprValue idx)).drawn.advance := by
  rw [State.mfpr, State.mfprEffect, State.mfprValue]
  cases iprOf idx <;> rfl

theorem State.mfprValue_of (h : iprOf idx = some r) : s.mfprValue idx = s.iprRead r := by
  rw [State.mfprValue, h]

theorem State.mfprEffect_of (h : iprOf idx = some r) : s.mfprEffect idx = s.iprAfterRead r := by
  rw [State.mfprEffect, h]

/-- The state after HW_MFPR, but for the registers. -/
theorem State.mfpr_frame (s : State) (ra : RegNum) (idx : BitVec 16) : ∃ i sh, s.mfpr ra idx =
    { s.mfprEffect idx with ints := i, shadow := sh, pc := (s.mfprEffect idx).pc + 4#64, freeCount := (s.mfprEffect idx).freeCount + 1 } := by
  obtain ⟨i, sh, hframe⟩ := (s.mfprEffect idx).writeInt_eq_registers ra (s.mfprValue idx)
  exact ⟨i, sh, by rw [s.mfpr_eq, hframe]; rfl⟩

/-- Only four registers have a read side effect. -/
theorem State.mfprEffect_self (h1 : idx ≠ 0x102#16) (h2 : idx ≠ 0x203#16) (h3 : idx ≠ 0x206#16) (h4 : idx ≠ 0x214#16) :
    s.mfprEffect idx = s := by
  rw [State.mfprEffect]
  cases hr : iprOf idx with
  | none => rfl
  | some r =>
    have hidx := eq_index_of_iprOf hr
    cases r with
    | itbPte => exact absurd hidx h1
    | dtbPte => exact absurd hidx h2
    | va => exact absurd hidx h3
    | dcTestTag => exact absurd hidx h4
    | _ => rfl

theorem State.mfprEffect_itbPte (s : State) : s.mfprEffect 0x102#16 = { s with
    ibox := { s.ibox with itbPteTemp := itbReadFormat s.itb.entries[s.itb.next] }
    itb := { s.itb with next := s.itb.next + 1 } } := State.mfprEffect_of (iprOf_index .itbPte)

theorem State.mfprEffect_dtbPte (s : State) : s.mfprEffect 0x203#16 = { s with
    mbox := { s.mbox with dtbPteTemp := dtbReadFormat s.dtb.entries[s.dtb.next] }
    dtb := { s.dtb with next := s.dtb.next + 1 } } := State.mfprEffect_of (iprOf_index .dtbPte)

theorem State.mfprEffect_va (s : State) : s.mfprEffect 0x206#16 = { s with mbox := { s.mbox with mmLock := false } } :=
  State.mfprEffect_of (iprOf_index .va)

theorem State.mfprEffect_dcTestTag (s : State) :
    s.mfprEffect 0x214#16 = { s with mbox := { s.mbox with dcTestTagTemp := s.dcTestView } } :=
  State.mfprEffect_of (iprOf_index .dcTestTag)

/-- What the side effect can change. -/
def State.readFramed (s u : State) (idx : BitVec 16) : Prop :=
  { u with
    ibox := { u.ibox with itbPteTemp := s.ibox.itbPteTemp }
    mbox := { u.mbox with
      mmLock := s.mbox.mmLock, dtbPteTemp := s.mbox.dtbPteTemp, dcTestTagTemp := s.mbox.dcTestTagTemp }
    itb := { u.itb with next := s.itb.next }, dtb := { u.dtb with next := s.dtb.next } } = s ∧
  (u.mbox.mmLock = if idx = 0x206#16 then false else s.mbox.mmLock) ∧
  (u.itb.next = if idx = 0x102#16 then s.itb.next + 1 else s.itb.next) ∧
  (u.dtb.next = if idx = 0x203#16 then s.dtb.next + 1 else s.dtb.next) ∧
  (idx ≠ 0x102#16 → u.ibox.itbPteTemp = s.ibox.itbPteTemp) ∧
  (idx ≠ 0x203#16 → u.mbox.dtbPteTemp = s.mbox.dtbPteTemp) ∧
  (idx ≠ 0x214#16 → u.mbox.dcTestTagTemp = s.mbox.dcTestTagTemp)

theorem State.readFramed_mfprEffect (s : State) (idx : BitVec 16) : s.readFramed (s.mfprEffect idx) idx := by
  by_cases h1 : idx = 0x102#16
  · subst h1
    rw [s.mfprEffect_itbPte]
    exact ⟨rfl, rfl, rfl, rfl, fun h => absurd rfl h, fun _ => rfl, fun _ => rfl⟩
  by_cases h2 : idx = 0x203#16
  · subst h2
    rw [s.mfprEffect_dtbPte]
    exact ⟨rfl, rfl, rfl, rfl, fun _ => rfl, fun h => absurd rfl h, fun _ => rfl⟩
  by_cases h3 : idx = 0x206#16
  · subst h3
    rw [s.mfprEffect_va]
    exact ⟨rfl, rfl, rfl, rfl, fun _ => rfl, fun _ => rfl, fun _ => rfl⟩
  by_cases h4 : idx = 0x214#16
  · subst h4
    rw [s.mfprEffect_dcTestTag]
    exact ⟨rfl, rfl, rfl, rfl, fun _ => rfl, fun _ => rfl, fun h => absurd rfl h⟩
  · rw [State.mfprEffect_self h1 h2 h3 h4]
    exact ⟨rfl, (if_neg h3).symm, (if_neg h1).symm, (if_neg h2).symm, fun _ => rfl, fun _ => rfl, fun _ => rfl⟩

/-- The side effect leaves the integer registers and their mapping. -/
theorem State.mfprEffect_registers (s : State) (idx : BitVec 16) :
    (s.mfprEffect idx).palmode = s.palmode ∧ (s.mfprEffect idx).ibox.icsr = s.ibox.icsr ∧ (s.mfprEffect idx).ints = s.ints ∧
      (s.mfprEffect idx).shadow = s.shadow ∧ (s.mfprEffect idx).pc = s.pc := by
  rw [State.mfprEffect]
  cases iprOf idx with
  | none => exact ⟨rfl, rfl, rfl, rfl, rfl⟩
  | some r => cases r <;> exact ⟨rfl, rfl, rfl, rfl, rfl⟩

theorem State.intWrite_mfpr (s : State) (ra : RegNum) (idx : BitVec 16) : s.intWrite (s.mfpr ra idx) ra (s.mfprValue idx) := by
  obtain ⟨hmode, hicsr, hints, hshadow, -⟩ := s.mfprEffect_registers idx
  rw [s.mfpr_eq]
  exact State.intWrite_congr (intWrite_of_same s ra _ hmode hicsr hints hshadow) rfl rfl rfl rfl

/-! ## Values, bit by bit -/

theorem placeBit_eq (b : Bool) (lo : Nat) : placeBit b lo = place (BitVec.ofBool b) lo := by
  cases b with
  | false => exact (BitVec.zero_shiftLeft lo).symm
  | true => rfl

section
variable {m p : Nat} {f : BitVec m}

/-- A bit outside a placed field is zero. -/
theorem bit_place_other {i : Nat} (h : i < p ∨ p + m ≤ i) : (place f p).getLsbD i = false := by
  by_cases hi : i < 64
  · rw [place_getLsbD _ _ hi]
    rcases h with h | h
    · rw [decide_eq_false (Nat.not_le.2 h), Bool.false_and]
    · rw [BitVec.getLsbD_of_ge _ _ (by omega), Bool.and_false]
  · exact BitVec.getLsbD_of_ge _ _ (Nat.not_lt.1 hi)

/-- A truth value at its place. -/
theorem bit_place_self {b : Bool} (hp : p < 64) : (place (BitVec.ofBool b) p).getLsbD p = b := by
  rw [place_getLsbD _ _ hp, decide_eq_true (Nat.le_refl p), Nat.sub_self, Bool.true_and]
  cases b <;> rfl

theorem bit_place_at {k : Nat} (h : p + k < 64) : (place f p).getLsbD (p + k) = f.getLsbD k := by
  rw [place_getLsbD _ _ h, decide_eq_true (Nat.le_add_right p k), Nat.add_sub_cancel_left, Bool.true_and]

/-- A field at its place. -/
theorem extract_place_self (h : p + m ≤ 64) : (place f p).extractLsb' p m = f := by
  apply BitVec.eq_of_getLsbD_eq
  intro i hi
  rw [BitVec.getLsbD_extractLsb', place_getLsbD _ _ (by omega), decide_eq_true hi, decide_eq_true (by omega : p ≤ p + i),
    Nat.add_sub_cancel_left, Bool.true_and, Bool.true_and]

/-- Bits beside a placed field are zero. -/
theorem extract_place_other {lo n : Nat} (h : lo + n ≤ p ∨ p + m ≤ lo) : (place f p).extractLsb' lo n = 0#n := by
  apply BitVec.eq_of_getLsbD_eq
  intro i hi
  rw [BitVec.getLsbD_extractLsb', bit_place_other (by omega), Bool.and_false, BitVec.getLsbD_zero]

/-- A placed field has no bits where a mask that covers it has none. -/
theorem place_and_not {mask : Word} (h : ∀ i < m, mask.getLsbD (p + i) = true) : place f p &&& ~~~mask = 0#64 := by
  apply BitVec.eq_of_getLsbD_eq
  intro i hi
  rw [BitVec.getLsbD_and, BitVec.getLsbD_not, BitVec.getLsbD_zero]
  by_cases hin : p ≤ i ∧ i < p + m
  · rw [show i = p + (i - p) by omega, h (i - p) (by omega), Bool.not_true, Bool.and_false, Bool.and_false]
  · rw [bit_place_other (by omega), Bool.false_and]

end

theorem extract_or (x y : Word) (lo n : Nat) : (x ||| y).extractLsb' lo n = x.extractLsb' lo n ||| y.extractLsb' lo n := by
  apply BitVec.eq_of_getLsbD_eq
  intro i hi
  simp only [BitVec.getLsbD_or, BitVec.getLsbD_extractLsb', decide_eq_true hi, Bool.true_and]

/-- A register that states every bit returns its contents. -/
theorem State.mfprValue_all {x : Word} (h : iprOf idx = some r) (hview : s.iprView r = (x, ~~~0#64)) : s.mfprValue idx = x := by
  rw [State.mfprValue_of h, State.iprRead, hview, mergeBits_all]

/-- A bit that a register states is that of its contents. -/
theorem State.mfprValue_getLsbD {x m : Word} (h : iprOf idx = some r) (hview : s.iprView r = (x, m)) {i : Nat}
    (hm : m.getLsbD i = true) : (s.mfprValue idx).getLsbD i = x.getLsbD i := by
  have hand := congrArg (BitVec.getLsbD · i) (mergeBits_and x m s.freeNow)
  rw [State.mfprValue_of h, State.iprRead, hview]
  simpa [hm] using hand

/-- So is a field. -/
theorem State.mfprValue_field {x m : Word} (h : iprOf idx = some r) (hview : s.iprView r = (x, m)) {lo n : Nat}
    (hm : ∀ i < n, m.getLsbD (lo + i) = true) : (s.mfprValue idx).extractLsb' lo n = x.extractLsb' lo n := by
  apply BitVec.eq_of_getLsbD_eq
  intro i hi
  rw [BitVec.getLsbD_extractLsb', BitVec.getLsbD_extractLsb', State.mfprValue_getLsbD h hview (hm i hi)]

/-- The read format of an ITB entry, field by field (R103). -/
theorem itbReadFormat_fields (e : ItbEntry) :
    let x := itbReadFormat e
    x.extractLsb' 32 27 = e.pfn ∧ x.getLsbD 31 = decide (e.gh.toNat = 3) ∧ x.getLsbD 30 = decide (2 ≤ e.gh.toNat) ∧
      x.getLsbD 29 = decide (1 ≤ e.gh.toNat) ∧ x.getLsbD 13 = e.asm ∧ x.extractLsb' 9 4 = e.re ∧
      x &&& ~~~0x7FFFFFFE0003E00#64 = 0#64 := by
  have hgh : ∀ gh : BitVec 2, (gh == 3#2) = decide (gh.toNat = 3) ∧
      (gh == 2#2 || decide (gh.toNat = 3)) = decide (2 ≤ gh.toNat) ∧
      (gh != 0#2) = decide (1 ≤ gh.toNat) := by decide
  obtain ⟨h3, h2, h1⟩ := hgh e.gh
  intro x
  simp only [x, itbReadFormat, h3, h2, h1, placeBit_eq]
  refine ⟨?_, ?_, ?_, ?_, ?_, ?_, ?zeros⟩
  case zeros =>
    simp (disch := decide) only [or_and_right, place_and_not, BitVec.or_zero]
  all_goals
    simp (disch := omega) only [extract_or, BitVec.getLsbD_or, extract_place_self, extract_place_other, bit_place_self,
      bit_place_other, BitVec.or_zero, BitVec.zero_or, Bool.or_false, Bool.false_or]

/-- The read format of a DTB entry, field by field (R205, D6). -/
theorem dtbReadFormat_fields (e : DtbEntry) :
    let x := dtbReadFormat e
    x.getLsbD 1 = e.faultRd ∧ x.getLsbD 2 = e.faultWr ∧ x.getLsbD 4 = e.asm ∧ x.extractLsb' 5 2 = e.gh ∧
      x.extractLsb' 8 4 = e.re ∧ x.extractLsb' 12 4 = e.we ∧ x.extractLsb' 32 27 = e.pfn ∧
      x &&& ~~~0x7FFFFFF0000FF76#64 = 0#64 := by
  intro x
  simp only [x, dtbReadFormat, placeBit_eq]
  refine ⟨?_, ?_, ?_, ?_, ?_, ?_, ?_, ?zeros⟩
  case zeros =>
    simp (disch := decide) only [or_and_right, place_and_not, BitVec.or_zero]
  all_goals
    simp (disch := omega) only [extract_or, BitVec.getLsbD_or, extract_place_self, extract_place_other, bit_place_self,
      bit_place_other, BitVec.or_zero, BitVec.zero_or, Bool.or_false, Bool.false_or]

/-- ISR, request by request (R124). -/
theorem State.isr_fields (s : State) :
    let v := s.isr
    v.extractLsb' 0 4 = s.ibox.astrr &&& s.ibox.aster ∧ v.extractLsb' 4 15 = s.ibox.sirr ∧ v.getLsbD 19 = s.astPending ∧
      v.extractLsb' 20 4 = s.pins.irq ∧ v.extractLsb' 27 3 = s.ibox.pcReq ∧ v.getLsbD 30 = s.pins.pwrFail ∧
      v.getLsbD 31 = s.pins.sysMchChk ∧ v.getLsbD 32 = s.ibox.crdReq ∧ v.getLsbD 33 = s.ibox.sliReq ∧
      v.getLsbD 34 = s.pins.mchHlt := by
  intro v
  simp only [v, State.isr, placeBit_eq]
  refine ⟨?_, ?_, ?_, ?_, ?_, ?_, ?_, ?_, ?_, ?_⟩
  all_goals
    simp (disch := omega) only [extract_or, BitVec.getLsbD_or, extract_place_self, extract_place_other, bit_place_self,
      bit_place_other, BitVec.or_zero, BitVec.zero_or, Bool.or_false, Bool.false_or]

/-- The data parity bits of a quadword of a block, longword by longword (R222). -/
theorem DcLine.dataParity_bit (l : DcLine) (q : Nat) {k : Nat} (hk : k < 2) : (l.dataParity q).getLsbD k =
    (parityOf (hexLong l.data (2 * q + k)) != l.badData.getLsbD (2 * q + k)) := by
  have hbit (b : Bool) : (BitVec.ofBool b).getLsbD 0 = b := by cases b <;> rfl
  rw [DcLine.dataParity]
  interval_cases k
  · rw [bit_cat_lo _ _ 0 (by omega), hbit]
    rfl
  · rw [bit_cat_hi _ _ 1 (by omega), hbit]

/-- DC_TEST_TAG's view, field by field (R220 to R222). -/
theorem State.dcTestView_fields (s : State) :
    let bank (b : Bool) := dcGet (s.mbox.dcTestCtl.extractLsb' 5 8).toNat (s.dcache.bank b)
    let l := if s.mbox.dcTestCtl.getLsbD 0 then bank false else bank true
    let x := s.dcTestView
    let long (k : Nat) := 2 * (s.mbox.dcTestCtl.extractLsb' 3 2).toNat + k
    x.extractLsb' 13 26 = l.tag ∧ x.getLsbD 2 = l.parity ∧ x.getLsbD 11 = l.valid0 ∧ x.getLsbD 12 = l.valid1 ∧
      ∀ b : Bool, ∀ k < 2, x.getLsbD ((if b then 5 else 3) + k) =
        (parityOf (hexLong (bank b).data (long k)) != (bank b).badData.getLsbD (long k)) := by
  intro bank l x long
  have hview : x = place (BitVec.ofBool l.parity) 2 ||| place ((bank false).dataParity (s.mbox.dcTestCtl.extractLsb' 3 2).toNat) 3 |||
      place ((bank true).dataParity (s.mbox.dcTestCtl.extractLsb' 3 2).toNat) 5 ||| place (BitVec.ofBool l.valid0) 11 |||
      place (BitVec.ofBool l.valid1) 12 ||| place l.tag 13 := by
    rw [← placeBit_eq, ← placeBit_eq, ← placeBit_eq]
    rfl
  rw [hview]
  refine ⟨?_, ?_, ?_, ?_, fun b k hk => ?parity⟩
  case parity =>
    rw [← DcLine.dataParity_bit _ _ hk]
    cases b
    · change BitVec.getLsbD _ (3 + k) = _
      simp (disch := omega) only [BitVec.getLsbD_or, bit_place_at, bit_place_other, Bool.or_false, Bool.false_or]
    · change BitVec.getLsbD _ (5 + k) = _
      simp (disch := omega) only [BitVec.getLsbD_or, bit_place_at, bit_place_other, Bool.or_false, Bool.false_or]
  all_goals
    simp (disch := omega) only [extract_or, BitVec.getLsbD_or, extract_place_self, extract_place_other, bit_place_self,
      bit_place_other, BitVec.or_zero, BitVec.zero_or, Bool.or_false, Bool.false_or]

/-- EXC_SUM at its place, the other bits zero (R113). -/
theorem place_excSum (f : BitVec 7) : place f 10 = 0#47 ++ (f ++ 0#10) := by
  apply BitVec.eq_of_getLsbD_eq
  intro i hi
  rw [place_getLsbD _ _ hi]
  rcases Nat.lt_or_ge i 17 with h17 | h17
  · rw [bit_cat_lo _ _ _ h17]
    rcases Nat.lt_or_ge i 10 with h10 | h10
    · rw [bit_cat_lo _ _ _ h10, decide_eq_false (Nat.not_le.2 h10), Bool.false_and, BitVec.getLsbD_zero]
    · rw [bit_cat_hi _ _ _ h10, decide_eq_true h10, Bool.true_and]
  · rw [bit_cat_hi _ _ _ h17, BitVec.getLsbD_of_ge f _ (by omega), Bool.and_false, BitVec.getLsbD_zero]

theorem extract_ofNat (n : Nat) : (BitVec.ofNat 64 n).extractLsb' 0 5 = BitVec.ofNat 5 n := by
  apply BitVec.eq_of_toNat_eq
  rw [BitVec.extractLsb'_toNat, BitVec.toNat_ofNat, BitVec.toNat_ofNat, Nat.shiftRight_zero]
  omega

/-- Settles O43: the frame is that of `mfprEffect`, and each value the contents of its register, in the bits that it states. -/
theorem iprReads : Obligations.IprReads := by
  intro ra rb idx s hpal asks
  obtain ⟨i, sh, ht⟩ := s.mfpr_frame ra idx
  obtain ⟨-, -, -, -, hpc⟩ := s.mfprEffect_registers idx
  obtain ⟨hframe, hlock, hitb, hdtb, hitbTemp, hdtbTemp, htagTemp⟩ := s.readFramed_mfprEffect idx
  have hwrite := s.intWrite_mfpr ra idx
  have hexec := exec_hwMfpr (s.palAllowed_iff.2 hpal) ra rb idx
  rw [ht] at hwrite hexec
  refine ⟨_, s.mfprValue idx, hexec, hwrite, congrArg (· + 4#64) hpc,
    congrArg (fun w : State => { w with ints := s.ints, shadow := s.shadow, pc := s.pc, freeCount := s.freeCount }) hframe,
    hlock, hitb, hdtb, ?itbPte, hitbTemp, ?dtbPte, hdtbTemp, htagTemp, ?excAddr, ?excSum, ?excMask, ?intid, ?mmStat, ?va, ?vaForm,
    ?vaFormNt, ?isr, ?itbPteTemp, ?dtbPteTemp, ?ifaultVaForm, ?slRcv, ?icperrStat, ?dcPerrStat, ?dcTestTagTemp, ?mafMode, ?dcTestTag,
    ?palTemp⟩
  case itbPte =>
    rintro rfl
    rw [s.mfprEffect_itbPte]
    exact ⟨State.mfprValue_all (iprOf_index .itbPte) rfl, itbReadFormat_fields _⟩
  case dtbPte =>
    rintro rfl
    rw [s.mfprEffect_dtbPte]
    exact ⟨State.mfprValue_all (iprOf_index .dtbPte) rfl, dtbReadFormat_fields _⟩
  case excAddr =>
    rintro rfl
    exact State.mfprValue_all (iprOf_index .excAddr) rfl
  case excSum =>
    rintro rfl
    exact (State.mfprValue_all (iprOf_index .excSum) rfl).trans (place_excSum _)
  case excMask =>
    rintro rfl
    exact State.mfprValue_all (iprOf_index .excMask) rfl
  case intid =>
    rintro rfl
    have hlevel : (s.mfprValue 0x111#16).extractLsb' 0 5 = BitVec.ofNat 5 s.intid :=
      (State.mfprValue_field (iprOf_index .intid) rfl (by decide)).trans (extract_ofNat s.intid)
    have hintid : (BitVec.ofNat 5 s.intid).toNat = s.intid := by
      rw [BitVec.toNat_ofNat, Nat.mod_eq_of_lt (Nat.lt_succ_of_le s.intid_le)]
    rw [hlevel, hintid]
    exact s.intid_spec
  case mmStat =>
    rintro rfl
    exact (State.mfprValue_field (iprOf_index .mmStat) rfl (by decide)).trans (extract_place_self (by decide))
  case va =>
    rintro rfl
    exact State.mfprValue_all (iprOf_index .va) rfl
  case vaForm =>
    rintro rfl hnt
    refine (State.mfprValue_all (iprOf_index .vaForm) rfl).trans ((vaFormat_eq ..).trans (if_neg ?_))
    rw [State.mboxNt, hnt]
    exact Bool.false_ne_true
  case vaFormNt =>
    rintro rfl hnt
    exact (State.mfprValue_all (iprOf_index .vaForm) rfl).trans ((vaFormat_eq ..).trans (if_pos hnt))
  case isr =>
    rintro rfl
    have hfield {lo n : Nat} (hm : ∀ i < n, (0x7F8FFFFFF#64).getLsbD (lo + i) = true) :
        (s.mfprValue 0x100#16).extractLsb' lo n = s.isr.extractLsb' lo n := State.mfprValue_field (iprOf_index .isr) rfl hm
    have hbit {i : Nat} (hm : (0x7F8FFFFFF#64).getLsbD i = true) : (s.mfprValue 0x100#16).getLsbD i = s.isr.getLsbD i :=
      State.mfprValue_getLsbD (iprOf_index .isr) rfl hm
    simp (disch := decide) only [hfield, hbit, ← State.astPending_iff, Bool.coe_iff_coe]
    exact s.isr_fields
  case itbPteTemp =>
    rintro rfl
    exact State.mfprValue_all (iprOf_index .itbPteTemp) rfl
  case dtbPteTemp =>
    rintro rfl
    exact State.mfprValue_all (iprOf_index .dtbPteTemp) rfl
  case ifaultVaForm =>
    rintro rfl
    exact State.mfprValue_all (iprOf_index .ifaultVaForm) rfl
  case slRcv =>
    rintro rfl
    refine (State.mfprValue_getLsbD (iprOf_index .slRcv) rfl (by decide)).trans ?_
    rw [placeBit_eq, bit_place_self (by decide)]
  case icperrStat =>
    rintro rfl
    exact (State.mfprValue_field (iprOf_index .icperrStat) rfl (by decide)).trans (extract_place_self (by decide))
  case dcPerrStat =>
    rintro rfl
    exact (State.mfprValue_field (iprOf_index .dcPerrStat) rfl (by decide)).trans (extract_place_self (by decide))
  case dcTestTagTemp =>
    rintro rfl
    exact (congrArg (· &&& _) (State.mfprValue_of (iprOf_index .dcTestTagTemp))).trans (State.iprRead_and BitVec.and_self)
  case mafMode =>
    rintro rfl
    refine ⟨(State.mfprValue_field (iprOf_index .mafMode) rfl (by decide)).trans ?_,
      (State.mfprValue_getLsbD (iprOf_index .mafMode) rfl (by decide)).trans ?_,
      (State.mfprValue_getLsbD (iprOf_index .mafMode) rfl (by decide)).trans ?_⟩
    all_goals
      simp (disch := omega) only [placeBit_eq, extract_or, BitVec.getLsbD_or, extract_place_self, extract_place_other, bit_place_self,
        bit_place_other, BitVec.or_zero, Bool.or_false, Bool.false_or]
  case dcTestTag =>
    rintro rfl
    rw [s.mfprEffect_dcTestTag]
    exact s.dcTestView_fields
  case palTemp =>
    rintro k rfl
    exact State.mfprValue_all (iprOf_palTemp k) rfl

end Sys2Proof.Machine
end

section
/-! The step: when an interrupt is delivered, what the step of an instruction does, and what the counters change (R60, R130, R218,
R700, R702, R705, R730, R731). -/

namespace Sys2Proof.Machine

variable {s : State}

/-! ## Nothing on its way (R705, R1037) -/

theorem WbEntry.condTarget_eq_none (e : WbEntry) : e.condTarget = none ↔ e.isCond = false := by
  unfold WbEntry.condTarget WbEntry.isCond
  cases e.kind <;> simp

/-- Nothing is on its way, by the buffers: no load in the miss address file or for a fill, no STx_C. -/
theorem State.drained_iff_buffers : s.drained = true ↔
    s.maf = [] ∧ s.missLoads false = [] ∧ s.missLoads true = [] ∧ s.wb.any WbEntry.isCond = false := by
  have hwb : s.wb.filterMap WbEntry.condTarget = [] ↔ s.wb.any WbEntry.isCond = false := by
    rw [List.filterMap_eq_nil_iff, List.any_eq_false]
    exact forall₂_congr fun e _ => e.condTarget_eq_none.trans Bool.eq_false_iff
  rw [State.drained_iff, State.awaited, State.loadsWaiting, List.append_eq_nil_iff, List.map_eq_nil_iff, List.append_eq_nil_iff,
    List.append_eq_nil_iff, hwb]
  constructor
  · rintro ⟨hm, ⟨-, h0, h1⟩, hc⟩
    exact ⟨hm, h0, h1, hc⟩
  · rintro ⟨hm, h0, h1, hc⟩
    exact ⟨hm, ⟨by rw [hm]; rfl, h0, h1⟩, hc⟩

/-- Where nothing is on its way there is nothing to await. -/
theorem State.awaitLoads_of_drained (h : s.drained = true) : s.awaitLoads = s := by
  obtain ⟨hm, h0, h1, -⟩ := State.drained_iff_buffers.1 h
  have hl (register : Bool) : s.missLoads register = [] := by cases register <;> assumption
  unfold State.awaitLoads
  rw [hm]
  simp only [State.awaitLoadFills, hl, ne_eq, not_true_eq_false, if_false]

/-- Where nothing is on its way, no MB is under way and the write buffer has room, no word has to wait. -/
theorem State.blocked_of_drained (h : s.drained = true) (hmb : s.mbWaits = false) (hwb : s.wb.length < 6) (w : Longword) :
    s.blocked w = false := by
  obtain ⟨hm, -, -, hc⟩ := State.drained_iff_buffers.1 h
  obtain ⟨-, ha⟩ := State.drained_iff.1 h
  have hroom : decide (6 ≤ s.wb.length) = false := decide_eq_false (Nat.not_le.2 hwb)
  simp [State.blocked, hm, ha, hc, hroom, h, hmb]

/-! ## The step without an event (R702) -/

theorem State.raw_of_noInputs (h : s.inputs = []) : s.raw = s.runOne := by
  rw [State.raw, h]

/-- A machine check waits for what is on its way. -/
theorem step_of_mchkPending (hi : s.inputs = []) (hm : s.mchkPending = true) : step s = .next s.begin.idled.settle := by
  rw [step, State.stepOnce, State.raw_of_noInputs hi, State.runOne, if_pos hm]
  rfl

/-- An interrupt. -/
theorem step_of_interrupt (hi : s.inputs = []) (hp : s.palmode = false) (hint : s.interruptPending = true)
    (hm : s.mchkPending = false) : step s = .next s.begin.interrupted.settle := by
  rw [step, State.stepOnce, State.raw_of_noInputs hi, State.runOne, hm, hp, hint]
  rfl

/-- An instruction. -/
theorem step_of_insn {w : Longword} {u : State} (hi : s.inputs = []) (hm : s.mchkPending = false)
    (hint : s.palmode = true ∨ s.interruptPending = false) (hfetch : s.begin.fetch = .insn w u) :
    step s = mapRes State.settle ((u.readyFor w).runReady w) := by
  have hno : ¬ (!s.palmode && s.interruptPending) = true := by
    rcases hint with h | h <;> simp [h]
  rw [step, State.stepOnce, State.raw_of_noInputs hi, State.runOne, hm, if_neg Bool.false_ne_true, if_neg hno, hfetch,
    State.runFetched]

/-! ## When an interrupt is deliverable (R730, R731) -/

theorem State.interruptPending_iff : s.interruptPending = true ↔
    (∃ n, s.asks n ∧ s.ibox.iplr.toNat < n) ∨ s.pins.mchHlt = true ∨ s.ibox.sliReq = true := by
  have hany : s.requests.any (fun p => p.1 && decide (s.ibox.iplr.toNat < p.2)) = true ↔
      ∃ n, s.asks n ∧ s.ibox.iplr.toNat < n := by
    rw [List.any_eq_true]
    constructor
    · rintro ⟨⟨b, n⟩, hmem, h⟩
      obtain ⟨rfl, hlt⟩ := Bool.and_eq_true_iff.1 h
      exact ⟨n, (State.mem_requests_iff n).1 hmem, of_decide_eq_true hlt⟩
    · rintro ⟨n, hn, hlt⟩
      exact ⟨(true, n), (State.mem_requests_iff n).2 hn, Bool.and_eq_true_iff.2 ⟨rfl, decide_eq_true hlt⟩⟩
  rw [State.interruptPending, Bool.or_eq_true, Bool.or_eq_true, hany, or_assoc]

/-- A request above a level, by its kind. -/
theorem State.asks_above_iff (p : Nat → Prop) : (∃ n, s.asks n ∧ p n) ↔
    (∃ level, 1 ≤ level ∧ level ≤ 15 ∧ s.ibox.sirr.getLsbD (level - 1) = true ∧ p level) ∨
    (∃ m, m ≤ s.ibox.icm.toNat ∧ s.ibox.astrr.getLsbD m = true ∧ s.ibox.aster.getLsbD m = true ∧ p 2) ∨
    (∃ n, n < 4 ∧ s.pins.irq.getLsbD n = true ∧ s.ibox.icsr.getLsbD (20 + n) = false ∧ p (20 + n)) ∨
    (∃ k, k < 3 ∧ s.ibox.pcReq.getLsbD k = true ∧ s.ibox.icsr.extractLsb' 8 2 ≠ 0#2 ∧
      s.ibox.pmctr.getLsbD (15 - 2 * k) = true ∧ p 29) ∨
    (s.pins.pwrFail = true ∧ p 30) ∨ (s.pins.sysMchChk = true ∧ p 31) ∨
    (s.ibox.crdReq = true ∧ s.ibox.icsr.getLsbD 32 = true ∧ p 31) := by
  constructor
  · rintro ⟨n, ⟨h1, h15, hbit⟩ | ⟨rfl, m, hm, hr, he⟩ | ⟨k, hk, rfl, hirq, hmask⟩ | ⟨k, hk, rfl, hreq, hpme, hctl⟩ | ⟨rfl, hpwr⟩ |
      ⟨rfl, hsys | ⟨hcrd, hcrde⟩⟩, hp⟩
    · exact .inl ⟨n, h1, h15, hbit, hp⟩
    · exact .inr (.inl ⟨m, hm, hr, he, hp⟩)
    · exact .inr (.inr (.inl ⟨k, hk, hirq, hmask, hp⟩))
    · exact .inr (.inr (.inr (.inl ⟨k, hk, hreq, hpme, hctl, hp⟩)))
    · exact .inr (.inr (.inr (.inr (.inl ⟨hpwr, hp⟩))))
    · exact .inr (.inr (.inr (.inr (.inr (.inl ⟨hsys, hp⟩)))))
    · exact .inr (.inr (.inr (.inr (.inr (.inr ⟨hcrd, hcrde, hp⟩)))))
  · rintro (⟨n, h1, h15, hbit, hp⟩ | ⟨m, hm, hr, he, hp⟩ | ⟨k, hk, hirq, hmask, hp⟩ | ⟨k, hk, hreq, hpme, hctl, hp⟩ | ⟨hpwr, hp⟩ |
      ⟨hsys, hp⟩ | ⟨hcrd, hcrde, hp⟩)
    · exact ⟨n, .inl ⟨h1, h15, hbit⟩, hp⟩
    · exact ⟨2, .inr (.inl ⟨rfl, m, hm, hr, he⟩), hp⟩
    · exact ⟨20 + k, .inr (.inr (.inl ⟨k, hk, rfl, hirq, hmask⟩)), hp⟩
    · exact ⟨29, .inr (.inr (.inr (.inl ⟨k, hk, rfl, hreq, hpme, hctl⟩))), hp⟩
    · exact ⟨30, .inr (.inr (.inr (.inr (.inl ⟨rfl, hpwr⟩)))), hp⟩
    · exact ⟨31, .inr (.inr (.inr (.inr (.inr ⟨rfl, .inl hsys⟩)))), hp⟩
    · exact ⟨31, .inr (.inr (.inr (.inr (.inr ⟨rfl, .inr ⟨hcrd, hcrde⟩⟩)))), hp⟩

/-- Settles O48: the requests by their levels, and the step by `step_of_interrupt`. -/
theorem interruptDelivery : Obligations.InterruptDelivery := by
  intro s below
  refine ⟨?pending, fun hi hp hint hm => ?taken⟩
  case pending =>
    rw [State.interruptPending_iff, State.asks_above_iff]
    simp only [or_assoc, below]
  case taken =>
    intro u
    have hstep := step_of_interrupt hi hp hint hm
    have hinterrupted (hk : u.mchkPending = false) : s.begin.interrupted = if u.drained then u.takeInterrupt else u.idled := by
      rw [State.interrupted, if_neg (by rw [show s.begin.awaitLoads.mchkPending = false from hk]; exact Bool.false_ne_true)]
      rfl
    refine ⟨fun hk hd => ?_, fun hk hd => ?_, State.drained_iff_buffers, fun hidle => ?_⟩
    · rw [hstep, hinterrupted hk, if_pos hd]
      rfl
    · rw [hstep, hinterrupted hk, hd]
      rfl
    · have hbegin : s.begin.idle := hidle
      have hu : u = s.begin := State.awaitLoads_of_drained hbegin.1
      have htrap : (s.begin.trap .interrupt s.pc).idle := hidle
      rw [hstep, hinterrupted (by rw [hu]; exact hm), hu, if_pos hbegin.1]
      change ∃ t, Host.Outcome.next (State.settle (s.begin.trap .interrupt s.pc)) = .next t ∧ _
      rw [State.settle_idle htrap]
      obtain ⟨hpc, hmode, hibox, hflag, hrest⟩ := trapped_trap s.begin .interrupt s.pc
      exact ⟨_, rfl, hpc, hmode, hibox, hflag, congrArg (fun v : State => { v with ended := s.ended }) hrest⟩

/-! ## The counters (R130, R218, R975) -/

theorem State.countOne_frame (s : State) (c n : Nat) (k : Fin 3) :
    ∃ p q, s.countOne c n k = { s with ibox := { s.ibox with pmctr := p, pcReq := q } } := by
  unfold State.countOne
  dsimp only
  split <;> exact ⟨_, _, rfl⟩

/-- Cycles that pass move the counters on, and nothing else. -/
theorem State.elapse_frame (u t : State) (c n : Nat) : ∃ cc p q pulse, State.elapse u t c n = { t with
    mbox := { t.mbox with ccLo := cc }, ibox := { t.ibox with pmctr := p, pcReq := q }, pulse := pulse, tally := [] } := by
  unfold State.elapse
  dsimp only
  obtain ⟨cc, hcc⟩ : ∃ cc, (if t.mbox.ccEna then { t with mbox := { t.mbox with ccLo := t.mbox.ccLo + BitVec.ofNat 32 c } } else t) =
      { t with mbox := { t.mbox with ccLo := cc } } := by
    split <;> exact ⟨_, rfl⟩
  rw [hcc]
  split
  · obtain ⟨p0, q0, h0⟩ := State.countOne_frame { t with mbox := { t.mbox with ccLo := cc } } c n 0
    rw [h0]
    obtain ⟨p1, q1, h1⟩ := State.countOne_frame
      { t with mbox := { t.mbox with ccLo := cc }, ibox := { t.ibox with pmctr := p0, pcReq := q0 } } c n 1
    rw [h1]
    obtain ⟨p2, q2, h2⟩ := State.countOne_frame
      { t with mbox := { t.mbox with ccLo := cc }, ibox := { t.ibox with pmctr := p1, pcReq := q1 } } c n 2
    exact ⟨cc, p2, q2, _, by rw [h2]⟩
  · exact ⟨cc, _, _, _, rfl⟩

/-- While no counter counts, cycles that pass leave the counters. -/
theorem State.elapse_inactive {t : State} (u : State) (hcc : t.mbox.ccEna = false) (hpm : t.pmActive = false) (hpulse : t.pulse = 0)
    (c n : Nat) : State.elapse u t c n = { t with tally := [] } := by
  unfold State.elapse
  rw [hcc, hpm, hpulse, Bool.false_and]
  rfl

/-- Settles O49: the step by `step_of_insn`, the idle state by the lemmas about it, and the counters by their frame. -/
theorem stepRunsDecoded : Obligations.StepRunsDecoded := by
  refine ⟨fun w i s u hi hm hint hfetch hdecode => ?runs, fun s w => ⟨fun hd hb hw => State.blocked_of_drained hd hb hw w, ?idle⟩, ?drain,
    fun u t => ⟨?frame, ?inactive⟩⟩
  case runs =>
    intro v
    have hstep : step s = mapRes State.settle (v.runReady w) := step_of_insn hi hm hint hfetch
    refine ⟨fun hk => ?mchk, fun hk hb => ?blocked, fun hk hb => ?runs⟩
    case mchk =>
      rw [hstep, State.runReady, if_pos hk]
      rfl
    case blocked =>
      rw [hstep, State.runReady, hk, if_neg Bool.false_ne_true, if_pos hb]
      rfl
    case runs =>
      have hrun : step s = mapRes State.settle (mapRes v.finish (exec i v)) := by
        rw [hstep, State.runReady, hk, if_neg Bool.false_ne_true, hb, if_neg Bool.false_ne_true, State.runWord, hdecode]
      refine ⟨fun t ht hdone => ?_, fun t ht hended hd => ?_, fun f hf => ?_, fun r hr => ?_⟩
      · have hfinish : v.finish t = (State.count v t).drainRefill := by
          refine if_neg fun h => ?_
          rcases hdone with h' | h'
          · exact h.1 h'
          · exact Bool.false_ne_true (h.2.symm.trans h')
        rw [hrun, ht, ← hfinish]
        rfl
      · have hfinish : v.finish t = v.drain := if_pos ⟨hended, hd⟩
        rw [hrun, ht, ← hfinish]
        rfl
      · rw [hrun, hf]
        rfl
      · rw [hrun, hr]
        rfl
  case idle =>
    exact fun h => ⟨State.readyFor_idle h w, h.1, State.blocked_idle h w, State.settle_idle h⟩
  case drain =>
    intro s h
    rw [State.drainRefill, h]
  case frame =>
    obtain ⟨cc, p, q, pulse, h⟩ := State.elapse_frame u t (Config.cycles t.freeCount) (if t.ended = .fault then 0 else 1)
    rw [State.count, h]
  case inactive =>
    intro hcc hpm hpulse
    rw [State.count, State.elapse_inactive u hcc hpm hpulse, hcc, hpm, hpulse]
    rfl

end Sys2Proof.Machine
end

section
/-! The error registers and the machine check (61_errors.md; R110, R210, R243 to R246, R254, R704, R718). -/

namespace Sys2Proof.Machine

variable {s : State} {a : PAddr}

/-! ## Dcache parity errors (R210, R907, R908) -/

/-- The bank that serves a reference is one of the two; at most a free value is drawn to choose it. -/
theorem State.dcReference_bank (s : State) (quad write : Bool) (a : PAddr) :
    ∃ bank1 n, s.dcReference quad write a = (s.dcLook bank1 quad write a, { s with freeCount := n }) := by
  rw [State.dcReference]
  split
  · exact ⟨false, _, rfl⟩
  · split
    · exact ⟨true, _, rfl⟩
    · exact ⟨false, _, rfl⟩

/-- `u` is `s` after a Dcache parity error of the reference `r` with error bits `e`: DC_PERR_STAT, VA and MM_STAT, and the machine check
it asks for. -/
def State.parityRecorded (s u : State) (r : Ref) (e : BitVec 4) : Prop :=
  u.mchkPending = true ∧
  u.mbox = { s.mbox with
    dcPerrStat := if s.mbox.dcPerrStat.getLsbD 1 then s.mbox.dcPerrStat ||| 1#6 else (e ++ 2#2) ||| (s.mbox.dcPerrStat &&& 1#6)
    va := if s.mbox.mmLock then s.mbox.va else r.va
    mmStat := if s.mbox.mmLock then s.mbox.mmStat else r.opcode ++ (r.ra ++ (if r.write then 1#6 else 0#6))
    mmLock := true } ∧
  { u with mchkPending := s.mchkPending, mbox := s.mbox, freeCount := s.freeCount } = s

theorem State.captureMm_mbox (s : State) (va : Word) (bits : MmBits) (ra : RegNum) (opcode : BitVec 6) :
    (s.captureMm va bits ra opcode).mbox = { s.mbox with
      va := if s.mbox.mmLock then s.mbox.va else va
      mmStat := if s.mbox.mmLock then s.mbox.mmStat else opcode ++ (ra ++ bits)
      mmLock := true } := by
  unfold State.captureMm
  cases hlock : s.mbox.mmLock with
  | true =>
    change s.mbox = { s.mbox with mmLock := true }
    rw [← hlock]
  | false => rfl

theorem State.parityRecorded_dcError (s : State) (n : Nat) (r : Ref) (e : BitVec 4) :
    s.parityRecorded (State.drawn (State.dcError { s with freeCount := n } e r.va r.write r.ra r.opcode)) r e := by
  refine ⟨rfl, ?record, ?frame⟩
  case record =>
    rw [State.drawn_mbox, State.dcError]
    dsimp only
    rw [State.captureMm_mbox]
    rfl
  case frame =>
    unfold State.dcError State.captureMm
    split <;> rfl

/-- The register of a load may be written before or after the free value is drawn. -/
theorem State.drawn_deliver (u : State) (t : LoadTarget) (v : Word) : (u.deliver t v).drawn = u.drawn.deliver t v := by
  cases t with
  | int slot long => cases slot <;> rfl
  | fp n form =>
    change (u.writeFp n (form.load v)).drawn = u.drawn.writeFp n (form.load v)
    unfold State.writeFp
    split <;> rfl

/-- A load for which each bank has a parity error meets that of one bank, and gives its register any value. -/
theorem State.loadMemory_parity {r : Ref} (t : LoadTarget) (h : ∀ bank1, (s.dcLook bank1 r.quad false a).errors ≠ 0#4) :
    ∃ bank1 u v, s.loadMemory r false t a = u.deliver t v ∧ s.parityRecorded u r (s.dcLook bank1 r.quad false a).errors := by
  obtain ⟨bank1, n, href⟩ := s.dcReference_bank r.quad false a
  have herr := h bank1
  have hload : s.loadMemory r false t a =
      (State.dcError { s with freeCount := n } (s.dcLook bank1 r.quad false a).errors r.va r.write r.ra r.opcode).deliverAny t r.quad := by
    unfold State.loadMemory State.loadForced
    simp only [href, if_pos herr, Bool.false_eq_true, if_false, ite_self]
  rw [State.deliverAny, State.drawn_deliver] at hload
  exact ⟨bank1, _, _, hload, s.parityRecorded_dcError n r _⟩

/-- What a load leaves, from the state in which it delivers: its registers, the PC and the mark of an MB are the load's own. -/
theorem State.accessDone_deliver {s u t : State} {target : LoadTarget} {v : Word} (ht : t = State.accessDone (u.deliver target v))
    (hu : { u with ints := s.ints, shadow := s.shadow, fregs := s.fregs, pc := s.pc, afterMb := s.afterMb } = u) :
    t = State.accessDone (State.deliver { t with
      ints := s.ints, shadow := s.shadow, fregs := s.fregs, pc := s.pc, afterMb := s.afterMb } target v) := by
  obtain ⟨i, sh, f, hframe⟩ := u.deliver_frame target v
  have hrest : { t with ints := s.ints, shadow := s.shadow, fregs := s.fregs, pc := s.pc, afterMb := s.afterMb } = u := by
    rw [ht, hframe, ← hu]
    rfl
  rw [hrest, ht]

/-- A load that meets Dcache parity errors in both banks delivers any value and records the error of one. -/
theorem State.load_parity {r : Ref} (target : LoadTarget) (hreach : s.reaches r a)
    (h : ∀ bank1, (s.dcLook bank1 r.quad false a).errors ≠ 0#4) :
    ∃ t v bank1, s.load r false target = .next t ∧
      t = State.accessDone (State.deliver { t with
        ints := s.ints, shadow := s.shadow, fregs := s.fregs, pc := s.pc, afterMb := s.afterMb } target v) ∧
      t.mchkPending = true ∧
      t.mbox = { s.mbox with
        dcPerrStat := if s.mbox.dcPerrStat.getLsbD 1 then s.mbox.dcPerrStat ||| 1#6
          else ((s.dcLook bank1 r.quad false a).errors ++ 2#2) ||| (s.mbox.dcPerrStat &&& 1#6)
        va := if s.mbox.mmLock then s.mbox.va else r.va
        mmStat := if s.mbox.mmLock then s.mbox.mmStat else r.opcode ++ (r.ra ++ (if r.write then 1#6 else 0#6))
        mmLock := true } := by
  obtain ⟨pa, hit, htr, rfl, hreg, horder⟩ := hreach
  obtain ⟨bank1, u, v, hload, hmchk, hmbox, hrest⟩ := State.loadMemory_parity (s := s.touchDtb hit) target
    fun bank1 => by rw [State.touchDtb_dcLook]; exact h bank1
  rw [State.touchDtb_dcLook, State.touchDtb_mbox] at hmbox
  have hnext : s.load r false target = .next (State.accessDone (u.deliver target v)) := by
    rw [State.load, State.dstream_ok htr horder, State.loadAt_memory (by rwa [State.touchDtb_accessAddress]),
      State.touchDtb_accessAddress, hload]
    rfl
  have hsame : { u with ints := s.ints, shadow := s.shadow, fregs := s.fregs, pc := s.pc, afterMb := s.afterMb } = u := by
    rw [show s.ints = u.ints from ((congrArg State.ints hrest).trans (s.touchDtb_ints hit)).symm,
      show s.shadow = u.shadow from ((congrArg State.shadow hrest).trans (s.touchDtb_shadow hit)).symm,
      show s.fregs = u.fregs from ((congrArg State.fregs hrest).trans (s.touchDtb_fregs hit)).symm,
      show s.pc = u.pc from ((congrArg State.pc hrest).trans (s.touchDtb_pc hit)).symm,
      show s.afterMb = u.afterMb from ((congrArg State.afterMb hrest).trans (s.touchDtb_afterMb hit)).symm]
  obtain ⟨i, sh, f, hframe⟩ := u.deliver_frame target v
  exact ⟨_, v, bank1, hnext, State.accessDone_deliver rfl hsame, (congrArg State.mchkPending hframe).trans hmchk,
    (congrArg State.mbox hframe).trans hmbox⟩

/-! ## Errors of the Scache and of the external interface (R243 to R246, R254, R914) -/

/-- SC_ADDR takes bits <38:4> of the address (R245). -/
theorem scAddr_eq (pa : PAddr) : pa.setWidth 64 &&& 0x7FFFFFFFF0#64 = 0#25 ++ (pa.extractLsb' 4 35 ++ 0#4) := by
  have hmask : 0x7FFFFFFFF0#64 = 0#25 ++ (BitVec.allOnes 35 ++ 0#4) := by decide
  rw [hmask]
  apply BitVec.eq_of_getLsbD_eq
  intro i hi
  rw [BitVec.getLsbD_and, BitVec.getLsbD_setWidth, decide_eq_true hi, Bool.true_and]
  rcases Nat.lt_or_ge i 39 with h39 | h39
  · rw [bit_cat_lo _ _ _ h39, bit_cat_lo _ _ _ h39]
    rcases Nat.lt_or_ge i 4 with h4 | h4
    · rw [bit_cat_lo _ _ _ h4, bit_cat_lo _ _ _ h4, BitVec.getLsbD_zero, Bool.and_false]
    · rw [bit_cat_hi _ _ _ h4, bit_cat_hi _ _ _ h4, BitVec.getLsbD_allOnes, BitVec.getLsbD_extractLsb',
        decide_eq_true (by omega : i - 4 < 35), Bool.and_true, Bool.true_and, Nat.add_sub_cancel' h4]
  · rw [bit_cat_hi _ _ _ h39, bit_cat_hi _ _ _ h39, BitVec.getLsbD_zero, Bool.and_false]

/-- The first Scache parity error is recorded and locked, a later one noted (R243, R245). -/
theorem State.scError_eq (h : s.scFhit = false) (tags : BitVec 3) (data : BitVec 8) (c : ScCommand) (pa : PAddr) :
    s.scError tags data c pa = { s with
      mchkPending := true
      cbox := if s.cbox.scLock then { s.cbox with scStat := s.cbox.scStat ||| 0x10000#17 }
        else { s.cbox with
          scStat := 0#1 ++ (c.code ++ (data ++ tags)), scAddr := 0#25 ++ (pa.extractLsb' 4 35 ++ 0#4), scLock := true } } := by
  rw [State.scError, h, if_neg Bool.false_ne_true, scAddr_eq]
  split <;> rfl

theorem eiHard_iff (stat : EiBits) : eiHard stat = true ↔ stat &&& 0x33#8 ≠ 0#8 := bne_iff_ne

/-- The first uncorrectable error of the external interface is recorded and locked, a later one noted (R246, R254). -/
theorem State.hardError_eq {bits : EiBits} (h : s.hardErrorHidden bits = false) (memory istream : Bool) (pa : PAddr)
    (syndrome : BitVec 16) : s.hardError bits memory istream pa syndrome = { s with
      mchkPending := true
      cbox := if s.cbox.eiStat &&& 0x33#8 ≠ 0#8 then { s.cbox with eiStat := s.cbox.eiStat ||| 0x80#8 }
        else { s.cbox with
          eiStat := (s.cbox.eiStat &&& 8#8) ||| bits ||| eiSource memory istream, eiLock := true, eiAddr := pa.extractLsb' 4 36
          fillSyn := if bits = 16#8 then syndrome else s.cbox.fillSyn, bcTagLock := true } } := by
  rw [State.hardError, h, if_neg Bool.false_ne_true]
  by_cases hhard : s.cbox.eiStat &&& 0x33#8 ≠ 0#8
  · rw [if_pos hhard, if_pos ((eiHard_iff _).2 hhard)]
  · rw [if_neg hhard, if_neg (mt (eiHard_iff _).1 hhard)]
    rfl

/-- A correctable error is recorded without a lock, behind a hard one only noted, behind another not at all (R254). -/
theorem State.recordCorrectable_eq (s : State) (memory istream : Bool) (pa : PAddr) (syndrome : BitVec 16) :
    s.recordCorrectable memory istream pa syndrome = { s with
      cbox := if s.cbox.eiStat.getLsbD 3 = true then s.cbox
        else if s.cbox.eiStat &&& 0x33#8 ≠ 0#8 then { s.cbox with eiStat := s.cbox.eiStat ||| 8#8 }
        else { s.cbox with
          eiStat := s.cbox.eiStat ||| 8#8 ||| eiSource memory istream, eiAddr := pa.extractLsb' 4 36, fillSyn := syndrome } } := by
  rw [State.recordCorrectable]
  split
  · rfl
  by_cases hhard : s.cbox.eiStat &&& 0x33#8 ≠ 0#8
  · rw [if_pos hhard, if_pos ((eiHard_iff _).2 hhard)]
  · rw [if_neg hhard, if_neg (mt (eiHard_iff _).1 hhard)]

/-! ## The machine check (R704, R705, R718) -/

theorem State.takeMchk_drained (h : s.mchkPending = true) (hd : s.awaitLoads.drained = true) :
    s.takeMchk = State.mchkHere { s.awaitLoads with mchkPending := false } := by
  rw [State.takeMchk, if_pos h, if_pos hd]

theorem State.takeMchk_waits (h : s.mchkPending = true) (hd : s.awaitLoads.drained = false) : s.takeMchk = s.awaitLoads := by
  rw [State.takeMchk, if_pos h, hd, if_neg Bool.false_ne_true]

/-- A machine check waits only for something on its way. -/
theorem State.drained_of_takeMchk (h : s.takeMchk.mchkPending = true) : s.takeMchk.drained = false := by
  by_cases hm : s.mchkPending = true
  · cases hd : s.awaitLoads.drained with
    | true =>
      rw [State.takeMchk_drained hm hd] at h
      cases h
    | false => rwa [State.takeMchk_waits hm hd]
  · rw [State.takeMchk, if_neg hm] at h
    exact absurd h hm

/-- Settles O53: each record by its lemma, the machine check by `State.takeMchk`, with which every step ends. That SC_CMD<3> is zero for
victims and system commands is the model's choice (log 15). -/
theorem errorRecords : Obligations.ErrorRecords := by
  refine ⟨?icache, fun s r a target hreach h => ?dcache, ?scache, ?external, ?machineCheck, fun s t hstep ht => ?waits⟩
  case icache =>
    intro s tagError dataError
    cases tagError <;> cases dataError <;> rfl
  case dcache => exact State.load_parity target hreach h
  case scache =>
    simp only [List.forall_mem_cons, List.not_mem_nil, false_imp_iff, implies_true, and_true]
    exact ⟨fun s tags data pa h => State.scError_eq h tags data _ pa, fun s tags data pa h => State.scError_eq h tags data _ pa,
      fun s tags data pa h => State.scError_eq h tags data _ pa, fun s tags data pa h => State.scError_eq h tags data _ pa,
      fun s tags data pa h => State.scError_eq h tags data _ pa, fun s tags data pa h => State.scError_eq h tags data _ pa,
      fun s tags data pa h => State.scError_eq h tags data _ pa⟩
  case external =>
    intro s bits memory istream pa syndrome hard source
    refine ⟨fun h => if_pos h, fun h => State.hardError_eq h memory istream pa syndrome, _, rfl, ?_, ?_, ?_, ?_⟩
    · rw [State.correctableError, State.recordCorrectable_eq]
      rfl
    · exact State.dcByte_dcFlush (s.recordCorrectable memory istream pa syndrome)
    · rw [State.correctableError, State.recordCorrectable_eq]
      rfl
    · exact congrArg State.cbox (s.recordCorrectable_eq memory istream pa syndrome)
  case machineCheck =>
    intro s hm u
    refine ⟨fun hd => ?_, State.takeMchk_waits hm, State.awaitLoads_of_drained, fun hi => step_of_mchkPending hi hm⟩
    rw [State.takeMchk_drained hm hd]
    exact trapped_trap { u with mchkPending := false } .mchk u.pc
  case waits =>
    obtain ⟨u, -, rfl⟩ := mapRes_eq_next hstep
    exact State.drained_of_takeMchk ht

end Sys2Proof.Machine
end
